-- ==== Sys2Proof/Word.lean ====
section
/-! DEFINITION. The word types of the model: bytes and the three word widths of the manual (R1, R2). -/
namespace Sys2Proof

/-- One byte. -/
abbrev Byte := BitVec 8

/-- A byte string, the byte at the lowest offset (or transmitted first) at the head (R1). -/
abbrev Bytes := List (BitVec 8)

/-- A 16-bit field. -/
abbrev Half := BitVec 16

/-- A 32-bit word. -/
abbrev Word := BitVec 32

/-- A 64-bit word. -/
abbrev Dword := BitVec 64

end Sys2Proof
end

