-- ==== Sys2Proof/Types.lean ====
section
/-! DEFINITION. The fixed sets of names of the manual (modes, classes, results, ports, engines, states) and the
operand records that the commands of Syntax carry. Nothing here has behaviour. -/
namespace Sys2Proof

/-- Protocol modes in the order of the mode table of R29, bit 0 of MODE_MASK first. -/
inductive Proto where
  | s111 | s112 | s122 | s114 | s144 | d444 | s888 | d888
deriving DecidableEq, Repr, Inhabited

/-- A window select or a Reservoir: A or B (R52, R139). -/
inductive Sel where
  | a | b
deriving DecidableEq, Repr, Inhabited

/-- Access classes of a rule entry (R84). -/
inductive Access where
  | deny | read | readVerified | mirrored | stageWrite | openFlash
deriving DecidableEq, Repr, Inhabited

/-- Mismatch actions of a rule entry (R84, R132). -/
inductive MisAction where
  | log | hold | redirect | holdRedirect
deriving DecidableEq, Repr, Inhabited

/-- Ownership state of a flash chip select (R63). -/
inductive ChipState where
  | host | hostBusy | virund
deriving DecidableEq, Repr, Inhabited

/-- FLASH_STATE of a leaf (R110). -/
inductive FlashState where
  | good | bad | error | unverified
deriving DecidableEq, Repr, Inhabited

/-- STATE of a leaf tracker (R120). -/
inductive TrackState where
  | free | capturing | filling | queued | hashing | pageWait
deriving DecidableEq, Repr, Inhabited

/-- Outcome of a lane's platform verification (R202), `none` in State before it has ended. -/
inductive Outcome5 where
  | verified | verifiedReservoir | verifiedLogged | repairing | failed
deriving DecidableEq, Repr, Inhabited

/-- Life-cycle states (R288, R497). -/
inductive LifeCycle where
  | manufacture | unowned | owned | returned | scrapped
deriving DecidableEq, Repr, Inhabited

/-- Power states (R216). `unpowered` is the time before VSB has ever entered its window. -/
inductive PowerState where
  | run | idle | retain | deep | backup | unpowered
deriving DecidableEq, Repr, Inhabited

/-- Where FP_CS_N rises in place of the final flash-side cycle of a refused command (R37, R43, R45): at the last command
cycle, at the last address cycle, at an ERASE's address cycle that was held back, or at a WRITE_CONFIG's last cycle. -/
inductive CutPhase where
  | command | address | heldAddress | heldData
deriving DecidableEq, Repr, Inhabited

/-- What the flash side repeats of the host side (R26, R40): a read of data or status, a PROGRAM, or an ERASE whose final
cycle was held back. -/
inductive FwdKind where
  | read | program | erase
deriving DecidableEq, Repr, Inhabited

/-- What Virund's own processors are doing (R182 to R196, R268, R397, R447, R457). -/
inductive ChipMode where
  | held        -- held in reset (Levee hold of R457, RST_IN_N low of R505)
  | rom         -- the ROM has selected a set and firmware start is next
  | firmware    -- HEADSTOCK_FW runs and serves Stolik
  | paused      -- firmware runs or restarts while SERVICE_PAUSED is set (R268)
  | headwater   -- the ROM's recovery mode (R191)
  | scrapped    -- the ROM has stopped after step 4 (R194)
  | fault       -- the fault state of the Weir safe state (R447)
deriving DecidableEq, Repr, Inhabited

/-- Result codes of Stolik (R398). -/
inductive Res where
  | done | accepted | busyOwned | queueFull | lengthShort | lengthLong | badFrame | badSignature | badPoint
  | outOfRange | invariantFail | retryExhausted | rollback | incompatible | deniedPolicy | deniedLifecycle
  | notAuthorised | aborted | faultState
deriving DecidableEq, Repr, Inhabited

/-- A port (R251, R385): a host-port mailbox, a management bus, or a Wiquajo link with the originating node. -/
inductive Port where
  | hp (lane : Fin 8)
  | mb (bus : Fin 16)
  | pl (link : Fin 4) (origin : BitVec 12)
deriving DecidableEq, Repr, Inhabited

/-- Class of a Weir event (R424). -/
inductive EvClass where
  | ce | ucc | fatal
deriving DecidableEq, Repr, Inhabited

/-- Phase of ERR_OUT_N (R440). -/
inductive PinPhase where
  | released | pulse | software | forced
deriving DecidableEq, Repr, Inhabited

/-- Digest functions of R339. -/
inductive HashFn where
  | sha256 | sha384 | sha512 | sha512t256 | sha3t256 | sha3t384 | shake256
deriving DecidableEq, Repr, Inhabited

/-- Elliptic curves of R363. -/
inductive Curve where
  | p256 | p384 | p521
deriving DecidableEq, Repr, Inhabited

/-- An engine of Confluence. -/
inductive Engine where
  | riffle (i : Fin 32)
  | mandrel (m : Fin 8)
deriving DecidableEq, Repr, Inhabited

/-- What reads a leaf of a lane for a digest job of Virund's own (R320, R347): a shadow hash, the fill of a tracker, a flash check,
the confirmation reads, a scrub, a mirror fill, or the read of platform verification. -/
inductive LeafJob where
  | hash
  | fill (tracker : Fin 64)
  | check
  | confirm
  | scrub
  | mirror (region : Fin 256) (leaf : Nat)
  | verify (region : Fin 256) (leaf : Nat)
deriving DecidableEq, Repr, Inhabited

/-- A digest job of an internal submitter (R320, R347): a leaf, the digest of a gated session, or a Merkle node, page check,
tree build or acceptance, by a number of its own. -/
inductive InnerJob where
  | leaf (lane : Fin 8) (job : LeafJob)
  | session (target : Byte)
  | node (job : Nat)
deriving DecidableEq, Repr, Inhabited

/-- How such a job ends on its Riffle (R344, R346): the JOB_BYTES it declared, and whether its source was cut off. -/
structure InnerEnd where
  job : InnerJob
  declared : Nat
  cut : Bool
deriving DecidableEq, Repr, Inhabited

/-- Admission states (R302). -/
inductive AdmState where
  | unknown | attested | admitted | quarantined | refused
deriving DecidableEq, Repr, Inhabited

/-- State of a firmware copy in the commit record (R279). -/
inductive CopyState where
  | empty | writing | valid
deriving DecidableEq, Repr, Inhabited

/-- PHASE of a window (R280). -/
inductive Phase where
  | idle | landing | prestaging | flipped | following
deriving DecidableEq, Repr, Inhabited

/-- INACTIVE_STATE of a window (R280). -/
inductive Inactive where
  | unknown | landed | previous
deriving DecidableEq, Repr, Inhabited

/-- STATE of a Reservoir directory entry (R270). -/
inductive DirState where
  | empty | writing | complete
deriving DecidableEq, Repr, Inhabited

/-- STATE of an owner anchor (R168). -/
inductive AnchorState where
  | empty | active | revoked
deriving DecidableEq, Repr, Inhabited

/-- State of a Wiquajo link (R528). `leave` is DOWN with the transmitter idle after a LEAVE (R529). -/
inductive LinkState where
  | down | leave | signal | sync | ready | auth | up
deriving DecidableEq, Repr, Inhabited

/-- Membership of an authenticated link (R532). -/
inductive Membership where
  | restricted | fabric
deriving DecidableEq, Repr, Inhabited

/-- LSTATE of a training block (R527). -/
inductive LState where
  | sync | ready | leave
deriving DecidableEq, Repr, Inhabited

/-- A block of a Wiquajo link (R525): its sync header and 64 bits of payload, bit 0 first on the line. -/
structure LineBlock where
  header : BitVec 2
  payload : BitVec 64
deriving DecidableEq, Repr, Inhabited

/-- Scope of a supervised failure (R223, R235). -/
inductive Scope where
  | log | cycle | host | platform
deriving DecidableEq, Repr, Inhabited

/-- A power-good source: a sequencing input or a monitor channel (R223, PG_SRC). -/
inductive PgSrc where
  | input (k : Fin 64)
  | chan (k : Fin 32)
deriving DecidableEq, Repr, Inhabited

/-- What Chuck sees of a power-good source (R224, R225, R233): how many consecutive slow ticks an input has stood at its
level, or the latest samples of a channel, the last of them newest. -/
inductive PgSight where
  | ticks (n : Nat)
  | samples (l : List (BitVec 12))
deriving DecidableEq, Repr, Inhabited

/-- A source of a wake from RETAIN or DEEP (R216): an input that has changed and stood so many slow ticks, an address match
on a bus, signal detect on a link, RST_IN_N, Levee or Weir. -/
inductive WakeSource where
  | input (k : Fin 64) (ticks : Nat)
  | bus (b : Fin 16)
  | link (k : Fin 4)
  | rstIn
  | levee
  | weir
deriving DecidableEq, Repr, Inhabited

/-- How Virund drives a pin: to a level, or not at all, with or without a pull. -/
inductive PinDrive where
  | low
  | high
  | highZ
  | pullUp
  | pullDown
  /-- High impedance with a bus keeper (R564). -/
  | keeper
  /-- A code of Levee (R456), or the blocks of a link (R525). -/
  | code
  | electricalIdle
  | terminated
deriving DecidableEq, Repr, Inhabited

/-- The signal pins (R564): of lanes, of the Reservoir ports, of the management buses, of the links, and of bank 22 and 23. -/
inductive Pin where
  | hpSck (n : Fin 8)
  | hpCs (n : Fin 8) (k : Fin 2)
  | hpDq (n : Fin 8)
  | hpDs (n : Fin 8)
  | fpSck (n : Fin 8)
  | fpCs (n : Fin 8) (k : Fin 2)
  | fpDq (n : Fin 8)
  | fpDs (n : Fin 8)
  | fpRst (n : Fin 8)
  | rvSck (x : Sel)
  | rvCs (x : Sel) (k : Fin 2)
  | rvDq (x : Sel)
  | rvDs (x : Sel)
  | rvRst (x : Sel)
  | mb (b : Fin 16)
  | plTx (k : Fin 4)
  | plRx (k : Fin 4)
  | seqOut (k : Fin 64)
  | seqIn (k : Fin 64)
  | mon (k : Fin 32)
  | encA (k : Fin 8)
  | encB (k : Fin 8)
  | errOut | platHold | rstIn
  | tck | trst | tms | tdi | tdo
  | strap (i : Fin 25)
  | rsvd (i : Fin 18)
deriving DecidableEq, Repr, Inhabited

/-- The I/O bank of a Reservoir port (R557). -/
def resBank : Sel → Nat
  | .a => 16
  | .b => 17

/-- Which run of the program an operation event belongs to: the main run, or the replay of one host (R237). -/
inductive SeqCtx where
  | main
  | replay (h : Fin 16)
deriving DecidableEq, Repr, Inhabited

/-- What holds HARD set on every host until its own end (R243, R244): a start-up, of which a POR's starts the program
without OFF_TIME; a brown-out; a PLATFORM reset; a PLAT_FOLLOW event. -/
inductive HardCause where
  | startUp (por : Bool)
  | brownOut
  | platform
  | follow
deriving DecidableEq, Repr, Inhabited

/-- Strap readings: tied to GND, tied to VSB, open (R558, R559). -/
inductive Strap where
  | gnd | vsb | open_
deriving DecidableEq, Repr, Inhabited

/-- CAUSE of a CHIP reset (R448). -/
inductive ResetCause where
  | weir | rstIn | levee | startWatchdog | headwaterCommit | other
deriving DecidableEq, Repr, Inhabited

/-- Debug-port instructions as R501 names them. -/
inductive TapInstr where
  | bypass | idcode | samplePreload | extest | manufacturingTest | coreHaltStep | memoryAccess | faultInjection
  | unassigned
deriving DecidableEq, Repr, Inhabited

/-- Registers with no behaviour of their own that firmware writes (R6, R434, R454, R471). -/
inductive RegName where
  | weirCfg (s : Fin 64)
  | leveeScope (k : Fin 12)
  | enclosureWord
deriving DecidableEq, Repr, Inhabited

/-- Memories the patrol visits (R481, R489). -/
inductive PatrolMem where
  | mirror (bank : Fin 12)
  | manifestCache (bank : Fin 6)
  | staging (bank : Fin 4)
  | headstock
  | spindle (n : Fin 8)
  | tenon (k : Fin 4)
  | confluence (contextSlot : Bool)
  | nvmCopy (component : Fin 4) (copyB : Bool)
  | nvmCommit (copy1 : Bool)
  | nvmPolicyLane (n : Fin 8)
  | nvmManifestLane (n : Fin 8)
  | nvmPlatformPolicy
  | nvmAdmissionPolicy
  | nvmKeyStore
  | nvmLog
deriving DecidableEq, Repr, Inhabited

/-- Faults that the lane engine meets on a command (R72 to R76): its two pipelines disagree, a lookup reads an
uncorrectable table word, or a front-end check fails at a host SCK cycle. -/
structure LookEnv where
  disagree : Bool
  tableErr : Bool
  frontEnd : Option Nat
deriving DecidableEq, Repr, Inhabited

/-- What Virund holds of one guarded flash: the bytes of its SFDP as the Spindle last read them (R59), and the command
sequences into 8D-8D-8D and back to 1S-1S-1S, each a list of commands (R37, R59). -/
structure FlashTables where
  sfdp : Bytes
  octalIn : List Bytes
  octalOut : List Bytes
deriving DecidableEq, Repr, Inhabited

/-- What a host transaction brings on every command: the lane port, the chip select, the two command bytes, the SCK
frequency in kHz, the chip-select high time that preceded it in ns, and the faults that its decision meets (R72 to R76). -/
structure Txn where
  lane : Fin 8
  cs : Fin 2
  op : Byte
  op2 : Byte
  sckKHz : Nat
  highNs : Nat
  look : LookEnv
deriving DecidableEq, Repr, Inhabited

/-- What the pins and memories around the lane answer during a READ (R54 to R57, R72 to R75, R130, R137): the bytes the
flash and the claimed Reservoir drive, byte k for the k-th data byte of the transaction, and the faults met, each at
the index of a looked-up unit of the read (0 the addressed unit; the last index is that of the unit after the read, R54)
or of a data byte. frontEndUnit is the unit in which a front-end check fails, with the host SCK cycle (R76). -/
structure ReadEnv where
  flash : Bytes
  reservoir : Bytes
  disagreeUnit : Option Nat
  tableErrUnit : Option Nat
  frontEndUnit : Option (Nat × Nat)
  mirrorUceByte : Option Nat
  strobeFaultByte : Option Nat
deriving DecidableEq, Repr, Inhabited

/-- A real event on an error line of Weir (R423 to R425). -/
structure WeirEv where
  source : Fin 64
  cls : EvClass
  code : Half
  unit : Half
  detail : Word
deriving DecidableEq, Repr, Inhabited

/-- A Levee condition (R452, R460, R465): the kind, the detectors that fired, and the traces or pairs concerned. -/
structure LeveeCond where
  kind : Fin 12
  d1 : Bool
  d2 : Bool
  pairs : Byte
  traces : Half
  detail : Word
  vbakMv : Half
deriving DecidableEq, Repr, Inhabited

/-- A Stolik request whose header, length, CRC and opcode are right (steps 1 to 4 of R390): the port it arrived on, the
FLAGS and TAG of its header and its payload bytes. -/
structure Req where
  port : Port
  flags : Half
  tag : Word
  payload : Bytes
deriving DecidableEq, Repr, Inhabited

/-- What the Reservoirs and the flash supply when a computed root is wrong (R200): for each Reservoir the
leaf-digest file of the lane and the bytes of the region in the shadow, and the confirmation reads of the leaves that stay wrong. -/
structure RegionEnv where
  image : Bytes
  fileA : Bytes
  fileB : Bytes
  shadowA : Bytes
  shadowB : Bytes
  secondRead : Bytes
  faultLeaves : List Nat
deriving DecidableEq, Repr, Inhabited

/-- The next SPDM exchange of an attestation as the component answers it (R299). -/
inductive SpdmAnswer where
  | discovery (spdm : Bool)
  | settled (version : Byte) (certCap : Bool) (measCap : BitVec 2) (asymOk : Bool) (hashOk : Bool)
  | digests (chainDigest : Bytes)
  | certificate (portion : Bytes) (last : Bool)
  | measurements (blocks : Bytes) (signature : Bytes)
deriving DecidableEq, Repr, Inhabited

/-- One certificate of a component's chain as the requester reads it (R300): its DER bytes, its names, its basic
constraint, its DER SubjectPublicKeyInfo, and whether it verifies under the one before it. -/
structure ChainCert where
  der : Bytes
  subject : Bytes
  issuer : Bytes
  ca : Bool
  spki : Bytes
  signedByPrev : Bool
deriving DecidableEq, Repr, Inhabited

/-- One measurement block as received (R301). -/
structure MeasBlock where
  index : Byte
  bytes : Bytes
deriving DecidableEq, Repr, Inhabited

/-- An SPDM request to the responder (R295): the bus and the message's bytes. -/
structure SpdmReq where
  bus : Fin 16
  msg : Bytes
deriving DecidableEq, Repr, Inhabited

/-- An AUTH_KEY payload of link authentication (R530). -/
structure AuthKey where
  ephPub : Bytes
  serial : Dword
  aOwner : Bytes
  headwater : Bool
  lc : Byte
  node : BitVec 12
  assigned : Bool
deriving DecidableEq, Repr, Inhabited

/-- What a receiver finds of a sequenced link frame (R534): the next expected one, CRC and TAG right; or its CRC fails, its TAG
fails, or its SEQ is not the next expected. -/
inductive FrameCheck where
  | good
  | crc
  | tag
  | seq
deriving DecidableEq, Repr, Inhabited

/-- The routed header of R539. -/
structure RoutedHdr where
  dst : BitVec 12
  flood : Bool
  src : BitVec 12
  hopsLeft : Byte
  service : Byte
  frag : BitVec 15
  last : Bool
  msgId : Word
deriving DecidableEq, Repr, Inhabited

/-- An ANNOUNCE payload (R536). -/
structure AnnounceMsg where
  node : BitVec 12
  aseq : Word
  hops : Byte
  timeRoot : Bool
  serial : Dword
deriving DecidableEq, Repr, Inhabited

/-- A TIME payload (R544), timestamps in 1/16 ns. -/
structure TimeMsg where
  response : Bool
  synced : Bool
  root : BitVec 12
  syncId : Word
  t1 : Dword
  t2 : Dword
  t3 : Dword
deriving DecidableEq, Repr, Inhabited

end Sys2Proof
end

