-- ==== Sys2Proof/Syntax.lean ====
section
/-! DEFINITION. The commands and events of the block, one constructor per row of spec/opcode_table.json, in the table's
order. A constructor's operands are what comes from outside with the command: pins, bytes on a bus, the answers of the
flash and of other nodes, and the faults that hardware reports. A row that is a lapse of time or an end of the block's
own work carries the object it concerns. -/
namespace Sys2Proof

/-- The commands of the block. -/
inductive Instr where
  -- Host transactions on a lane (R26 to R71, R86 to R94)
  | read (t : Txn) (addr : Word) (len : Nat) (e : ReadEnv)
  | readSfdp (t : Txn) (addr : Word) (len : Nat)
  | readId (t : Txn) (len : Nat)
  | readStatus (t : Txn) (len : Nat) (sr0 sr1 : Byte)
  | writeEnable (t : Txn)
  | program (t : Txn) (addr : Word) (data : Bytes)
  | erase (t : Txn) (addr : Word) (blockUnits : Nat)
  | eraseChip (t : Txn)
  | writeConfig (t : Txn) (data : Bytes)
  | addressMode (t : Txn)
  | reset (t : Txn)
  | resetConfigRestore (lane : Fin 8) (chip : Fin 2)
  | suspend (t : Txn)
  | resume (t : Txn)
  | power (t : Txn) (len : Nat)
  | securityRegister (t : Txn) (addr : Word) (len : Nat)
  | unknown (t : Txn) (len : Nat)
  | mbOpWrite (t : Txn) (data : Bytes)
  | mbOpRead (t : Txn) (len : Nat)
  | mbOpStatus (t : Txn) (len : Nat)
  | mailboxFrameRelease (lane : Fin 8)
  | mailboxGapTimeout (lane : Fin 8)
  -- The lane's own events (R46, R63, R64, R75 to R83, R101)
  | wrdiSend (lane : Fin 8)
  | flashStatusPoll (lane : Fin 8) (chip : Fin 2) (sr : Byte)
  | tableRewrite (lane : Fin 8)
  | shadowHashResume (lane : Fin 8)
  | spareTakeoverComplete (lane : Fin 8)
  | ruleSetSwap (lane : Fin 8)
  -- Verification (R108 to R150)
  | leafHashComplete (lane : Fin 8)
  | pageInComplete (lane : Fin 8) (region : Fin 256) (page : Nat) (fileA fileB : Bytes) (leaves : List Bytes)
      (faultLeaves : List Nat)
  | partialTimeout (lane : Fin 8) (tracker : Fin 64)
  | trackerFillComplete (lane : Fin 8) (tracker : Fin 64) (leafBytes : Bytes) (readFault : Bool)
  | flashCheck (lane : Fin 8) (leafBytes : Bytes) (readFault : Bool)
  | confirmationReads (lane : Fin 8) (read1 read2 : Bytes) (readFault : Bool)
  | claimEffect (res : Sel) (capable : Bool)
  | claimRelease (res : Sel)
  | mirrorFill (lane : Fin 8) (region : Fin 256) (leaf : Nat) (leafBytes : Bytes)
      (fromReservoir readFault : Bool)
  | holdAutoRelease (host : Fin 16)
  | trackerDrainComplete (lane : Fin 8)
  | scrub (lane : Fin 8) (leafBytes : Bytes) (readFault : Bool)
  | scrubOverrun (lane : Fin 8)
  | virundEnter (lane : Fin 8) (chip : Fin 2)
  | virundExit (lane : Fin 8) (chip : Fin 2)
  -- Start-up (R182 to R208)
  | por (vsel : Vector Strap 22) (mbAddr : Vector Strap 2) (pullMaster : Strap)
  | romextOverrun
  | headwaterPeerRequest
  | headwaterOfferWindowEnd
  | firmwareStart (failing : List Engine) (reachesStarted : Bool)
  | startWatchdog
  | aliasCertsSigned (retry : Bool)
  | platformVerifyAcceptance (lane : Fin 8) (chipAbsent0 chipAbsent1 : Bool) (flash0 flash1 : FlashTables)
  | regionRootCompare (lane : Fin 8) (region : Fin 256) (e : RegionEnv)
  | platformVerifyEnd (lane : Fin 8)
  | platformVerifyTimeout (lane : Fin 8)
  | leafRepair (lane : Fin 8) (region : Fin 256) (leaf : Nat) (source readBack readBack2 : Bytes) (erase4k : Bool)
  -- The sequencing program (R205, R227 to R247)
  | seqStepStart (c : SeqCtx)
  | assert (c : SeqCtx)
  | deassert (c : SeqCtx)
  | pulse (c : SeqCtx)
  | pulseEnd (pin : Fin 64)
  | delay (c : SeqCtx)
  | delayEnd (c : SeqCtx)
  | waitPg (c : SeqCtx)
  | waitPgMet (c : SeqCtx) (seen : PgSight)
  | waitPgTimeout (c : SeqCtx)
  | waitIn (c : SeqCtx)
  | waitInMet (c : SeqCtx) (ticks : Nat)
  | waitInTimeout (c : SeqCtx)
  | ifPresent (c : SeqCtx) (present : Bool)
  | releaseHost (c : SeqCtx) (good : List (PgSrc × PgSight))
  | platSync (c : SeqCtx)
  | platSyncReleased
  | platSyncTimeout
  -- Chuck's supervision and supplies (R211, R216 to R248)
  | supervisedFailure (src : PgSrc) (seen : PgSight)
  | takeDownStep (c : SeqCtx)
  | cycleReassert (pin : Fin 64) (seen : PgSight)
  | hostBringUp (host : Fin 16)
  | platformRestart
  | brownOut
  | brownOutRecovery
  | vsbLoss
  | backupEntry
  | backupLoss
  | platFollowEvent
  | platHoldHigh
  | startInput (k : Fin 64) (ticks : Nat)
  | idleEntry
  | idleWake
  | autoRetain
  | retainWake (w : WakeSource)
  | deepAfterExpiry
  | deepWake (w : WakeSource)
  | enginePowerDown (e : Engine)
  -- Updates (R249 to R287)
  | updateLockIdle (target : Byte)
  | updateRootCheck (lane : Fin 8) (window : Fin 8)
  | landingComplete (lane : Fin 8) (window : Fin 8) (readBack : Bytes)
  | gatedSessionCommit (target : Byte)
  | activationPreflipCheck (lane : Fin 8) (window : Fin 8) (readBack : Bytes)
  | prestage (lane : Fin 8) (window : Fin 8) (readBack : List Bytes)
  | activationFlip (lane : Fin 8) (window : Fin 8)
  | counterRaise (lane : Fin 8) (window : Fin 8)
  | follow (lane : Fin 8) (window : Fin 8) (readBack : List Bytes)
  | activationPauseEnd
  | reservoirRefresh (res : Sel) (readBack : List Bytes)
  -- Attestation and admission (R295 to R317)
  | slotPresent (slot : Fin 1024) (presence : Bool)
  | slotPoll (slot : Fin 1024) (answers presence : Bool)
  | slotAbsent (slot : Fin 1024)
  | attestationResponse (slot : Fin 1024) (answer : SpdmAnswer)
  | attestationTimeout (slot : Fin 1024)
  | attestationVerdict (slot : Fin 1024) (chain : List ChainCert) (sigOk : Bool)
  | attestRetry (slot : Fin 1024)
  | reattest (slot : Fin 1024)
  | discoveryNotify (slot : Fin 1024)
  | quotaAnswer (slot : Fin 1024) (granted : Bool) (leaseId leaseTime : Word)
  | quotaClaimRetry (slot : Fin 1024)
  | leaseRenew (slot : Fin 1024) (acknowledged : Bool)
  | leaseEnd (slot : Fin 1024)
  | leaseReclaim (leaseId : Word)
  | spdmGetVersion (r : SpdmReq)
  | spdmGetCapabilities (r : SpdmReq)
  | spdmNegotiateAlgorithms (r : SpdmReq)
  | spdmGetDigests (r : SpdmReq)
  | spdmGetCertificate (r : SpdmReq)
  | spdmChallenge (r : SpdmReq)
  | spdmGetMeasurements (r : SpdmReq)
  -- Engines (R320 to R384)
  | jobDispatch (e : Engine)
  | riffleJobEnd (i : Fin 32) (delivered : Nat) (inner : Option InnerEnd)
  | mandrelJobEnd (m : Fin 8) (invariantCheck : Option (Fin 11))
  | checkedWipeEnd (m : Fin 8) (readBackOk : Bool)
  | keyResidencyTimeout (m : Fin 8)
  | digestSessionTimeout (session : Word)
  | rifflePeriodicKat (i : Fin 24) (failedTest : Option (Fin 6))
  -- Stolik (R385 to R421)
  | stolikRequestRelease (port : Port)
  | stolikInvalidFrame (port : Port) (frame : Bytes) (integrityCheck : Bool)
  | getIdentity (r : Req)
  | getStatus (r : Req)
  | getChallenge (r : Req)
  | challengeExpiry
  | diagRead (r : Req)
  | getOpStatus (r : Req)
  | opRecordExpiry
  | putStructureHostManifest (r : Req)
  | putStructureLanePolicy (r : Req)
  | putStructurePlatformPolicy (r : Req)
  | putStructureAdmissionPolicy (r : Req)
  | structureUploadTimeout (port : Port)
  | getStructure (r : Req)
  | setConfig (r : Req)
  | getConfig (r : Req)
  | updateBegin (r : Req)
  | updateChunk (r : Req)
  | updateEnd (r : Req)
  | updateAbort (r : Req)
  | activateHostImage (r : Req)
  | activateComponent (r : Req)
  | discardStaged (r : Req)
  | repairLane (r : Req)
  | getUpdateStatus (r : Req)
  | stageStatus (r : Req)
  | stageDigest (r : Req)
  | getCertificates (r : Req)
  | getAdmission (r : Req)
  | getToken (r : Req)
  | getEvidence (r : Req)
  | heldObjectExpiry
  | slotQuarantine (r : Req)
  | slotRelease (r : Req)
  | slotReattest (r : Req)
  | quotaClaim (r : Req)
  | quotaRenew (r : Req)
  | quotaRelease (r : Req)
  | digest (r : Req)
  | digestStart (r : Req)
  | digestUpdate (r : Req)
  | digestFinish (r : Req)
  | digestSuspend (r : Req)
  | digestResume (r : Req)
  | ecdsaVerify (r : Req)
  | rsaVerify (r : Req)
  | mldsaVerify (r : Req)
  | getTime (r : Req)
  | setTime (r : Req)
  | snapshotCounters (r : Req)
  | snapshotCountersFabric (r : Req)
  | snapshotCapture
  | snapshotCopy
  | getSnapshot (r : Req)
  | logRead (r : Req)
  | logExport (r : Req)
  | platformPowerStart (r : Req)
  | platformPowerDown (r : Req)
  | platformPowerReset (r : Req)
  | hostHold (r : Req)
  | hostRelease (r : Req)
  | laneDenyAllOn (r : Req)
  | laneDenyAllOff (r : Req)
  | laneReset (r : Req)
  | powerStateRetain (r : Req)
  | powerStateDeep (r : Req)
  | wakeTimer
  | takeOwnership (r : Req)
  | setAnchorActive (r : Req)
  | setAnchorRevoke (r : Req)
  | raiseCounter (r : Req)
  | lifecycleTransition (r : Req)
  | debugUnlock (r : Req)
  -- Weir, resets, Levee, the log and the memories (R423 to R518)
  | weirEvent (evs : List WeirEv)
  | chipReset (cause : ResetCause)
  | warmReset
  | rstInN (low : Bool)
  | weirInject (word : Dword) (together : List WeirEv)
  | clearTest (word : Dword)
  | pendingClear (pending injected : Dword)
  | firstErrorClear (word : Dword)
  | errHoldWrite (value : Bool)
  | errPulseEnd
  | weirIrqService
  | registerWrite (reg : RegName) (value : Dword)
  | leveeAlarm (c : LeveeCond)
  | leveeRelease
  | leveeDisagree (kind : Fin 12) (d1Fired : Bool)
  | leveePeriodicTest (kind : Fin 12) (d1Fails d2Fails : Bool)
  | leveeBackupAlarm (c : LeveeCond)
  | vbakLow (mv : Half)
  | leveeAlarmClear (word : Dword)
  | logEntryWrite (readBackOk : Bool)
  | timeCheckpoint
  | patrolScrub (m : PatrolMem) (word : Word) (data : Dword) (check : Byte) (leaf : Fin 8 × Fin 256 × Nat)
  -- The Wiquajo fabric (R525 to R552)
  | linkSignalDetect (k : Fin 4)
  | linkBlockLock (k : Fin 4) (headers : List (BitVec 2))
  | linkTrainingBlock (k : Fin 4) (prev : BitVec 58) (block : LineBlock)
  | linkAuthComplete (k : Fin 4) (chain : List ChainCert) (sigOk : Bool)
  | linkTrainTimeout (k : Fin 4)
  | linkRetrain (k : Fin 4)
  | linkLockLoss (k : Fin 4)
  | linkLeave (k : Fin 4)
  | ack (k : Fin 4) (next : Half)
  | nak (k : Fin 4) (next : Half)
  | linkRetryTimeout (k : Fin 4)
  | announce (k : Fin 4) (m : AnnounceMsg)
  | announcePeriod
  | routeExpiry
  | routed (k : Fin 4) (h : RoutedHdr) (data : Bytes) (check : FrameCheck)
  | reassemblyTimeout
  | relayRequest (k : Fin 4) (src : BitVec 12) (msgId : Word) (frame : Bytes)
  | relayResponse (k : Fin 4) (src : BitVec 12) (msgId : Word) (frame : Bytes)
  | bridgeMessage (bus : Fin 16) (endpoint eid : Byte) (frame : Bytes)
  | bridgeTimeout
  | timeExchange
  | time (k : Fin 4) (m : TimeMsg) (arrival : Dword)
  | snapSchedule (k : Fin 4) (initiator : BitVec 12) (opId : Word) (at_ : Dword)
  | snapAck (node : BitVec 12) (opId : Word) (flags : Half)
  | snapFetch (src : BitVec 12) (msgId : Word) (opId : Word) (node : BitVec 12) (chunk : Word)
  | snapData (src : BitVec 12) (msgId : Word) (result : Res) (total : Word) (data : Bytes)
  | snapFetchTimeout
  | alert (src : BitVec 12) (kind detail : Byte) (nodeTime : Dword)
  | recoveryQuery (k : Fin 4)
  | recoveryOffer (k : Fin 4) (hsVersion setLength generation manifestLength : Word)
  | recoveryNone (k : Fin 4)
  | recoveryGet (k : Fin 4) (offset length : Word)
  | recoveryData (k : Fin 4) (offset : Word) (data : Bytes)
  -- Returns to service, supplies, authentication, the debug port and the rest
  | blockResetEnd (source : Fin 64) (unit : Fin 16) (testPassed : Bool)
  | vinWindowEntry
  | vsbWindowReturn
  | auth (k : Fin 4) (key : AuthKey)
  | tapInstruction (i : TapInstr)
  | clockLowTimeout (bus : Fin 16)
  | healthTestPass
deriving DecidableEq, Repr

end Sys2Proof
end

