-- ==== Sys2Proof/Decode.lean ====
section
/-! DEFINITION. The reading of a command from a word. spec/opcode_table.json gives its rows no bits: the block takes
commands, not instruction words, so that no word spells one. -/
namespace Sys2Proof

/-- No row of the table gives bits, so a word of any length spells no command. -/
def decodeTableWord (_nbits _w : Nat) : Option Instr := none

end Sys2Proof
end

