-- ==== Sys2Proof/Config.lean ====
section
/-! DEFINITION. The values that the manual leaves open: constants without a body, so that nothing can be proved of the
value they take (assumptions 4, 5 and 6). -/
namespace Sys2Proof

/-- A byte drawn from the entropy source (R401, R354, R355, R530): draw number n of the
counter State.free. -/
opaque Config.freeByte : Nat → Byte

/-- Whether a transaction in the band of R33, between HOST_FMAX and its tolerance, is refused: draw number n. -/
opaque Config.freeBit : Nat → Bool

/-- A word that the manual states no value for: draw number n. -/
opaque Config.freeNat : Nat → Nat

/-- ML-DSA.Verify of FIPS 204 on the representative mu (R363, R368): parameter set 65 or 87, public key, mu,
signature. -/
opaque Config.mldsaVerify : Nat → Bytes → Bytes → Bytes → Bool

/-- An ML-DSA-87 signature by the key derived from a secret (R290, R294, R319): secret, mu, and the draw number of
rnd (R367). The length is that of R363. -/
opaque Config.mldsaSign : Bytes → Bytes → Nat → Nat → Byte

/-- The ML-DSA-87 public key derived from a secret (R289): secret, byte index. -/
opaque Config.mldsaPublic : Bytes → Nat → Byte

/-- Byte i of ROM_DIGEST, the SHA-384 of the 256 KiB ROM (R288), whose contents the manual does not give. -/
opaque Config.romDigestByte : Nat → Byte

/-- Bits 30:24 of DWORD 11 of the synthesised Basic Flash Parameter Table, which report chip erase as unsupported (R59);
the manual does not give the encoding. The argument is the flash's own field. -/
opaque Config.chipEraseUnsupported : Nat → Nat

/-- Digit i of the time of manufacture test, YYMMDDHHMMSS, in the X.509 certificates (R293). -/
opaque Config.manufactureTime : Nat → Byte

/-- Byte i of a start block behind its type (R525, R533): the manual gives the frame from the byte after the block. -/
opaque Config.startBlockByte : Nat → Byte

/-- Byte i of the Tvedvaholt Identity Root digest that the ROM holds (R530). -/
opaque Config.identityRootByte : Nat → Byte

end Sys2Proof
end

