-- ==== Sys2Proof/Machine/Bytes.lean ====
section
/-! DEFINITION. Byte strings: little-endian fields (R1), big-endian integers (R2), the CRCs of R388 and R184, sparse
captures, and total access to vectors and lists. -/
namespace Sys2Proof.Machine
open Sys2Proof

/-! ### Vectors and lists -/

/-- A vector with entry i changed by f. -/
def vmod {α : Type} {n : Nat} (v : Vector α n) (i : Fin n) (f : α → α) : Vector α n := v.set i.val (f v[i])

/-- A vector with every entry changed by f. -/
def vmap {α β : Type} {n : Nat} (v : Vector α n) (f : α → β) : Vector β n := Vector.ofFn fun i => f v[i]

/-- A vector with every entry changed by f of its index. -/
def vmapI {α β : Type} {n : Nat} (v : Vector α n) (f : Fin n → α → β) : Vector β n := Vector.ofFn fun i => f i v[i]

/-- The indices of a vector of n entries, in order. -/
def fins (n : Nat) : List (Fin n) := List.finRange n

/-- The indices at which p holds, in order. -/
def vfind {α : Type} {n : Nat} (v : Vector α n) (p : α → Bool) : List (Fin n) := (fins n).filter fun i => p v[i]

/-- The list with its i-th entry changed by f. -/
def lmod {α : Type} (l : List α) (i : Nat) (f : α → α) : List α := l.modify i f

/-- The list without every entry for which p holds. -/
def drop? {α : Type} (l : List α) (p : α → Bool) : List α := l.filter fun x => !p x

/-- The list cut into pieces of n entries, at most fuel pieces. -/
def chunks {α : Type} (n : Nat) : Nat → List α → List (List α)
  | 0, _ => []
  | _, [] => []
  | fuel + 1, l => l.take n :: chunks n fuel (l.drop n)

/-- The list cut into pieces of n entries. -/
def chunksOf {α : Type} (n : Nat) (l : List α) : List (List α) := chunks n l.length l

/-! ### Fields -/

/-- n zero bytes. -/
def zeros (n : Nat) : Bytes := List.replicate n 0

/-- The n bytes from offset o; short where the string ends. -/
def slice (b : Bytes) (o n : Nat) : Bytes := (b.drop o).take n

/-- Little-endian value of a byte string (R1). -/
def leVal : Bytes → Nat
  | [] => 0
  | b :: bs => b.toNat + 256 * leVal bs

/-- Big-endian value of a byte string (R2). -/
def beVal (b : Bytes) : Nat := b.foldl (fun a x => 256 * a + x.toNat) 0

/-- n bytes of v, least significant first (R1). -/
def leBytes : Nat → Nat → Bytes
  | 0, _ => []
  | n + 1, v => BitVec.ofNat 8 v :: leBytes n (v / 256)

/-- n bytes of v, most significant first (R2). -/
def beBytes (n v : Nat) : Bytes := (leBytes n v).reverse

/-- The unsigned field of n bytes at offset o (R1). -/
def field (b : Bytes) (o n : Nat) : Nat := leVal (slice b o n)

def u8 (b : Bytes) (o : Nat) : Nat := field b o 1
def u16 (b : Bytes) (o : Nat) : Nat := field b o 2
def u32 (b : Bytes) (o : Nat) : Nat := field b o 4
def u64 (b : Bytes) (o : Nat) : Nat := field b o 8

/-- Bits hi..lo of a number. -/
def bits (v hi lo : Nat) : Nat := (v >>> lo) % 2 ^ (hi + 1 - lo)

/-- Bit k of a number. -/
def bit (v k : Nat) : Bool := v.testBit k

/-- 1 for true, 0 for false. -/
def b2n (b : Bool) : Nat := if b then 1 else 0

/-- Every byte is zero. -/
def allZero (b : Bytes) : Bool := b.all (· == 0)

/-- A byte string padded with x to n bytes. -/
def padTo (b : Bytes) (n : Nat) (x : Byte := 0) : Bytes := b ++ List.replicate (n - b.length) x

/-- ASCII bytes of a string of such characters. -/
def ascii (s : String) : Bytes := s.toList.map fun c => BitVec.ofNat 8 c.toNat

/-- The bytes of n written over b at offset o. -/
def overwrite (b : Bytes) (o : Nat) (n : Bytes) : Bytes := b.take o ++ n ++ b.drop (o + n.length)

/-- The bitwise AND of two byte strings, as long as the first. -/
def andBytes : Bytes → Bytes → Bytes
  | [], _ => []
  | a :: as, [] => a :: as
  | a :: as, b :: bs => (a &&& b) :: andBytes as bs

/-- The bitwise XOR of two byte strings, as long as the shorter. -/
def xorBytes (a b : Bytes) : Bytes := List.zipWith (· ^^^ ·) a b

/-- A count that stays at its maximum (R97, R338). -/
def satAdd (w v n : Nat) : Nat := min (2 ^ w - 1) (v + n)

/-! ### Cyclic redundancy checks -/

/-- One bit of a reflected CRC. -/
def crcBit {w : Nat} (poly c : BitVec w) : BitVec w := if c.getLsbD 0 then (c >>> 1) ^^^ poly else c >>> 1

/-- One byte of a reflected CRC. -/
def crcByte {w : Nat} (poly : BitVec w) (c : BitVec w) (b : Byte) : BitVec w :=
  (List.range 8).foldl (fun c _ => crcBit poly c) (c ^^^ b.setWidth w)

/-- CRC-32C with the parameters of R388. -/
def crc32c (b : Bytes) : Word := ~~~ (b.foldl (crcByte (0x82F63B78 : Word)) (~~~ 0))

/-- The CRC-64 of the commit record (R278), of which R184 makes the check of a firmware copy. -/
def crc64 (b : Bytes) : Dword := ~~~ (b.foldl (crcByte (0xC96C5795D7870F42 : Dword)) (~~~ 0))

/-! ### Sparse byte captures -/

/-- A sparse memory in its one form: offsets strictly rising. Nothing is listed for an offset that holds no byte. -/
def cellsWf : List Host.Cell → Bool
  | [] => true
  | [_] => true
  | a :: b :: r => decide (a.1 < b.1) && cellsWf (b :: r)

/-- The byte at an offset, none where nothing was captured. -/
def cellGet : List Host.Cell → Nat → Option Byte
  | [], _ => none
  | c :: r, a => if c.1 = a then some c.2 else cellGet r a

/-- The memory with byte b at offset a. -/
def cellSet : List Host.Cell → Nat → Byte → List Host.Cell
  | [], a, b => [(a, b)]
  | c :: r, a, b => if a < c.1 then (a, b) :: c :: r else if c.1 = a then (a, b) :: r else c :: cellSet r a b

/-- The memory with a byte string written from offset a on. -/
def cellSets (m : List Host.Cell) (a : Nat) : Bytes → List Host.Cell
  | [] => m
  | b :: bs => cellSets (cellSet m a b) (a + 1) bs

/-- The n bytes from offset a, zero where nothing was captured. -/
def cellRead (m : List Host.Cell) (a n : Nat) : Bytes := (List.range n).map fun k => (cellGet m (a + k)).getD 0

end Sys2Proof.Machine
end

