-- ==== Sys2Proof/Machine/LineCode.lean ====
section
/-! DEFINITION. The line coding of the Wiquajo links: 66-bit blocks, the self-synchronous scrambler, SKIP and training blocks,
and the blocks of a link frame (R525 to R527, R533). -/
namespace Sys2Proof.Machine
open Sys2Proof

/-! ### Blocks (R525) -/

/-- The sync headers of data blocks and control blocks. -/
def syncData : BitVec 2 := 0b01
def syncControl : BitVec 2 := 0b10

/-- A valid sync header. -/
def syncOk (h : BitVec 2) : Bool := h == syncData || h == syncControl

/-- Eight bytes as a payload, the first of them first on the line, each from its least significant bit. -/
def linePayload (b : Bytes) : BitVec 64 := BitVec.ofNat 64 (leVal b)

/-- The eight bytes of a payload. -/
def payloadBytes (p : BitVec 64) : Bytes := leBytes 8 p.toNat

/-- A control block: its type and seven bytes. -/
def controlBlock (type : Byte) (b : Bytes) : LineBlock := ⟨syncControl, linePayload (type :: padTo b 7)⟩

/-- Idle (R525), SKIP (R526). -/
def idleBlock : LineBlock := controlBlock 0x1E []
def skipBlock : LineBlock := controlBlock 0x4B [0x55]

/-- The start block. Its seven bytes lie before the frame, and R533 gives them no value: they are a free value. -/
def startBlock : LineBlock := controlBlock 0x78 ((List.range 7).map Config.startBlockByte)

/-- The types of the terminate blocks with 0 to 7 data bytes (R525: 0x87 to 0xFF, as IEEE 802.3 Clause 49 numbers them). -/
def terminateTypes : List Byte := [0x87, 0x99, 0xAA, 0xB4, 0xCC, 0xD2, 0xE1, 0xFF]

/-- The terminate block with the last data bytes; what follows them is idle. -/
def terminateBlock (b : Bytes) : LineBlock := controlBlock ((terminateTypes[b.length]?).getD 0x87) b

/-- The blocks of a link frame: the start block, the frame from the byte after it, and the terminate block (R533). -/
def frameBlocks (b : Bytes) : List LineBlock :=
  let whole := b.take (b.length / 8 * 8)
  startBlock :: ((chunksOf 8 whole).map fun x => ⟨syncData, linePayload x⟩) ++ [terminateBlock (b.drop (b.length / 8 * 8))]

/-! ### The scrambler x^58 + x^39 + 1 (R525) -/

/-- One bit of the scrambler or the descrambler: h holds the last 58 bits of the line, the latest in bit 0. -/
def lineBit (h : BitVec 58) (b : Bool) : Bool := b ^^ h.getLsbD 38 ^^ h.getLsbD 57

/-- The next 58 bits of the line. -/
def pushBit (h : BitVec 58) (b : Bool) : BitVec 58 := (h <<< 1) ||| (if b then 1 else 0)

/-- A payload as it stands on the line after the given bits of it, with the bits after it. -/
def scramble (h : BitVec 58) (p : BitVec 64) : BitVec 64 × BitVec 58 :=
  (List.range 64).foldl (fun x i =>
    let b := lineBit x.2 (p.getLsbD i)
    (if b then x.1 ||| (1#64 <<< i) else x.1, pushBit x.2 b)) (0, h)

/-- The payload that the line's bits carry. -/
def descramble (h : BitVec 58) (p : BitVec 64) : BitVec 64 × BitVec 58 :=
  (List.range 64).foldl (fun x i =>
    let b := p.getLsbD i
    (if lineBit x.2 b then x.1 ||| (1#64 <<< i) else x.1, pushBit x.2 b)) (0, h)

/-! ### Training blocks (R527) -/

/-- LSTATE. -/
def lstateCode : LState → Byte
  | .sync => 1
  | .ready => 2
  | .leave => 3

/-- A training block of a node on its link k. -/
def trainingBlock (st : LState) (node : BitVec 12) (assigned : Bool) (k : Fin 4) : LineBlock :=
  controlBlock 0x4B ([0xA5, lstateCode st] ++ leBytes 2 (node.toNat + if assigned then 2 ^ 15 else 0) ++ [BitVec.ofNat 8 k.val, 0, 0])

/-- LSTATE of a block that is a valid training block: an ordered set with the marker, one of the three states, a link index,
and zero in the reserved bits. -/
def readTraining (b : LineBlock) : Option LState :=
  let d := payloadBytes b.payload
  let at_ := fun (i : Nat) => (d[i]?.getD 0).toNat
  if b.header != syncControl || at_ 0 != 0x4B || at_ 1 != 0xA5 || 4 ≤ at_ 5 || at_ 6 != 0 || at_ 7 != 0 || at_ 4 / 16 % 8 != 0 then none
  else
    match at_ 2 with
    | 1 => some .sync
    | 2 => some .ready
    | 3 => some .leave
    | _ => none

/-- A block of which every bit is the other: P and N are swapped (R525). -/
def swapBlock (b : LineBlock) : LineBlock := ⟨~~~b.header, ~~~b.payload⟩

/-- Whether the receiver sees P and N swapped, and the training block that it reads with that corrected (R525, R527). -/
def receiveTraining (swapped : Bool) (prev : BitVec 58) (b : LineBlock) : Option (Bool × LState) :=
  let plain : LineBlock := ⟨b.header, (descramble prev b.payload).1⟩
  match readTraining (if swapped then swapBlock plain else plain), readTraining (if swapped then plain else swapBlock plain) with
  | some st, _ => some (swapped, st)
  | none, some st => some (!swapped, st)
  | none, none => none

end Sys2Proof.Machine
end

