-- ==== Sys2Proof/Machine/Crypto.lean ====
section
/-! DEFINITION. The digest functions and public-key operations that the Riffles (R339) and Mandrels (R363) compute, the
Merkle tree of R157, and the key derivations. The manual names the functions by their standards; the standards'
constants and steps are PRESUMED from FIPS 180-4, FIPS 202, FIPS 186-5, SP 800-186 and RFC 2104 (assumption 5). -/
namespace Sys2Proof.Machine
open Sys2Proof

/-! ### SHA-2 (FIPS 180-4)

Words are numbers below 2^w, and m stands for 2^w. A value is worked out before it is used (`strict`), which changes no
result and lets a digest be evaluated in the standard's own order. -/

/-- f of a number that is worked out first. -/
def strict {α : Type} (n : Nat) (f : Nat → α) : α :=
  match n with
  | 0 => f 0
  | k + 1 => f (Nat.succ k)

/-- f of the number that bytes spell, most significant first, after those of v, and of their count, with n bytes before them. -/
def spelled {α : Type} : Bytes → Nat → Nat → (Nat → Nat → α) → α
  | [], v, n, f => f v n
  | b :: r, v, n, f => strict (Nat.add (Nat.mul v 256) b.toNat) fun v => strict (Nat.succ n) fun n => spelled r v n f

/-- n bytes of v, most significant first, before the bytes given. -/
def wordBytes : Nat → Nat → Bytes → Bytes
  | 0, _, r => r
  | n + 1, v, r => wordBytes n (Nat.div v 256) (BitVec.ofNatLT (Nat.mod v 256) (Nat.mod_lt v (by decide)) :: r)

/-- Round constants of SHA-256. -/
def sha256K : List Nat :=
  [0x428A2F98, 0x71374491, 0xB5C0FBCF, 0xE9B5DBA5, 0x3956C25B, 0x59F111F1, 0x923F82A4, 0xAB1C5ED5]
    ++ [0xD807AA98, 0x12835B01, 0x243185BE, 0x550C7DC3, 0x72BE5D74, 0x80DEB1FE, 0x9BDC06A7, 0xC19BF174]
    ++ [0xE49B69C1, 0xEFBE4786, 0x0FC19DC6, 0x240CA1CC, 0x2DE92C6F, 0x4A7484AA, 0x5CB0A9DC, 0x76F988DA]
    ++ [0x983E5152, 0xA831C66D, 0xB00327C8, 0xBF597FC7, 0xC6E00BF3, 0xD5A79147, 0x06CA6351, 0x14292967]
    ++ [0x27B70A85, 0x2E1B2138, 0x4D2C6DFC, 0x53380D13, 0x650A7354, 0x766A0ABB, 0x81C2C92E, 0x92722C85]
    ++ [0xA2BFE8A1, 0xA81A664B, 0xC24B8B70, 0xC76C51A3, 0xD192E819, 0xD6990624, 0xF40E3585, 0x106AA070]
    ++ [0x19A4C116, 0x1E376C08, 0x2748774C, 0x34B0BCB5, 0x391C0CB3, 0x4ED8AA4A, 0x5B9CCA4F, 0x682E6FF3]
    ++ [0x748F82EE, 0x78A5636F, 0x84C87814, 0x8CC70208, 0x90BEFFFA, 0xA4506CEB, 0xBEF9A3F7, 0xC67178F2]

/-- Round constants of SHA-512. -/
def sha512K : List Nat :=
  [0x428A2F98D728AE22, 0x7137449123EF65CD, 0xB5C0FBCFEC4D3B2F, 0xE9B5DBA58189DBBC, 0x3956C25BF348B538]
    ++ [0x59F111F1B605D019, 0x923F82A4AF194F9B, 0xAB1C5ED5DA6D8118, 0xD807AA98A3030242, 0x12835B0145706FBE]
    ++ [0x243185BE4EE4B28C, 0x550C7DC3D5FFB4E2, 0x72BE5D74F27B896F, 0x80DEB1FE3B1696B1, 0x9BDC06A725C71235]
    ++ [0xC19BF174CF692694, 0xE49B69C19EF14AD2, 0xEFBE4786384F25E3, 0x0FC19DC68B8CD5B5, 0x240CA1CC77AC9C65]
    ++ [0x2DE92C6F592B0275, 0x4A7484AA6EA6E483, 0x5CB0A9DCBD41FBD4, 0x76F988DA831153B5, 0x983E5152EE66DFAB]
    ++ [0xA831C66D2DB43210, 0xB00327C898FB213F, 0xBF597FC7BEEF0EE4, 0xC6E00BF33DA88FC2, 0xD5A79147930AA725]
    ++ [0x06CA6351E003826F, 0x142929670A0E6E70, 0x27B70A8546D22FFC, 0x2E1B21385C26C926, 0x4D2C6DFC5AC42AED]
    ++ [0x53380D139D95B3DF, 0x650A73548BAF63DE, 0x766A0ABB3C77B2A8, 0x81C2C92E47EDAEE6, 0x92722C851482353B]
    ++ [0xA2BFE8A14CF10364, 0xA81A664BBC423001, 0xC24B8B70D0F89791, 0xC76C51A30654BE30, 0xD192E819D6EF5218]
    ++ [0xD69906245565A910, 0xF40E35855771202A, 0x106AA07032BBD1B8, 0x19A4C116B8D2D0C8, 0x1E376C085141AB53]
    ++ [0x2748774CDF8EEB99, 0x34B0BCB5E19B48A8, 0x391C0CB3C5C95A63, 0x4ED8AA4AE3418ACB, 0x5B9CCA4F7763E373]
    ++ [0x682E6FF3D6B2B8A3, 0x748F82EE5DEFB2FC, 0x78A5636F43172F60, 0x84C87814A1F0AB72, 0x8CC702081A6439EC]
    ++ [0x90BEFFFA23631E28, 0xA4506CEBDE82BDE9, 0xBEF9A3F7B2C67915, 0xC67178F2E372532B, 0xCA273ECEEA26619C]
    ++ [0xD186B8C721C0C207, 0xEADA7DD6CDE0EB1E, 0xF57D4F7FEE6ED178, 0x06F067AA72176FBA, 0x0A637DC5A2C898A6]
    ++ [0x113F9804BEF90DAE, 0x1B710B35131C471B, 0x28DB77F523047D84, 0x32CAAB7B40C72493, 0x3C9EBE0A15C9BEBC]
    ++ [0x431D67C49C100D4C, 0x4CC5D4BECB3E42B6, 0x597F299CFC657E2A, 0x5FCB6FAB3AD6FAEC, 0x6C44198C4A475817]

/-- Initial hash value of SHA-256. -/
def sha256Init : List Nat :=
  [0x6A09E667, 0xBB67AE85, 0x3C6EF372, 0xA54FF53A, 0x510E527F, 0x9B05688C, 0x1F83D9AB, 0x5BE0CD19]

/-- Initial hash value of SHA-384. -/
def sha384Init : List Nat :=
  [0xCBBB9D5DC1059ED8, 0x629A292A367CD507, 0x9159015A3070DD17, 0x152FECD8F70E5939]
    ++ [0x67332667FFC00B31, 0x8EB44A8768581511, 0xDB0C2E0D64F98FA7, 0x47B5481DBEFA4FA4]

/-- Initial hash value of SHA-512. -/
def sha512Init : List Nat :=
  [0x6A09E667F3BCC908, 0xBB67AE8584CAA73B, 0x3C6EF372FE94F82B, 0xA54FF53A5F1D36F1]
    ++ [0x510E527FADE682D1, 0x9B05688C2B3E6C1F, 0x1F83D9ABFB41BD6B, 0x5BE0CD19137E2179]

/-- Initial hash value of SHA-512/256. -/
def sha512t256Init : List Nat :=
  [0x22312194FC2BF72C, 0x9F555FA3C84C64C2, 0x2393B86B6F53B151, 0x963877195940EABD]
    ++ [0x96283EE2A88EFFE3, 0xBE5E1E2553863992, 0x2B0199FC2C85B8AA, 0x0EB72DDC81C52CA2]

/-- The constants of a hash of the family: bytes in a word, 2^w, bytes in a block and in the length field, the round
constants, and the amounts of its rotations and shifts. -/
structure Sha2Params where
  bytes : Nat
  m : Nat
  block : Nat
  lenBytes : Nat
  k : List Nat
  big0 : Nat × Nat × Nat
  big1 : Nat × Nat × Nat
  small0 : Nat × Nat × Nat
  small1 : Nat × Nat × Nat

/-- SHA-256's parameters. -/
def sha2P32 : Sha2Params := ⟨4, 0x100000000, 64, 8, sha256K, (2, 13, 22), (6, 11, 25), (7, 18, 3), (17, 19, 10)⟩

/-- The parameters of SHA-384, SHA-512 and SHA-512/256. -/
def sha2P64 : Sha2Params :=
  ⟨8, 0x10000000000000000, 128, 16, sha512K, (28, 34, 39), (14, 18, 41), (1, 8, 7), (19, 61, 6)⟩

/-- The sum of three rotations; a rotation of a word is a shift of the word written twice. -/
def sha2Big (m : Nat) (r : Nat × Nat × Nat) (x : Nat) : Nat :=
  let xx := Nat.mul x (Nat.succ m)
  Nat.mod (Nat.xor (Nat.xor (Nat.shiftRight xx r.1) (Nat.shiftRight xx r.2.1)) (Nat.shiftRight xx r.2.2)) m

/-- The sum of two rotations and a shift. -/
def sha2Small (m : Nat) (r : Nat × Nat × Nat) (x : Nat) : Nat :=
  let xx := Nat.mul x (Nat.succ m)
  Nat.xor (Nat.mod (Nat.xor (Nat.shiftRight xx r.1) (Nat.shiftRight xx r.2.1)) m) (Nat.shiftRight x r.2.2)

/-- The rounds that the remaining constants give: w0 to w15 are the next words of the message schedule and a to h the
working variables. Ch is written (f xor g) and e, xor g. -/
def sha2Rounds (p : Sha2Params) : List Nat → (w0 w1 w2 w3 w4 w5 w6 w7 w8 w9 w10 w11 w12 w13 w14 w15 : Nat) →
    (a b c d e f g h : Nat) → List Nat
  | [], _, _, _, _, _, _, _, _, _, _, _, _, _, _, _, _, a, b, c, d, e, f, g, h => [a, b, c, d, e, f, g, h]
  | k :: ks, w0, w1, w2, w3, w4, w5, w6, w7, w8, w9, w10, w11, w12, w13, w14, w15, a, b, c, d, e, f, g, h =>
    strict (Nat.add (Nat.add (Nat.add (Nat.add h (sha2Big p.m p.big1 e)) (Nat.xor (Nat.land (Nat.xor f g) e) g)) k) w0)
      fun t1 =>
    strict (Nat.mod (Nat.add (Nat.add t1 (sha2Big p.m p.big0 a))
      (Nat.xor (Nat.xor (Nat.land a b) (Nat.land a c)) (Nat.land b c))) p.m) fun a1 =>
    strict (Nat.mod (Nat.add d t1) p.m) fun e1 =>
    strict (Nat.mod (Nat.add (Nat.add (Nat.add (sha2Small p.m p.small1 w14) w9) (sha2Small p.m p.small0 w1)) w0) p.m)
      fun x =>
    sha2Rounds p ks w1 w2 w3 w4 w5 w6 w7 w8 w9 w10 w11 w12 w13 w14 w15 x a1 a b c e1 e f g

/-- Word i of a number, from its least significant one. -/
def sha2Word (p : Sha2Params) (v i : Nat) : Nat := Nat.mod (Nat.shiftRight v (Nat.mul i (Nat.mul 8 p.bytes))) p.m

/-- The eight sums that end a block, as one number of eight words. -/
def sha2Sum (m : Nat) : List Nat → List Nat → Nat → Nat
  | x :: xs, y :: ys, v => strict (Nat.add (Nat.mul v m) (Nat.mod (Nat.add x y) m)) fun v => sha2Sum m xs ys v
  | _, _, v => v

/-- The chaining value cv, of eight words, after a block, of sixteen. -/
def sha2Block (p : Sha2Params) (b cv : Nat) : Nat :=
  strict (sha2Word p b 15) fun w0 => strict (sha2Word p b 14) fun w1 => strict (sha2Word p b 13) fun w2 =>
  strict (sha2Word p b 12) fun w3 => strict (sha2Word p b 11) fun w4 => strict (sha2Word p b 10) fun w5 =>
  strict (sha2Word p b 9) fun w6 => strict (sha2Word p b 8) fun w7 => strict (sha2Word p b 7) fun w8 =>
  strict (sha2Word p b 6) fun w9 => strict (sha2Word p b 5) fun w10 => strict (sha2Word p b 4) fun w11 =>
  strict (sha2Word p b 3) fun w12 => strict (sha2Word p b 2) fun w13 => strict (sha2Word p b 1) fun w14 =>
  strict (sha2Word p b 0) fun w15 =>
  strict (sha2Word p cv 7) fun a => strict (sha2Word p cv 6) fun b => strict (sha2Word p cv 5) fun c =>
  strict (sha2Word p cv 4) fun d => strict (sha2Word p cv 3) fun e => strict (sha2Word p cv 2) fun f =>
  strict (sha2Word p cv 1) fun g => strict (sha2Word p cv 0) fun h =>
  sha2Sum p.m [a, b, c, d, e, f, g, h]
    (sha2Rounds p p.k w0 w1 w2 w3 w4 w5 w6 w7 w8 w9 w10 w11 w12 w13 w14 w15 a b c d e f g h) 0

/-- The chaining value after k blocks, the last k of a number. -/
def sha2Blocks (p : Sha2Params) (v : Nat) : Nat → Nat → Nat
  | 0, cv => cv
  | k + 1, cv => strict (sha2Block p (Nat.shiftRight v (Nat.mul k (Nat.mul 8 p.block))) cv) fun cv => sha2Blocks p v k cv

/-- The digest of a whole message (R341): the message, a one, zeros and the count of its bits are a number of k blocks. -/
def sha2Full (p : Sha2Params) (iv : List Nat) (m : Bytes) : Bytes :=
  spelled m 0 0 fun v n =>
  strict (Nat.div (Nat.add n (Nat.add p.lenBytes p.block)) p.block) fun k =>
  strict (Nat.add (Nat.mul (Nat.add (Nat.mul v 256) 0x80) (Nat.pow 256 (Nat.sub (Nat.mul k p.block) (Nat.succ n)))) (Nat.mul 8 n))
    fun w =>
  strict (sha2Blocks p w k (sha2Sum p.m iv (List.replicate 8 0) 0)) fun cv => wordBytes (8 * p.bytes) cv []

/-! ### SHA-3 (FIPS 202) -/

/-- Round constants of Keccak-f[1600] (FIPS 202). -/
def keccakRC : List (BitVec 64) :=
  [0x0000000000000001, 0x0000000000008082, 0x800000000000808A, 0x8000000080008000, 0x000000000000808B]
    ++ [0x0000000080000001, 0x8000000080008081, 0x8000000000008009, 0x000000000000008A, 0x0000000000000088]
    ++ [0x0000000080008009, 0x000000008000000A, 0x000000008000808B, 0x800000000000008B, 0x8000000000008089]
    ++ [0x8000000000008003, 0x8000000000008002, 0x8000000000000080, 0x000000000000800A, 0x800000008000000A]
    ++ [0x8000000080008081, 0x8000000000008080, 0x0000000080000001, 0x8000000080008008]

/-- The lane of the Keccak state at (x, y), held as 25 lanes at x + 5y. -/
def kLane (a : List (BitVec 64)) (x y : Nat) : BitVec 64 := a.getD (x % 5 + 5 * (y % 5)) 0

/-- The rotation offsets of rho, by x + 5y. -/
def keccakRot : List Nat :=
  [0, 1, 62, 28, 27, 36, 44, 6, 55, 20, 3, 10, 43, 25, 39, 41, 45, 15, 21, 8, 18, 2, 61, 56, 14]

/-- One round of Keccak-f[1600]. -/
def keccakRound (a : List (BitVec 64)) (rc : BitVec 64) : List (BitVec 64) :=
  let c := (List.range 5).map fun x => (List.range 5).foldl (fun v y => v ^^^ kLane a x y) 0
  let d := (List.range 5).map fun x => c.getD ((x + 4) % 5) 0 ^^^ (c.getD ((x + 1) % 5) 0).rotateLeft 1
  let th := (List.range 25).map fun i => a.getD i 0 ^^^ d.getD (i % 5) 0
  -- pi moves lane (x, y) to (y, 2x + 3y): the lane at (X, Y) comes from ((X + 3Y) mod 5, X)
  let b := (List.range 25).map fun i =>
    let x := (i % 5 + 3 * (i / 5)) % 5
    let y := i % 5
    (th.getD (x + 5 * y) 0).rotateLeft (keccakRot.getD (x + 5 * y) 0)
  let ch := (List.range 25).map fun i =>
    kLane b (i % 5) (i / 5) ^^^ (~~~ kLane b (i % 5 + 1) (i / 5) &&& kLane b (i % 5 + 2) (i / 5))
  match ch with
  | [] => []
  | l :: r => (l ^^^ rc) :: r

/-- Keccak-f[1600]. -/
def keccakF (a : List (BitVec 64)) : List (BitVec 64) := keccakRC.foldl keccakRound a

/-- The first n bytes of a Keccak state. -/
def keccakOut (a : List (BitVec 64)) (n : Nat) : Bytes := (a.flatMap fun x => leBytes 8 x.toNat).take n

/-- A block of the rate absorbed. -/
def keccakAbsorb (a : List (BitVec 64)) (block : Bytes) : List (BitVec 64) :=
  let ws := (chunksOf 8 block).map fun b => BitVec.ofNat 64 (leVal b)
  keccakF ((List.range 25).map fun i => a.getD i 0 ^^^ ws.getD i 0)

/-- Squeezing n bytes at a rate of r bytes, at most fuel blocks. -/
def keccakSqueeze (r : Nat) : Nat → List (BitVec 64) → Nat → Bytes
  | 0, _, _ => []
  | fuel + 1, a, n =>
    if n ≤ r then keccakOut a n else keccakOut a r ++ keccakSqueeze r fuel (keccakF a) (n - r)

/-- The padding of FIPS 202 for a message of n bytes, with the suffix of the function in its first byte. -/
def keccakPad (r n : Nat) (suffix : Byte) : Bytes :=
  let k := r - n % r
  if k = 1 then [suffix ||| 0x80] else suffix :: zeros (k - 2) ++ [0x80]

/-- A sponge of rate r over a message, giving n bytes. -/
def keccak (r : Nat) (suffix : Byte) (m : Bytes) (n : Nat) : Bytes :=
  let a := (chunksOf r (m ++ keccakPad r m.length suffix)).foldl keccakAbsorb (List.replicate 25 0)
  keccakSqueeze r (n / r + 1) a n

/-! ### The functions of R339 -/

/-- The output length of a hash function; a SHAKE256 job gives its own (R339). -/
def hashLen : HashFn → Nat
  | .sha256 => 32
  | .sha384 => 48
  | .sha512 => 64
  | .sha512t256 => 32
  | .sha3t256 => 32
  | .sha3t384 => 48
  | .shake256 => 32

/-- The block b of R339. -/
def hashBlock : HashFn → Nat
  | .sha256 => 64
  | .sha384 => 128
  | .sha512 => 128
  | .sha512t256 => 128
  | .sha3t256 => 136
  | .sha3t384 => 104
  | .shake256 => 136

/-- A digest of n bytes; n is the function's output length but for SHAKE256 (R339). -/
def hashN (f : HashFn) (m : Bytes) (n : Nat) : Bytes :=
  match f with
  | .sha256 => sha2Full sha2P32 sha256Init m
  | .sha384 => (sha2Full sha2P64 sha384Init m).take 48
  | .sha512 => sha2Full sha2P64 sha512Init m
  | .sha512t256 => (sha2Full sha2P64 sha512t256Init m).take 32
  | .sha3t256 => keccak 136 0x06 m 32
  | .sha3t384 => keccak 104 0x06 m 48
  | .shake256 => keccak 136 0x1F m n

/-- A digest of the function's own output length. -/
def hash (f : HashFn) (m : Bytes) : Bytes := hashN f m (hashLen f)

/-- H of R156: SHA-384 (key, structure and component digests). -/
def sha384 (m : Bytes) : Bytes := hash .sha384 m

/-- SHAKE256 with n bytes of output. -/
def shake256 (m : Bytes) (n : Nat) : Bytes := hashN .shake256 m n

/-- HMAC of RFC 2104 (R339). -/
def hmac (f : HashFn) (key m : Bytes) : Bytes :=
  let k := padTo (if key.length ≤ (hashBlock f) then key else hash f key) (hashBlock f)
  hash f ((k.map (· ^^^ 0x5C)) ++ hash f ((k.map (· ^^^ 0x36)) ++ m))

/-- The expand step of HKDF (RFC 5869) over at most fuel blocks. -/
def hkdfExpandGo (f : HashFn) (prk info : Bytes) : Nat → Nat → Bytes → Bytes
  | 0, _, _ => []
  | fuel + 1, i, prev =>
    let t := hmac f prk (prev ++ info ++ [BitVec.ofNat 8 i])
    t ++ hkdfExpandGo f prk info fuel (i + 1) t

/-- HKDF-Expand giving n bytes. -/
def hkdfExpand (f : HashFn) (prk info : Bytes) (n : Nat) : Bytes :=
  (hkdfExpandGo f prk info (n / (hashLen f) + 1) 1 []).take n

/-- HKDF with a salt. -/
def hkdf (f : HashFn) (salt ikm info : Bytes) (n : Nat) : Bytes := hkdfExpand f (hmac f salt ikm) info n

/-! ### The Merkle tree (R157) -/

/-- H of "Grain manifests": SHA-512/256. -/
def hH (m : Bytes) : Bytes := hash .sha512t256 m

/-- The digest of a leaf (R157). -/
def leafDigest (b : Bytes) : Bytes := hH (0x00 :: b)

/-- The node over some children (R157). -/
def nodeDigest (children : List Bytes) : Bytes := hH (0x01 :: children.flatten)

/-- One level of the tree above another (R157). -/
def levelAbove (d : List Bytes) : List Bytes := (chunksOf 16 d).map nodeDigest

/-- The root over a level, repeating while it has more than one digest. -/
def treeUp : Nat → List Bytes → Bytes
  | 0, d => d.headD []
  | fuel + 1, d => if d.length ≤ 1 then d.headD [] else treeUp fuel (levelAbove d)

/-- The root of a region from its leaf digests; the loop runs at least once (R157). -/
def treeRoot (leaves : List Bytes) : Bytes := treeUp leaves.length (levelAbove leaves)

/-! ### Prime-field curves (R363, R368) -/

/-- A short Weierstrass curve with a = -3. -/
structure CurveParams where
  p : Nat
  b : Nat
  n : Nat
  gx : Nat
  gy : Nat
  size : Nat

/-- The curves of SP 800-186 (PRESUMED, assumption 5). -/
def curveParams : Curve → CurveParams
  | .p256 =>
    { p := 2 ^ 256 - 2 ^ 224 + 2 ^ 192 + 2 ^ 96 - 1
      b := 0x5AC635D8AA3A93E7B3EBBD55769886BC651D06B0CC53B0F63BCE3C3E27D2604B
      n := 0xFFFFFFFF00000000FFFFFFFFFFFFFFFFBCE6FAADA7179E84F3B9CAC2FC632551
      gx := 0x6B17D1F2E12C4247F8BCE6E563A440F277037D812DEB33A0F4A13945D898C296
      gy := 0x4FE342E2FE1A7F9B8EE7EB4A7C0F9E162BCE33576B315ECECBB6406837BF51F5
      size := 32 }
  | .p384 =>
    { p := 2 ^ 384 - 2 ^ 128 - 2 ^ 96 + 2 ^ 32 - 1
      b := 0xB3312FA7E23EE7E4988E056BE3F82D19181D9C6EFE8141120314088F5013875AC656398D8A2ED19D2A85C8EDD3EC2AEF
      n := 0xFFFFFFFFFFFFFFFFFFFFFFFFFFFFFFFFFFFFFFFFFFFFFFFFC7634D81F4372DDF581A0DB248B0A77AECEC196ACCC52973
      gx := 0xAA87CA22BE8B05378EB1C71EF320AD746E1D3B628BA79B9859F741E082542A385502F25DBF55296C3A545E3872760AB7
      gy := 0x3617DE4A96262C6F5D9E98BF9292DC29F8F41DBD289A147CE9DA3113B5F0B8C00A60B1CE1D7E819D7A431D7C90EA0E5F
      size := 48 }
  | .p521 =>
    { p := 2 ^ 521 - 1
      b := 0x0051953EB9618E1C9A1F929A21A0B68540EEA2DA725B99B315F3B8B489918EF109E156193951EC7E937B1652C0BD3BB1BF073573DF883D2C34F1EF451FD46B503F00
      n := 0x1FFFFFFFFFFFFFFFFFFFFFFFFFFFFFFFFFFFFFFFFFFFFFFFFFFFFFFFFFFFFFFFFFA51868783BF2F966B7FCC0148F709A5D03BB5C9B8899C47AEBB6FB71E91386409
      gx := 0x00C6858E06B70404E9CD9E3ECB662395B4429C648139053FB521F828AF606B4D3DBAA14B5E77EFE75928FE1DC127A2FFA8DE3348B3C1856A429BF97E7E31C2E5BD66
      gy := 0x011839296A789A3BC0045C8A5FB42C7D1BD998F54449579B446817AFBD17273E662C97EE72995EF42640C550B9013FAD0761353C7086A272C24088BE94769FD16650
      size := 66 }

/-- b to the power e modulo m, over the low bits of e. -/
def powMod (m b : Nat) : Nat → Nat → Nat → Nat
  | 0, _, acc => acc
  | k + 1, e, acc => powMod m b k e (if e.testBit k then (acc * acc % m) * b % m else acc * acc % m)

/-- b to the power e modulo m. -/
def modExp (m b e : Nat) : Nat := powMod m (b % m) (e.log2 + 1) e (1 % m)

/-- The inverse modulo a prime (Fermat). -/
def modInv (m a : Nat) : Nat := modExp m a (m - 2)

/-- a - b modulo m, for a and b below m. -/
def modSub (m a b : Nat) : Nat := (a + m - b % m) % m

/-- A point; none is the point at infinity. -/
abbrev EcPoint := Option (Nat × Nat)

/-- The sum of two points. -/
def ecAdd (c : CurveParams) : EcPoint → EcPoint → EcPoint
  | none, q => q
  | p, none => p
  | some (x1, y1), some (x2, y2) =>
    if x1 = x2 ∧ (y1 + y2) % c.p = 0 then none
    else
      let l :=
        if x1 = x2 then modSub c.p (3 * x1 * x1 % c.p) 3 * modInv c.p (2 * y1 % c.p) % c.p
        else modSub c.p y2 y1 * modInv c.p (modSub c.p x2 x1) % c.p
      let x3 := modSub c.p (modSub c.p (l * l % c.p) x1) x2
      some (x3, modSub c.p (l * modSub c.p x1 x3 % c.p) y1)

/-- Double and add over the low k bits of e. -/
def ecMulGo (c : CurveParams) (p : EcPoint) : Nat → Nat → EcPoint → EcPoint
  | 0, _, acc => acc
  | k + 1, e, acc =>
    let d := ecAdd c acc acc
    ecMulGo c p k e (if e.testBit k then ecAdd c d p else d)

/-- A multiple of a point. -/
def ecMul (c : CurveParams) (e : Nat) (p : EcPoint) : EcPoint := ecMulGo c p (e.log2 + 1) e none

/-- The point lies on the curve. -/
def ecOn (c : CurveParams) (x y : Nat) : Bool :=
  y * y % c.p == (x * x % c.p * x + (c.p - 3) * x + c.b) % c.p

/-- The integer that a hash value contributes: its leftmost bits where it is longer than n (R363). -/
def ecHashInt (c : CurveParams) (h : Bytes) : Nat :=
  beVal h >>> (8 * h.length - (c.n.log2 + 1))

/-- ECDSA verification with the results and their order of R368 and R369. -/
def ecdsaVerify (cv : Curve) (q r s h : Bytes) : Res :=
  let c := curveParams cv
  let x := beVal (q.take c.size)
  let y := beVal (q.drop c.size)
  let rv := beVal r
  let sv := beVal s
  if c.p ≤ x ∨ c.p ≤ y ∨ rv = 0 ∨ c.n ≤ rv ∨ sv = 0 ∨ c.n ≤ sv then .outOfRange
  else if x = 0 ∧ y = 0 then .badPoint
  else if !ecOn c x y then .badPoint
  else
    let w := modInv c.n sv
    let u1 := ecHashInt c h % c.n * w % c.n
    let u2 := rv * w % c.n
    match ecAdd c (ecMul c u1 (some (c.gx, c.gy))) (ecMul c u2 (some (x, y))) with
    | none => .badSignature
    | some (rx, _) => if rx % c.n = rv then .done else .badSignature

/-- A private key from a seed (R289, R371). -/
def ecScalar (cv : Curve) (seed : Bytes) : Nat := beVal seed % ((curveParams cv).n - 1) + 1

/-- The public key X then Y of a private key (R363). -/
def ecPublic (cv : Curve) (d : Nat) : Bytes :=
  let c := curveParams cv
  match ecMul c d (some (c.gx, c.gy)) with
  | none => zeros (2 * c.size)
  | some (x, y) => beBytes c.size x ++ beBytes c.size y

/-- ECDSA signing with a nonce seed (R371); none where r or s comes out as zero. -/
def ecdsaSign (cv : Curve) (d : Nat) (h seed : Bytes) : Option Bytes :=
  let c := curveParams cv
  let k := ecScalar cv seed
  match ecMul c k (some (c.gx, c.gy)) with
  | none => none
  | some (x, _) =>
    let r := x % c.n
    let s := modInv c.n k * ((ecHashInt c h + r * d) % c.n) % c.n
    if r = 0 ∨ s = 0 then none else some (beBytes c.size r ++ beBytes c.size s)

/-- ECDH on P-384 (R363, R368). -/
def ecdh (d : Nat) (q : Bytes) : Except Res Bytes :=
  let c := curveParams .p384
  let x := beVal (q.take c.size)
  let y := beVal (q.drop c.size)
  if c.p ≤ x ∨ c.p ≤ y ∨ d = 0 ∨ c.n ≤ d then .error .outOfRange
  else if (x = 0 ∧ y = 0) ∨ !ecOn c x y then .error .badPoint
  else match ecMul c d (some (x, y)) with
    | none => .error .badPoint
    | some (zx, _) => .ok (beBytes c.size zx)

/-- RSA verification: EM = s^65537 mod N (R366, R368). -/
def rsaVerify (n s : Bytes) : Except Res Bytes :=
  let nv := beVal n
  let sv := beVal s
  if nv % 2 = 0 ∨ n.headD 0 = 0 ∨ sv = 0 ∨ nv ≤ sv then .error .outOfRange
  else .ok (beBytes n.length (modExp nv sv 65537))

/-! ### Lattice operations (assumption 6) and LMS -/

/-- A parameter set of FIPS 204: the bytes of c̃, l, k, beta and omega. γ1 is 2^19 in both. -/
structure MldsaSet where
  cBytes : Nat
  l : Nat
  k : Nat
  beta : Nat
  omega : Nat

def mldsaSet (set : Nat) : MldsaSet := if set = 65 then ⟨48, 5, 6, 196, 55⟩ else ⟨64, 7, 8, 120, 75⟩

/-- No coefficient of z, packed as γ1 - z in 20 bits each, has magnitude γ1 - beta or more (R368). -/
def mldsaZOk (beta : Nat) : Nat → Bytes → Bool
  | 0, _ => true
  | n + 1, b =>
    let v := leVal (b.take 5)
    let ok := fun (x : Nat) => decide (beta < x) && decide (x < 2 ^ 20 - beta)
    ok (v % 2 ^ 20) && ok (v / 2 ^ 20) && mldsaZOk beta n (b.drop 5)

/-- The indices of a hint polynomial are strictly ascending. -/
def ascending : Bytes → Bool
  | a :: b :: t => decide (a.toNat < b.toNat) && ascending (b :: t)
  | _ => true

/-- The hint encoding: the ends of the k polynomials do not fall and stay within omega, the indices of each ascend strictly, and
what stands behind the last is zero (R368). -/
def mldsaHintOk (h : Bytes) (omega : Nat) : Nat → Nat → Bool
  | 0, _ => true
  | k + 1, lo =>
    let at_ := h.length - (k + 1)
    let hi := (h.getD at_ 0).toNat
    decide (lo ≤ hi) && decide (hi ≤ omega) && ascending (slice h lo (hi - lo))
      && (k != 0 || (slice h hi (omega - hi)).all fun x => x == 0) && mldsaHintOk h omega k hi

/-- z and the hint of a signature are valid encodings (R368). -/
def mldsaFormOk (set : Nat) (sig : Bytes) : Bool :=
  let p := mldsaSet set
  mldsaZOk p.beta (p.l * 128) (slice sig p.cBytes (p.l * 640))
    && mldsaHintOk (sig.drop (p.cBytes + p.l * 640)) p.omega p.k 0

/-- ML-DSA verification on mu (R363, R368): the encodings of z and of the hint, and the reproduction of c̃. -/
def mldsaVerify (set : Nat) (pk mu sig : Bytes) : Res :=
  if mldsaFormOk set sig && Config.mldsaVerify set pk mu sig then .done else .badSignature

/-- mu of the pure form with an empty context string (R367). -/
def mldsaMu (pk m : Bytes) : Bytes := shake256 (shake256 pk 64 ++ [0, 0] ++ m) 64

/-- The ML-DSA-87 public key of a seed (R289), 2,592 bytes. -/
def mldsaPublic (seed : Bytes) : Bytes := (List.range 2592).map (Config.mldsaPublic seed)

/-- An ML-DSA-87 signature of 4,627 bytes by the key of a seed, with fresh rnd (R367, R372). -/
def mldsaSign (seed mu : Bytes) (draw : Nat) : Bytes := (List.range 4627).map (Config.mldsaSign seed mu draw)

/-- The hash of an LMS parameter set (R166, R358): SHA-256 or SHAKE256 with 32 bytes of output. -/
def lmsHash (shake : Bool) (m : Bytes) : Bytes := if shake then shake256 m 32 else hash .sha256 m

/-- LMS typecodes of R166 as SP 800-208 numbers them (PRESUMED): height and hash. -/
def lmsType (t : Nat) : Option (Nat × Bool) :=
  match t with
  | 6 => some (10, false)
  | 7 => some (15, false)
  | 8 => some (20, false)
  | 9 => some (25, false)
  | 0x10 => some (10, true)
  | 0x11 => some (15, true)
  | 0x12 => some (20, true)
  | 0x13 => some (25, true)
  | _ => none

/-- LM-OTS typecodes of R166 as SP 800-208 numbers them (PRESUMED): w, p, checksum shift and hash. -/
def lmotsType (t : Nat) : Option (Nat × Nat × Nat × Bool) :=
  match t with
  | 3 => some (4, 67, 4, false)
  | 4 => some (8, 34, 0, false)
  | 0x0B => some (4, 67, 4, true)
  | 0x0C => some (8, 34, 0, true)
  | _ => none

/-- The Winternitz coefficient i of a string. -/
def lmsCoef (s : Bytes) (i w : Nat) : Nat := (s.getD (i * w / 8) 0).toNat >>> (8 - w * (i % (8 / w) + 1)) % 2 ^ w

/-- Steps of one LM-OTS chain from j on (R357). -/
def lmsChain (shake : Bool) (iq : Bytes) (i : Nat) : Nat → Nat → Bytes → Bytes
  | 0, _, y => y
  | fuel + 1, j, y => lmsChain shake iq i fuel (j + 1) (lmsHash shake (iq ++ beBytes 2 i ++ beBytes 1 j ++ y))

/-- The ends of k LM-OTS chains from number i on, whose values stand in y, for the coefficients of a digest with its checksum
(R357). -/
def lmsEnds (shake : Bool) (iq full : Bytes) (w : Nat) : Nat → Nat → Bytes → Bytes
  | 0, _, _ => []
  | k + 1, i, y =>
    let a := lmsCoef full i w
    lmsChain shake iq i (2 ^ w - 1 - a) a (y.take 32) ++ lmsEnds shake iq full w k (i + 1) (y.drop 32)

/-- An OTS job (R357, R359): the candidate K_c, or the length result of a signature that delivers more or fewer chain values than
the parameter set has. -/
def otsJob (shake : Bool) (iq full : Bytes) (w p : Nat) (y : Bytes) : Except Res Bytes :=
  if y.length < 32 * p then .error .lengthShort
  else if 32 * p < y.length then .error .lengthLong
  else .ok (lmsHash shake (iq ++ [0x80, 0x80] ++ lmsEnds shake iq full w p 0 y))

/-- The path from a leaf to the root (R358). -/
def lmsPath (shake : Bool) (ident : Bytes) : Nat → Nat → Bytes → Bytes → Bytes
  | 0, _, tmp, _ => tmp
  | fuel + 1, node, tmp, path =>
    let sib := path.take 32
    let m := ident ++ beBytes 4 (node / 2) ++ [0x83, 0x83] ++ (if node % 2 = 1 then sib ++ tmp else tmp ++ sib)
    lmsPath shake ident fuel (node / 2) (lmsHash shake m) (path.drop 32)

/-- The length of an LMS signature from its first bytes: q, LM-OTS type, C, p values, LMS type, path. Its sets are of one hash
(R166). -/
def lmsSigLen (sig : Bytes) : Option Nat :=
  match lmotsType (beVal (slice sig 4 4)) with
  | none => none
  | some (_, p, _, shake) =>
    match lmsType (beVal (slice sig (40 + 32 * p) 4)) with
    | none => none
    | some (h, shake2) => if shake == shake2 then some (44 + 32 * p + 32 * h) else none

/-- Verification of one LMS level against a public key of 56 bytes (R357, R358). -/
def lmsVerify (pub msg sig : Bytes) : Bool :=
  match lmsType (beVal (slice pub 0 4)), lmotsType (beVal (slice pub 4 4)) with
  | some (h, shake), some (w, p, ls, shake2) =>
    let ident := slice pub 8 16
    let q := beVal (slice sig 0 4)
    let iq := ident ++ slice sig 0 4
    let c := slice sig 8 32
    let qd := lmsHash shake (iq ++ [0x81, 0x81] ++ c ++ msg)
    let sum := (List.range (256 / w)).foldl (fun a i => a + (2 ^ w - 1 - lmsCoef qd i w)) 0
    let full := qd ++ beBytes 2 (sum * 2 ^ ls)
    shake == shake2 && slice sig 4 4 == slice pub 4 4 && slice sig (40 + 32 * p) 4 == slice pub 0 4 && decide (q < 2 ^ h)
      && (match otsJob shake iq full w p (slice sig 40 (sig.length - 44 - 32 * h)) with
      | .error _ => false
      | .ok kc =>
        let leaf := lmsHash shake (ident ++ beBytes 4 (2 ^ h + q) ++ [0x82, 0x82] ++ kc)
        lmsPath shake ident h (2 ^ h + q) leaf (sig.drop (44 + 32 * p)) == slice pub 24 32)
  | _, _ => false

/-- HSS verification with 1 or 2 levels (R166, R358). -/
def hssVerify (pub msg sig : Bytes) : Bool :=
  let levels := beVal (slice pub 0 4)
  let nspk := beVal (slice sig 0 4)
  if levels = 1 ∧ nspk = 0 then lmsVerify (pub.drop 4) msg (sig.drop 4)
  else if levels = 2 ∧ nspk = 1 then
    match lmsSigLen (sig.drop 4) with
    | none => false
    | some n =>
      let pub1 := slice sig (4 + n) 56
      lmsVerify (pub.drop 4) pub1 (slice sig 4 n) && lmsVerify pub1 msg (sig.drop (60 + n))
  else false

/-- The parameter sets of an LMS public key lie in the list of R166, with LM-OTS of the same hash. -/
def lmsSetsOk (pub : Bytes) : Bool :=
  match lmsType (beVal (slice pub 0 4)), lmotsType (beVal (slice pub 4 4)) with
  | some (_, a), some (_, _, _, b) => a == b
  | _, _ => false

/-- An HSS key of 1 or 2 levels, whose parameter sets lie in the list of R166. -/
def hssKeyOk (pub : Bytes) : Bool :=
  pub.length == 60 && (beVal (slice pub 0 4) == 1 || beVal (slice pub 0 4) == 2) && lmsSetsOk (pub.drop 4)

/-- An HSS signature for a key of the given levels is well formed: the sets of every level lie in the list of R166, and its
length is the one that they give. -/
def hssSigOk (levels : Nat) (sig : Bytes) : Bool :=
  if beVal (slice sig 0 4) + 1 != levels then false
  else
    match levels, lmsSigLen (sig.drop 4) with
    | 1, some n => sig.length == 4 + n
    | 2, some n => lmsSetsOk (slice sig (4 + n) 56) && (lmsSigLen (sig.drop (60 + n))).any fun m => sig.length == 60 + n + m
    | _, _ => false

end Sys2Proof.Machine
end

