-- ==== Sys2Proof/Machine/State.lean ====
section
/-! DEFINITION. The state of Virund as plain data, with the reasons a command can stop and the state after reset.
Each field's docstring names the rule of spec/ that gives it and its reset value. "DC 7" marks a reset value that the
manual does not give and that assumption 7 chooses. -/
namespace Sys2Proof.Machine

/-! ### Lanes -/

/-- A rule entry in force (R84). -/
structure RuleEntry where
  base : Nat
  len : Nat
  access : Access
  action : MisAction
  priority : Nat
  region : Nat
  logDeny : Bool
  stageErase : Bool
  window : Fin 8
deriving DecidableEq, Repr, Inhabited

/-- A lane configuration record (R34). -/
structure LaneCfg where
  enable : Bool
  hostCs1 : Bool
  flashCs1 : Bool
  mailbox : Bool
  modeMask : BitVec 8
  fmax : Nat
  opWrite : Byte
  opRead : Byte
  opStatus : Byte
  jedec : Bytes
  host0 : Nat
  host1 : Nat
  flash0 : Nat
  flash1 : Nat
deriving DecidableEq, Repr, Inhabited

/-- A lane verification record (R112). -/
structure VerifyRec where
  scrubPeriod : Nat
  partialTimeout : Nat
  autoRelease : Bool
  pinPages : Bool
  resPref : Sel
deriving DecidableEq, Repr, Inhabited

/-- A remap window (R51). -/
structure Remap where
  base : Nat
  len : Nat
  targetA : Nat
  targetB : Nat
deriving DecidableEq, Repr, Inhabited

/-- A lane policy with its fields read out (R410). -/
structure LanePolicy where
  lane : Nat
  secVersion : Nat
  counter : Nat
  cfg : LaneCfg
  verify : VerifyRec
  remap : Vector Remap 8
  rules : List RuleEntry
deriving DecidableEq, Repr, Inhabited

/-- A region descriptor (R153). -/
structure Region where
  base : Nat
  len : Nat
  leafUnits : Nat
  leafCount : Nat
  root : Bytes
deriving DecidableEq, Repr, Inhabited

/-- A host manifest with its fields read out (R151 to R153). -/
structure HostManifest where
  secVersion : Nat
  counter : Nat
  target : Nat
  manifestId : Dword
  span : Nat
  regions : List Region
deriving DecidableEq, Repr, Inhabited

/-- The state of one leaf (R110). -/
structure LeafState where
  flash : FlashState
  mirrorValid : Bool
deriving DecidableEq, Repr, Inhabited

/-- A leaf of a lane: its region and its index. -/
structure LeafRef where
  region : Nat
  leaf : Nat
deriving DecidableEq, Repr, Inhabited

/-- A leaf tracker (R119 to R123, R130, R131): its state, its leaf, the captured bytes by offset, the Reservoir that served
any of them, the tick of the last capture, whether it was filled, and whether its fill met a read fault. -/
structure Tracker where
  st : TrackState
  region : Nat
  leaf : Nat
  data : List Host.Cell
  res : Option Sel
  lastCapture : Nat
  filled : Bool
  fault : Bool
  order : Nat
deriving DecidableEq, Repr, Inhabited

/-- A leaf that waits for its confirmation reads (R130): how it was found, whether a read fault found it, the read that
found it where that is the first confirmation read, the rule's action, whether the leaf was not yet BAD or ERROR, and
whether a ring-log entry of the mismatch waits for its cause. -/
structure Confirm where
  leaf : LeafRef
  foundBy : Nat
  fault : Bool
  firstRead : Option Bytes
  action : MisAction
  fresh : Bool
  logged : Bool
deriving DecidableEq, Repr, Inhabited

/-- A page of leaf digests in the manifest cache (R113, R116): its lane, its region, its index, and the 512-byte slot of the
24 MiB that it occupies. -/
structure CachePage where
  lane : Fin 8
  region : Nat
  page : Nat
  slot : Nat
deriving DecidableEq, Repr, Inhabited

/-- A flash chip select of a lane (R63, R66, R38, R46). -/
structure FlashChip where
  st : ChipState
  suspended : Bool
  suspendSent : Bool
  wip : Bool
  wel : Bool
  restorePending : Bool
deriving DecidableEq, Repr, Inhabited

/-- What the lane last drove on its flash-side port: a host command that it repeats, with the flash chip select, the byte
address within the chip, the byte driven in every mode-bit cycle of a read, and the data (R26, R36, R52); a command that
it cut, with the cycle in whose place FP_CS_N rose (R37, R43, R45); a command without an address to the chips it selects
together, with its data (R600); or a command of the lane's own (R46, R67). -/
inductive FpAct where
  | idle
  | forwarded (kind : FwdKind) (op : Byte) (addr : Option (Fin 2 × Nat)) (modeBits : Option Byte) (data : Bytes)
  | truncated (op : Byte) (phase : CutPhase)
  | broadcast (op : Byte) (chips : List (Fin 2)) (data : Bytes)
  | own (op : Byte) (chips : List (Fin 2))
deriving DecidableEq, Repr, Inhabited

/-- A rule-set replacement that waits for its swap (R101 to R104). -/
structure PendingSet where
  policy : LanePolicy
  policyBytes : Bytes
  manifest : Option (Bytes × HostManifest)
  manifestOp : Option Word
  opId : Option Word
  geometry : Bool
  drained : Bool
deriving DecidableEq, Repr, Inhabited

/-- A spare takeover in progress (R76 to R80): the spare, the engine it replaces, whether step 4 has been reached. -/
structure Takeover where
  spare : Fin 10
  replaced : Fin 10
  hashing : Bool
deriving DecidableEq, Repr, Inhabited

/-- Platform verification in progress on a lane (R198). -/
structure PvState where
  active : Bool
  accepted : Bool
  startTick : Nat
  done : List Nat
  unproved : Bool
  keepMirrored : Bool
  fillsFromReservoir : Bool
  caseRow : Nat
  /-- R198: the accepted rule set, in use provisionally until the swap of step 6. Reset: none. -/
  rules : Option (List RuleEntry)
  /-- R197: verification mode and its rate in kB/s for each flash chip. Reset: 1S-1S-1S, 0. -/
  modes : Vector (Proto × Nat) 2
  /-- R207: a spare has taken over during the verification. Reset: false. -/
  tookOver : Bool
  /-- R347: leaves whose digest job has ended twice with a length result, so that they count as read with a fault. Reset: none. -/
  unread : List LeafRef
deriving DecidableEq, Repr, Inhabited

/-- Rate limiting of the RULE_DENY entries of one rule (R100). -/
structure DenyLog where
  rule : Nat
  lastTick : Nat
  unlogged : Nat
deriving DecidableEq, Repr, Inhabited

/-- The counters of R98 and R150. -/
structure LaneCounts where
  defaultHits : Nat
  stageCaptured : Nat
  stageRefusedFull : Nat
  lookupDisagree : Nat
  leavesVerified : Nat
  mismatches : Nat
  partialFills : Nat
  flashChecks : Nat
  scrubLeaves : Nat
  scrubOverruns : Nat
  redirectUnits : Nat
  uncapturedDrops : Nat
deriving DecidableEq, Repr, Inhabited

/-- The mailbox of a lane's port (R68 to R71, R391, R392). -/
structure Mailbox where
  /-- R68, R599: inbound bytes that no whole frame has left with. Reset: empty. -/
  inBuf : Bytes
  /-- R599: how many of the leading inbound bytes the Spindle has taken, so that they fill the buffer no more. Reset: 0. -/
  taken : Nat
  /-- R68, R396: outbound bytes waiting, of which at most 4,096 stand in the buffer. Reset: empty. -/
  outBuf : Bytes
  /-- R71: DISCARD_COUNT. Reset: 0. -/
  discardCount : Byte
  /-- R71: SERVICE_PAUSED. Reset: 1. -/
  paused : Bool
  /-- R392: the port is in DISCARD. Reset: false. -/
  discard : Bool
  /-- R392: zero bytes seen in a row while in DISCARD. Reset: 0. -/
  zeroRun : Nat
  /-- R391: bytes of the frame in the buffer were discarded under R69. Reset: false. -/
  lost : Bool
deriving DecidableEq, Repr, Inhabited

/-- One lane port with the lane engine's state for it. -/
structure Lane where
  /-- R34, R107: configuration record in force. Reset: the default configuration of R107. -/
  cfg : LaneCfg
  /-- R112: verification record in force. Reset: DC 7 the defaults of R112. -/
  verify : VerifyRec
  /-- R51: remap windows in force. Reset: unused (R107). -/
  remap : Vector Remap 8
  /-- R84: rule entries in force. Reset: none (R84, R107). -/
  rules : List RuleEntry
  /-- R97: HIT_COUNT per rule, 48 bits each. Reset: 0. -/
  hits : List Nat
  /-- R99: HIT_COUNT of the previous set. Reset: none. -/
  prevHits : List Nat
  /-- R98, R150: the lane's counters, 48 bits each. Reset: 0. -/
  counts : LaneCounts
  /-- R105: DENY_ALL cause "POR, CHIP or LANE reset". Reset: true. -/
  denyReset : Bool
  /-- R105, R107: DENY_ALL cause "No lane policy". Reset: true (R107). -/
  denyNoPolicy : Bool
  /-- R105, R508: DENY_ALL cause "Owner command", kept in NVM. Reset: DC 7 false. -/
  denyOwner : Bool
  /-- R105, R83: DENY_ALL cause "Lane-engine fault with no free spare". Reset: false. -/
  denyEngine : Bool
  /-- R105, R446: DENY_ALL cause "Weir safe state". Reset: false. -/
  denySafe : Bool
  /-- R31: protocol mode of host chip selects 0 and 1. Reset: DC 7 1S-1S-1S. -/
  mode : Vector Proto 2
  /-- R31: 4-byte addressing of host chip selects 0 and 1. Reset: DC 7 false. -/
  addr4 : Vector Bool 2
  /-- R62, R38: power-on mode and 4-byte addressing of each flash chip. Reset: DC 8 1S-1S-1S, 3 bytes. -/
  powerOn : Vector (Proto × Bool) 2
  /-- R59, R35, R37: the tables of each flash chip as the Spindle last read them. Reset: DC 8 empty. -/
  flash : Vector FlashTables 2
  /-- R37: commands of a mode-switch sequence matched so far on each host chip select. Reset: none. -/
  switchSeen : Vector (List Bytes) 2
  /-- R63, R66: the flash chip selects. Reset: HOST, WIP 0, WEL 0 (DC 7 for the shadow). -/
  chips : Vector FlashChip 2
  /-- R207: a flash chip select that does not answer. Reset: DC 8 false. -/
  chipAbsent : Vector Bool 2
  /-- R59: a synthesised SFDP image exists. Reset: false. -/
  sfdp : Bool
  /-- R564: FPn_RST_N has been driven high at step 1 of R198. Reset: false. -/
  rstHigh : Bool
  /-- R46: flash chip selects to which a WRDI is owed. Reset: none. -/
  wrdi : List (Fin 2)
  /-- R71: SERVING_ENGINE. Reset: the lane's own engine. -/
  engine : Fin 10
  /-- R79: the Riffle that hashes for the lane, none while shadow hashing is withdrawn. Reset: Riffle[n]. -/
  riffle : Option (Fin 32)
  /-- R76: takeover in progress. Reset: none. -/
  takeover : Option Takeover
  /-- R75: a table word is damaged and its table waits for a rewrite. Reset: false. -/
  tableBad : Bool
  /-- R101, R103: pending rule-set replacement. Reset: none. -/
  pending : Option PendingSet
  /-- R177: active host manifest as read. Reset: none. -/
  manifest : Option HostManifest
  /-- R146, R409: a manifest replacement that waits for its drain, with its operation. Reset: none. -/
  nextManifest : Option (Bytes × HostManifest × Word)
  /-- R156, R409: regions of a replaced manifest still to be verified, with the operation that ends with them. Reset:
  none. -/
  proving : List Nat
  provingOp : Option Word
  /-- R110: leaf state map, one list per region. Reset: none. -/
  leaves : List (List LeafState)
  /-- R113, R114: proved leaf digests, `none` where the page is not resident. Reset: none. -/
  digests : List (List (Option Bytes))
  /-- R113: level-1 nodes of each region (tree top). Reset: none. -/
  level1 : List (List Bytes)
  /-- R119 to R123: leaf trackers. Reset: FREE. -/
  trackers : Vector Tracker 64
  /-- R120, R124: the number of the next completion, which orders QUEUED trackers. Reset: 0. -/
  nextOrder : Nat
  /-- R129: queued flash checks, at most 256, oldest first. Reset: none. -/
  flashChecks : List LeafRef
  /-- R130: leaves that wait for confirmation reads. Reset: none. -/
  confirms : List Confirm
  /-- R135, R137: leaves that wait for a mirror fill. Reset: none. -/
  fills : List LeafRef
  /-- R260: the fills that follow a PENDING flip have not ended, and the lane has not completed again. Reset: false. -/
  refill : Bool
  /-- R115: pages requested and not yet read, as region and page, oldest first. Reset: none. -/
  pageReqs : List (Nat × Nat)
  /-- R139: the lane wants a Reservoir claim. Reset: false. -/
  claimWanted : Bool
  /-- R147, R149: position among the lane's leaves at which each visit of the scrub begins. Reset: 0. -/
  scrubFirst : Nat
  /-- R147: leaves that the visit of this period has passed. Reset: 0. -/
  scrubAt : Nat
  /-- R147, R149: slow tick at which the scrub period began. Reset: 0. -/
  scrubStart : Nat
  /-- R147, R148: leaves verified since the scrub period began. Reset: none. -/
  scrubbed : List LeafRef
  /-- R148: leaves whose next scheduled scrub is skipped, as shadow hashing or a flash check has verified them. Reset:
  none. -/
  skipNext : List LeafRef
  /-- R202: outcome of platform verification. Reset: none. -/
  outcome : Option Outcome5
  /-- R198: platform verification in progress. Reset: none. -/
  pv : PvState
  /-- R100: rate limiting of RULE_DENY entries. Reset: none. -/
  denyLog : List DenyLog
  /-- R132: tick of the last LOG entry per leaf. Reset: none. -/
  leafLog : List (LeafRef × Nat)
  /-- R404, R418: operation of a LANE_RESET whose verification runs. Reset: none. -/
  resetOp : Option Word
  /-- R276: leaves under repair by REPAIR_LANE, with its operation. Reset: none. -/
  repairOp : Option Word
  /-- R276: leaves that REPAIR_LANE has still to repair. Reset: none. -/
  repairLeft : List LeafRef
  /-- R523: LANE_EPOCH. Reset: 0. -/
  epoch : Byte
  /-- R68 to R71: the port's mailbox. Reset: see Mailbox. -/
  mb : Mailbox
  /-- R27, R60, R68: dummy cycles before the first data byte of the last host transaction. Reset: 0. -/
  wait : Nat
  /-- R47, R49: data bytes of the last host transaction, none for high impedance. Reset: none. -/
  rsp : Option Bytes
  /-- R26, R43: the last flash-side action. Reset: idle. -/
  fp : FpAct
deriving DecidableEq, Repr, Inhabited

/-! ### Mirror memory, staging buffer and Reservoirs -/

/-- A mirrored leaf's extent and bytes (R135, R601). -/
structure MirrorLeaf where
  lane : Fin 8
  leaf : LeafRef
  bank : Nat
  offset : Nat
  size : Nat
  bytes : Bytes
deriving DecidableEq, Repr, Inhabited

/-- A staged unit (R91): lane, window, offset within the window, its 4,096 bytes, and whether a Stolik transfer
wrote it. -/
structure StagedUnit where
  lane : Fin 8
  window : Fin 8
  k : Nat
  bytes : Bytes
  chunk : Bool
deriving DecidableEq, Repr, Inhabited

/-- A lane entry or set entry of a Reservoir directory with what it points to (R270): for a lane the host manifest with its
region roots, the leaf-digest file as Virund wrote it (R179, R271), and where the shadows lie. -/
structure DirEntry where
  isSet : Bool
  index : Nat
  state : DirState
  generation : Nat
  manifest : Bytes
  roots : List Bytes
  shadow0 : Word
  shadow1 : Word
  digestOff : Word
  digestLen : Word
  file : Bytes
  areaOff : Word
  comps : List (Bytes × Bytes)
deriving DecidableEq, Repr, Inhabited

/-- A claim on a Reservoir port (R139): the lane, and whether it is in effect. -/
structure Claim where
  lane : Fin 8
  inEffect : Bool
deriving DecidableEq, Repr, Inhabited

/-- One Reservoir port and its flash (R131, R138, R139, R270 to R273). -/
structure Reservoir where
  /-- R214, R568: a flash answers. Reset: DC 8 false. -/
  present : Bool
  /-- R431: the port is held in reset. Reset: false. -/
  held : Bool
  /-- R564: RST_N has been driven high at the first access. Reset: false. -/
  rstHigh : Bool
  /-- R270: SEQ of the intact directory copy. Reset: DC 8 0. -/
  seq : Nat
  /-- R270: directory entries. Reset: DC 8 none. -/
  dir : List DirEntry
  /-- R270: the two directory copies as bytes, of which the intact one with the greater SEQ holds `seq` and `dir`. Reset:
  DC 8 zero. -/
  copies : Vector Bytes 2
  /-- R131: defect list, at most 256 entries. Reset: empty. -/
  defects : List (Fin 8 × LeafRef)
  /-- R131: regions withdrawn from this Reservoir. Reset: none. -/
  withdrawn : List (Fin 8 × Nat)
  /-- R139: claim. Reset: none. -/
  claim : Option Claim
  /-- R271: entry that is being refreshed (its position in the directory). Reset: none. -/
  refreshing : Option Nat
  /-- R273: the write in progress is suspended for a claim. Reset: false. -/
  suspended : Bool
  /-- R141: protocol mode that Virund has set on the flash. Reset: DC 8 1S-1S-1S. -/
  mode : Proto
  /-- R141: 4-byte addressing of the flash. Reset: DC 8 false. -/
  addr4 : Bool
  /-- R141: dummy cycles set on the flash. Reset: DC 8 0. -/
  dummy : Nat
  /-- R141: the flash's bank address register, in units of 16 MiB. Reset: DC 8 0. -/
  bankReg : Nat
  /-- R140: the last host command replayed to the flash, as opcode and byte address. Reset: none. -/
  replay : Option (Byte × Nat)
deriving DecidableEq, Repr, Inhabited

/-! ### Chuck -/

/-- OUT_CFG (R223). -/
structure OutCfg where
  drive : BitVec 2
  activeLow : Bool
  role : BitVec 2
  hardHold : Bool
  pgFail : Scope
  pgSrc : Option PgSrc
  host : Option (Fin 16)
deriving DecidableEq, Repr, Inhabited

/-- IN_CFG (R224). -/
structure InCfg where
  kind : BitVec 2
  activeLow : Bool
  pullUp : Bool
  debounce : Nat
  wake : Bool
deriving DecidableEq, Repr, Inhabited

/-- MON_CFG (R225). -/
structure MonCfg where
  range : BitVec 3
  enable : Bool
  filter : Nat
  monFail : Scope
  armAtStart : Bool
  low : Nat
  high : Nat
deriving DecidableEq, Repr, Inhabited

/-- HOST_CFG (R226). -/
structure HostCfg where
  laneMask : BitVec 8
  resetOut : Nat
deriving DecidableEq, Repr, Inhabited

/-- Operation codes of R227. -/
inductive OpCode where
  | assert | deassert | pulse | delay | waitPg | waitIn | ifPresent | releaseHost | platSync
deriving DecidableEq, Repr, Inhabited

/-- An operation of the program (R227). -/
structure SeqOp where
  code : OpCode
  pin : Nat
  host : Option (Fin 16)
  value : Nat
deriving DecidableEq, Repr, Inhabited

/-- A step of the program (R227). -/
structure SeqStep where
  laneMask : BitVec 8
  ops : List SeqOp
deriving DecidableEq, Repr, Inhabited

/-- A platform policy with its fields read out (R222). -/
structure PlatPolicy where
  secVersion : Nat
  counter : Nat
  follow : Bool
  autoRetain : Bool
  downGap : Nat
  offTime : Nat
  deepAfter : Nat
  hostCount : Nat
  outs : Vector OutCfg 64
  ins : Vector InCfg 64
  mons : Vector MonCfg 32
  hosts : Vector HostCfg 16
  steps : List SeqStep
deriving DecidableEq, Repr, Inhabited

/-- A host's hold word (R241). -/
structure HoldWord where
  program : Bool
  mismatch : Bool
  power : Bool
  owner : Bool
  hard : Bool
  laneMask : BitVec 8
  resetOut : Byte
  reseqCount : Byte
deriving DecidableEq, Repr, Inhabited

/-- A position in a run of the program: the step, the operation, whether the step's start condition has been met,
whether the operation waits, operations still to skip under IF_PRESENT, and the hosts whose operations of the step are
skipped after a timeout (R205, R227, R230). -/
structure SeqPos where
  step : Nat
  op : Nat
  started : Bool
  waiting : Bool
  skip : Nat
  skipHosts : List (Fin 16)
deriving DecidableEq, Repr, Inhabited

/-- A re-sequence or take-down of one host (R236, R237). -/
inductive HostRun where
  | none
  | down (outs : List (Fin 64)) (bringUp : Bool)
  | off
  | replay (pos : SeqPos)
deriving DecidableEq, Repr, Inhabited

/-- The main program (R229 to R231, R236, R245). -/
inductive MainRun where
  | off
  | running (pos : SeqPos)
  | ended
  | down (outs : List (Fin 64)) (restart : Bool)
  | offTime
deriving DecidableEq, Repr, Inhabited

/-- A host: its hold word, its run and what limits it (R238, R241, R134). -/
structure HostState where
  /-- R241: hold word. Reset: PROGRAM and HARD 1, the rest 0. -/
  hold : HoldWord
  /-- R236, R237: re-sequence in progress. Reset: none. -/
  run : HostRun
  /-- R240: the reset output is asserted. Reset: true (R180). -/
  resetAsserted : Bool
  /-- R238: device times of CYCLE and HOST actions of the last 600 s. Reset: none. -/
  actions : List Nat
  /-- R134: leaves that caused a MISMATCH hold. Reset: none. -/
  causes : List (Fin 8 × LeafRef)
  /-- R276: repairs pending at the take-down. Reset: none. -/
  repairs : List (Fin 8 × LeafRef)
  /-- R506: the bring-up after a LANE reset waits for the host's lanes. Reset: false. -/
  waitLanes : Bool
  /-- R235, R241: a HOST action is in progress, which RESEQ_COUNT counts at its end. Reset: false. -/
  acting : Bool
deriving DecidableEq, Repr, Inhabited

/-- Chuck (R209 to R248). -/
structure Chuck where
  /-- R210: VIN in its window. Reset: DC 8 false. -/
  vin : Bool
  /-- R210: VSB in its window. Reset: DC 8 true (POR is VSB entering its window, R503). -/
  vsb : Bool
  /-- R209: VBAK in its window. Reset: DC 8 true. -/
  vbak : Bool
  /-- R211: the main regulators draw from VSB. Reset: true (VIN out of window). -/
  mainFromVsb : Bool
  /-- R211: the always-on regulator draws from VIN. Reset: false. -/
  aonFromVin : Bool
  /-- R239: a brown-out has taken the platform down. Reset: false. -/
  brownedOut : Bool
  /-- R216: power state. Reset: run. -/
  power : PowerState
  /-- R216: slow tick at which RETAIN was entered. Reset: 0. -/
  retainSince : Nat
  /-- R418: wake timer, a device time in ns. Reset: none. -/
  wakeAt : Option Nat
  /-- R558: VSEL straps. Reset: DC 8 GND. -/
  vsel : Vector Strap 22
  /-- R558: MB_ADDR straps. Reset: DC 8 GND. -/
  mbAddr : Vector Strap 2
  /-- R558: PULL_MASTER strap. Reset: DC 8 open. -/
  pullMaster : Strap
  /-- R561: I/O banks 0 to 21 that Virund powers. Reset: false (powered from step 2 of R182). -/
  ioOn : Vector Bool 22
  /-- R505: RST_IN_N was low at the last sample. Reset: false. -/
  rstLow : Bool
  /-- R431: pooled and port domains held unpowered, as Weir sources. Reset: none. -/
  held : List (Fin 64)
  /-- R212, R214, R326, R327: pooled engine domains now powered (PD numbers). Reset: 34 (46 with VIN; log 49). -/
  enginePd : List Nat
  /-- R222: loaded copy of the platform policy. Reset: none. -/
  policy : Option PlatPolicy
  /-- R222: the bytes of the loaded policy. Reset: empty. -/
  policyBytes : Bytes
  /-- R243, R244: what holds HARD set on every host. Reset: the start-up of a POR. -/
  hardBy : List HardCause
  /-- R230: the main program. Reset: off. -/
  main : MainRun
  /-- R223: asserted level of each SEQ_OUT. Reset: false for each (driven low, R564). -/
  asserted : Vector Bool 64
  /-- R216, R224: a START input has woken Virund from DEEP. Reset: false. -/
  startWanted : Bool
  /-- R220: a wake from RETAIN, after which the next program start verifies every enabled lane. Reset: false. -/
  reverify : Bool
  /-- R564: SEQ_OUT pins still in their reset state. Reset: true. -/
  outsReset : Bool
  /-- R236: enables in the order of their ASSERT operations. Reset: none. -/
  order : List (Fin 64)
  /-- R232: supervised outputs. Reset: none. -/
  supervised : List (Fin 64)
  /-- R232: the armed channels (ARM_AT_START). Reset: none. -/
  armed : List (Fin 32)
  /-- R233: inputs that report good or asserted. Reset: false. -/
  inGood : Vector Bool 64
  /-- R233: channels in window. Reset: false. -/
  monGood : Vector Bool 32
  /-- R235: last WAIT_PG timeout of each output, in µs. Reset: 0. -/
  pgWait : Vector Nat 64
  /-- R238: CYCLE actions of the last 600 s on outputs that no host owns. Reset: none. -/
  outActions : List (Fin 64 × Nat)
  /-- R235: outputs off under CYCLE, waiting to be asserted again or to report good. Reset: none. -/
  cycling : List (Fin 64)
  /-- R227: power-button outputs in a PULSE. Reset: none. -/
  pulsing : List (Fin 64)
  /-- R240, R241: hosts. Reset: see HostState. -/
  hosts : Vector HostState 16
  /-- R247: Virund drives PLAT_HOLD_N low. Reset: true. -/
  platDrive : Bool
  /-- R247: the net PLAT_HOLD_N reads high. Reset: false. -/
  platHigh : Bool
  /-- R248: this Virund has passed PLAT_SYNC. Reset: false. -/
  passedSync : Bool
  /-- R248: a PLAT_FOLLOW take-down waits for the net. Reset: false. -/
  following : Bool
  /-- R404, R418: the operation of the PLATFORM_POWER command that the main program or its take-down carries out. Reset:
  none. -/
  mainOp : Option Word
deriving DecidableEq, Repr, Inhabited

/-! ### Firmware, commit record, policies and keys -/

/-- One firmware copy in NVM (R161, R184): its image, its manifest bytes, and whether a word of it is uncorrectable (R491). -/
structure FwCopy where
  image : Bytes
  manifest : Bytes
  damaged : Bool
deriving DecidableEq, Repr, Inhabited

/-- The commit-record entry of one component (R279). -/
structure CompEntry where
  activeB : Bool
  stateA : CopyState
  stateB : CopyState
  crcA : Dword
  crcB : Dword
deriving DecidableEq, Repr, Inhabited

/-- A window entry WIN[n][w] of the commit record (R280). -/
structure WinEntry where
  select : Sel
  phase : Phase
  inactive : Inactive
  pendingId : Word
deriving DecidableEq, Repr, Inhabited

/-- A lane entry LANE[n] of the commit record (R280). -/
structure LaneEntry where
  active : Bool
  pendingValid : Bool
deriving DecidableEq, Repr, Inhabited

/-- The commit record (R278 to R281). -/
structure Commit where
  /-- R278: a copy of the record is intact. Reset: DC 7 true. -/
  intact : Bool
  /-- R278: SEQ, 64 bits. Reset: DC 7 1. -/
  seq : Nat
  /-- R186, R279: ATTEMPT_COUNT, 8 bits. Reset: DC 7 0. -/
  attempts : Nat
  /-- R279: SELECTED_TRY. Reset: DC 7 0. -/
  selectedTry : Nat
  /-- R196, R279: FW_STARTED. Reset: DC 7 false. -/
  fwStarted : Bool
  /-- R279: ROMEXT_OVERRUN. Reset: DC 7 false. -/
  romextOverrun : Bool
  /-- R279: RAISE_PENDING, bit c - 1. Reset: DC 7 0. -/
  raisePending : BitVec 4
  /-- R279: components 1 to 4. Reset: DC 7 EMPTY copies. -/
  comps : Vector CompEntry 4
  /-- R280: WIN[n][w] at 8n + w. Reset: DC 7 select A, IDLE, UNKNOWN, 0. -/
  wins : Vector WinEntry 64
  /-- R280: LANE[n]. Reset: DC 7 slot 0, not valid. -/
  lanes : Vector LaneEntry 8
deriving DecidableEq, Repr, Inhabited

/-- An owner anchor (R168). -/
structure Anchor where
  digest : Bytes
  purpose : Word
  state : AnchorState
deriving DecidableEq, Repr, Inhabited

/-- A configuration record in the store (R283, R512). -/
structure CfgRec where
  schema : Half
  data : Bytes
deriving DecidableEq, Repr, Inhabited

/-- What the ROM's self-tests of the next start find on this part: the events of the blocks that fail, and the engines that
fail their known-answer tests (the model's own, log 58). -/
structure Defects where
  /-- R183, R462: events of the self-tests of steps 3, 4 and 6 that fail. Reset: DC 58 none. -/
  tests : List WeirEv
  /-- R187, R361: engines that fail their known-answer tests. Reset: DC 58 none. -/
  engines : List Engine
deriving DecidableEq, Repr, Inhabited

/-- Fuses (R494). -/
structure Fuses where
  /-- R494: TRIM, 256 bytes. Reset: DC 7 zero. -/
  trim : Bytes
  /-- R494, R495: words of "once" fields with which their PARITY bit disagrees, counted from +0x000. Reset: DC 7 none. -/
  badParity : List (Fin 512)
  /-- R494: UDS, 384 bits, none while unburned. Reset: DC 7 unburned. -/
  uds : Option Bytes
  /-- R494: every UDS bit burned (SCRAPPED). Reset: DC 7 false. -/
  udsDestroyed : Bool
  /-- R494: DEVICE_SERIAL. Reset: DC 7 0. -/
  serial : Dword
  /-- R494: PRODUCT grade E. Reset: DC 7 false (grade C). -/
  gradeE : Bool
  /-- R494: stepping letter index. Reset: 0 (A, this issue). -/
  stepLetter : BitVec 4
  /-- R494: stepping digit. Reset: 0 (this issue). -/
  stepDigit : BitVec 4
  /-- R494: DEPLOYED, RETURNED, SCRAPPED groups. Reset: DC 7 unburned. -/
  deployed : Bool
  returned : Bool
  scrapped : Bool
  /-- R494: VENDOR_ANCHOR[0..1]. Reset: DC 7 zero digests. -/
  vendor : Vector Bytes 2
  /-- R494: VENDOR_REVOKE. Reset: DC 7 not revoked. -/
  revoked : Vector Bool 2
deriving DecidableEq, Repr, Inhabited

/-- A lease granted by this node as coordinator (R311, R312). -/
structure Lease where
  id : Word
  profile : Bytes
  fgroup : Nat
  holder : BitVec 12
  slot : Nat
  componentId : Bytes
  renewedAt : Nat
deriving DecidableEq, Repr, Inhabited

/-- Progress of an attestation in flight (R299). -/
inductive AttPhase where
  | idle | discovery | negotiate | digests | certificate | measurements | judging
deriving DecidableEq, Repr, Inhabited

/-- A lease that a slot holds (R312): its identifier, the device time it ends at, LEASE_TIME in seconds, and the device
time of the last claim or renewal that was acknowledged. -/
structure HeldLease where
  id : Word
  endsAt : Nat
  leaseTime : Nat
  renewedAt : Nat
deriving DecidableEq, Repr, Inhabited

/-- A token issued and perhaps still current (R316): the identifier of its Alias key, its serial and its NOT_AFTER. -/
structure Issued where
  keyId : Bytes
  serial : Nat
  notAfter : Nat
deriving DecidableEq, Repr, Inhabited

/-- A slot of the admission table (R298 to R306). -/
structure Slot where
  state : AdmState
  reason : Byte
  present : Bool
  componentId : Bytes
  profile : Bytes
  matched : Option Nat
  blocks : Bytes
  measured : List MeasBlock
  rootDigest : Bytes
  tokenFloor : Nat
  tokenSerial : Nat
  token : Bytes
  notAfter : Nat
  probation : Bool
  lease : Option HeldLease
  claimOut : Bool
  claimTries : Nat
  claimSent : Nat
  claimAt : Nat
  failures : Nat
  retryAt : Nat
  nextAttest : Nat
  phase : AttPhase
  chainDigest : Bytes
  seenDigest : Bytes
  chainBytes : Bytes
  eid : Byte
  issued : List Issued
  op : Option Word
deriving DecidableEq, Repr, Inhabited

/-- Tables of the admission policy (R307, R308). -/
structure SlotCfg where
  bus : Nat
  address : Nat
  cls : Nat
  presenceIn : Option Nat
  fgroup : Nat
deriving DecidableEq, Repr, Inhabited

structure AllowCfg where
  cls : Nat
  quota : Nat
  rootMask : Word
  measMask : Bytes
  profile : Bytes
deriving DecidableEq, Repr, Inhabited

structure AdmPolicy where
  secVersion : Nat
  counter : Nat
  hybrid : Bool
  reattest : Nat
  tokenLifetime : Nat
  leaseTime : Nat
  roots : List Bytes
  slots : List SlotCfg
  allows : List AllowCfg
  coordinators : List (BitVec 12)
deriving DecidableEq, Repr, Inhabited

/-- A ring-log entry (R472), with the words of its slot that are uncorrectable (R491). -/
structure LogEntry where
  number : Nat
  time : Nat
  type : Half
  origin : Byte
  data : Bytes
  chain : Bytes
  bad : BitVec 8
deriving DecidableEq, Repr, Inhabited

/-- An entry queued by a producer and not yet written (R476). -/
structure LogReq where
  time : Nat
  type : Half
  origin : Byte
  data : Bytes
deriving DecidableEq, Repr, Inhabited

/-- The ring log (R472 to R480). -/
structure RingLog where
  /-- R472: retained entries, oldest first, at most 65,536. Reset: DC 7 empty. -/
  entries : List LogEntry
  /-- R478: ENTRY_COUNT. Reset: DC 7 0. -/
  count : Nat
  /-- R478: HEAD_CHAIN, `none` for CHAIN_SEED. Reset: none (no entry). -/
  head : Option Bytes
  /-- R474: ANCHOR_NUMBER and ANCHOR_CHAIN, none before the first overwrite. Reset: none. -/
  anchor : Option (Nat × Bytes)
  /-- R478: EXPORTED_TO. Reset: DC 7 0. -/
  exportedTo : Nat
  /-- R478: LOST_UNEXPORTED. Reset: DC 7 0. -/
  lostUnexported : Nat
  /-- R478: DROPPED. Reset: DC 7 0. -/
  dropped : Nat
  /-- R476: entries queued in the producers, oldest first. Reset: none. -/
  queue : List LogReq
  /-- R473: an entry whose slot read back wrong, which the controller writes again. Reset: none. -/
  writing : Option LogReq
  /-- R476: drops not yet announced, by origin. Reset: none. -/
  drops : List (Byte × Nat)
deriving DecidableEq, Repr, Inhabited

/-- A first-error record (R428), its 64-bit words kept as fields. -/
structure ErrRecord where
  source : Fin 64
  cls : BitVec 2
  valid : Bool
  overflow : Bool
  lasting : Bool
  injected : Bool
  injCoincident : Bool
  reactions : BitVec 5
  overflowCount : Byte
  syndrome : Dword
  time : Dword
  coincident : Dword
deriving DecidableEq, Repr, Inhabited

/-- The internal non-volatile memory (R483, R485). -/
structure Nvm where
  /-- R278 to R281: commit record. Reset: see Commit. -/
  commit : Commit
  /-- R184, R483: copies A and B of components 1 to 4 (ROM_EXTENSION has copy A only). Reset: DC 7 empty. -/
  copyA : Vector FwCopy 4
  copyB : Vector FwCopy 4
  /-- R483, R408: stored lane policies. Reset: DC 7 none. -/
  lanePolicy : Vector (Option Bytes) 8
  /-- R280: host-manifest slots 0 and 1 of each lane. Reset: DC 7 none. -/
  manifest0 : Vector (Option Bytes) 8
  manifest1 : Vector (Option Bytes) 8
  /-- R231: stored platform policy. Reset: DC 7 none. -/
  platform : Option Bytes
  /-- R307: stored admission policy. Reset: DC 7 none. -/
  admission : Option Bytes
  /-- R306: admission table. Reset: DC 7 every slot UNKNOWN. -/
  slots : Vector Slot 1024
  /-- R306, R314: token serial counter. Reset: DC 7 0. -/
  tokenSerial : Nat
  /-- R311: lease table of the coordinator. Reset: DC 7 empty. -/
  leases : List Lease
  /-- R311: next lease identifier. Reset: DC 7 1. -/
  nextLease : Word
  /-- R512: configuration records 1 to 4, none when never written. Reset: DC 7 none. -/
  records : Vector (Option CfgRec) 4
  /-- R448: SAFE_RECORD. Reset: DC 7 zero, TRIGGER 0. -/
  safeRecord : ErrRecord
  safeTrigger : Byte
  /-- R517: TIME_CHECKPOINT. Reset: DC 7 0. -/
  timeCheckpoint : Dword
  /-- R485: OWNERSHIP word is OWNED. Reset: DC 7 false. -/
  ownedWord : Bool
  /-- R497: no copy of the OWNERSHIP word is intact. Reset: DC 7 false. -/
  ownedLost : Bool
  /-- R485, R500: PENDING_TARGET. Reset: none. -/
  pendingTarget : Option LifeCycle
  /-- R168: OWNER_ANCHOR[0..3]. Reset: DC 7 EMPTY. -/
  anchors : Vector Anchor 4
  /-- R174: SEC_COUNTER[0..255]. Reset: DC 7 0. -/
  counters : Vector Word 256
  /-- R486: counters of which no copy is intact. Reset: none. -/
  badCounters : List (Fin 256)
  /-- R468: BK_CHECK. Reset: DC 7 zero. -/
  bkCheck : Bytes
  /-- R485: certificates written at manufacture (X.509 chain and GIC1 DeviceID). Reset: DC 7 empty. -/
  x509Chain : Bytes
  gicDevice : Bytes
  /-- R472: the ring log. Reset: see RingLog. -/
  log : RingLog
deriving DecidableEq, Repr, Inhabited

/-- Identity and keys (R288 to R292, R355, R502). -/
structure Keys where
  /-- R291: CDI_DEV, none when cleared. Reset: none. -/
  cdiDev : Option Bytes
  /-- R288, R291: D_ROMEXT. Reset: 32 zero bytes. -/
  dRomext : Bytes
  /-- R288: CDI_ALIAS of the running layer, from which the key block derives the Alias keys. Reset: none. -/
  cdiAlias : Option Bytes
  /-- R290: the DeviceID batch may still sign. Reset: false. -/
  batchOpen : Bool
  /-- R292: the Alias certificates exist. Reset: false. -/
  aliasReady : Bool
  /-- R293: X.509 Alias certificate. Reset: empty. -/
  x509Alias : Bytes
  /-- R294: GIC1 Alias certificate. Reset: empty. -/
  gicAlias : Bytes
  /-- R318: earlier Alias GIC1 certificates. Reset: none. -/
  gicEarlier : List Bytes
  /-- R355: K_seal, 96 bytes. Reset: none. -/
  kSeal : Option Bytes
  /-- R354: SEAL_SERIAL. Reset: 0. -/
  sealSerial : Nat
  /-- R451: the entropy source has failed its health test. Reset: false. -/
  entropyFailed : Bool
  /-- R182 step 10: the UDS is locked. Reset: false. -/
  udsLocked : Bool
  /-- R502: the debug port is unlocked. Reset: false. -/
  debugUnlocked : Bool
  /-- R501: last debug-port instruction executed. Reset: BYPASS (PRESUMED, IEEE 1149.1 reset state, log 8). -/
  tapIr : TapInstr
deriving DecidableEq, Repr, Inhabited

/-- The backup domain (R504, R464 to R471). -/
structure BackupEntry where
  time : Dword
  kind : Fin 12
  detectors : BitVec 2
  repeats : Nat
  detail : Word
  vbakMv : Half
  checkOk : Bool
deriving DecidableEq, Repr, Inhabited

structure Backup where
  /-- R504: marker 0x5A3C_96E1. Reset: DC 7 zero (after a BACKUP-LOSS, R504). -/
  marker : Word
  /-- R468: BACKUP_KEY, 256 bits. Reset: zero (BACKUP-LOSS). -/
  key : Bytes
  /-- R471: pending flag. Reset: BACKUP-LOSS 0. -/
  pending : Bool
  /-- R471: CONTINUITY_LOST. Reset: 0. -/
  continuityLost : Bool
  /-- R471: VBAK_LOW. Reset: 0. -/
  vbakLow : Bool
  /-- R465: backup log buffer. Reset: empty. -/
  buffer : List BackupEntry
  /-- R465: BUF_LOST. Reset: 0. -/
  lost : Nat
  /-- R471: ENC_ENABLE. Reset: 0. -/
  encEnable : Byte
  /-- R471: ENC_DEBOUNCE. Reset: 0. -/
  encDebounce : BitVec 4
  /-- R471: ENC_OPEN. Reset: 0. -/
  encOpen : Byte
deriving DecidableEq, Repr, Inhabited

/-! ### Weir and Levee -/

/-- A configuration word (R434). -/
structure WeirCfg where
  ceSet : BitVec 5
  uccSet : BitVec 5
  fatalSet : BitVec 5
  lastingSet : BitVec 5
  winN : Nat
  winW : Nat
  locked : Bool
deriving DecidableEq, Repr, Inhabited

/-- A state word WEIR_STATE[s] (R438). -/
structure WeirState where
  count : Nat
  lasting : Bool
  testCount : Nat
  testLasting : Bool
  winStart : Nat
  testStart : Nat
deriving DecidableEq, Repr, Inhabited

/-- Weir (R422 to R449). -/
structure Weir where
  /-- R426: status word. Reset: 0. -/
  pending : Dword
  /-- R427: injected status word. Reset: 0. -/
  injected : Dword
  /-- R428: first-error record. Reset: 0. -/
  record : ErrRecord
  /-- R434: WEIR_CFG[0..63]. Reset: R436. -/
  cfg : Vector WeirCfg 64
  /-- R438: WEIR_STATE[0..63]. Reset: 0. -/
  st : Vector WeirState 64
  /-- R440: phase of ERR_OUT_N. Reset: RELEASED. -/
  pin : PinPhase
  /-- R441: ERR_HOLD. Reset: 0. -/
  errHold : Bool
  /-- R441: PULSE_COUNT. Reset: 0. -/
  pulseCount : Byte
  /-- R430: IRQ pending to Headstock. Reset: false. -/
  irq : Bool
  /-- R430: NMI pending to Headstock. Reset: false. -/
  nmi : Bool
  /-- R449: STORM_COUNT. Reset: 0. -/
  stormCount : Nat
  /-- R449: STORM_START. Reset: 0. -/
  stormStart : Nat
  /-- R448: RESET_CAUSE RECORD. Reset: 0. -/
  causeRecord : ErrRecord
  /-- R448: RESET_CAUSE CAUSE. Reset: 0. -/
  cause : Byte
  /-- R431: blocks in a BLOCK reset, as (source, unit, held). Reset: none. -/
  blocks : List (Fin 64 × Nat × Bool)
deriving DecidableEq, Repr, Inhabited

/-- A Levee kind word (R470). -/
structure LeveeKind where
  d1Active : Bool
  d2Active : Bool
  scope : BitVec 2
  scopeLocked : Bool
  alarms : Nat
  disagrees : Nat
  testD1Fail : Bool
  testD2Fail : Bool
  lastTest : Word
deriving DecidableEq, Repr, Inhabited

/-- The Levee alarm record (R460). -/
structure AlarmRec where
  kinds : BitVec 12
  d1Fired : BitVec 12
  d2Fired : BitVec 12
  scope : BitVec 2
  valid : Bool
  time : Dword
  encPairs : Byte
  meshTraces : Half
deriving DecidableEq, Repr, Inhabited

/-- Levee (R452 to R471). -/
structure Levee where
  /-- R470: LEVEE_KIND[0..11]. Reset: scope 0b01, or 0b10 for 8, 9, 11, or 0b00 for 2; the rest 0. -/
  kinds : Vector LeveeKind 12
  /-- R460: alarm record. Reset: 0. -/
  alarm : AlarmRec
  /-- R461: latched disagreements not yet presented, as (kind, D1 fired alone). Reset: none. -/
  latched : List (Fin 12 × Bool)
  /-- R457: alarms hold the block in reset, since step 3. Reset: false. -/
  holding : Bool
  /-- R463: slow tick of the last periodic test round. Reset: 0. -/
  lastRound : Nat
deriving DecidableEq, Repr, Inhabited

/-! ### Confluence and engines -/

/-- A running digest context (R348): what a Riffle needs to continue a message. -/
structure Ctx where
  fn : Byte
  key : Bytes
  outLen : Nat
  absorbed : Bytes
  total : Option Nat
  /-- R351: its HMAC key came from the entropy and key block, so that it is never sealed. Reset: false. -/
  keyBlock : Bool
deriving DecidableEq, Repr, Inhabited

/-- What a job does (R320, R339, R363). -/
inductive JobWork where
  | digest (ctx : Ctx) (data : Bytes)
  | update (session : Word) (data : Bytes)
  | finish (session : Word) (data : Bytes)
  | suspend (session : Word)
  | ecdsa (curve : Curve) (q r s hash : Bytes)
  | rsa (n sig : Bytes)
  | mldsa (set : Byte) (pk mu sig : Bytes)
  | kat (i : Fin 32) (failed : Option (Fin 6))
deriving DecidableEq, Repr, Inhabited

/-- A job of Confluence in a descriptor (R320, R321). -/
structure Job where
  id : Nat
  cls : Fin 5
  port : Option Port
  tag : Word
  opcode : Half
  work : JobWork
  runs : Nat
  submitted : Nat
  /-- R332, R334: it is dispatched again, ahead of every job of its class that has not started. Reset: false. -/
  ahead : Bool
deriving DecidableEq, Repr, Inhabited

/-- Owner of a Mandrel's operand memory (R375). -/
inductive OpOwner where
  | none | rom | headstock | keyBlock | tenon (k : Fin 4) | gated | port (p : Port)
deriving DecidableEq, Repr, Inhabited

/-- A Riffle (R323, R331, R362). -/
structure Riffle where
  /-- R324: in service. Reset: true. -/
  inService : Bool
  /-- R323: class it is reserved to, none for shared. Reset: R323. -/
  reserve : Option (Fin 5)
  /-- R328: running job. Reset: none. -/
  job : Option Job
  /-- R331: suspended jobs, most recent first. Reset: none. -/
  suspended : List Job
  /-- R332: lane it is bound to after a claim. Reset: none. -/
  boundTo : Option (Fin 8)
deriving DecidableEq, Repr, Inhabited

/-- A Mandrel (R323, R375 to R380). -/
structure Mandrel where
  /-- R324: in service. Reset: true. -/
  inService : Bool
  /-- R323: class it is reserved to. Reset: R323. -/
  reserve : Option (Fin 5)
  /-- R328: running job. Reset: none. -/
  job : Option Job
  /-- R375: owner tag. Reset: none. -/
  owner : OpOwner
  /-- R375: SECRET. Reset: false. -/
  secret : Bool
  /-- R377: a checked wipe runs. Reset: false. -/
  wiping : Bool
  /-- R377: slow tick of the last use of a resident key. Reset: 0. -/
  lastUse : Nat
  /-- R376, R378: operands and outputs that stand in operand memory, whose other words are zero. Reset: none. -/
  mem : List Bytes
deriving DecidableEq, Repr, Inhabited

/-- The counters of one class (R338). -/
structure ClassCounts where
  jobsDone : Nat
  preempted : Nat
  queueFull : Nat
  waitMax : Nat
deriving DecidableEq, Repr, Inhabited

/-- A digest session (R352, R353). -/
structure Session where
  id : Word
  port : Port
  ctx : Ctx
  lastUse : Nat
deriving DecidableEq, Repr, Inhabited

/-- Confluence (R320 to R338). -/
structure Confluence where
  /-- R321: jobs that wait, in submission order. Reset: none. -/
  queue : List Job
  /-- R323: Riffles. Reset: see Riffle. -/
  riffles : Vector Riffle 32
  /-- R323: Mandrels. Reset: see Mandrel. -/
  mandrels : Vector Mandrel 8
  /-- R338: counters of classes 0 to 4. Reset: 0. -/
  counts : Vector ClassCounts 5
  /-- R321: open digest sessions, at most 160. Reset: none. -/
  sessions : List Session
  /-- R415: next session number. Reset: DC 7 1. -/
  nextSession : Word
  /-- R328: port last served in class 3 (round robin). Reset: none. -/
  lastPort : Option Port
  /-- R354, R356: sealed contexts issued under the present K_seal, each with the context it holds. Reset: none. -/
  sealed : List (Bytes × Ctx)
  /-- Next job number. Reset: 0. -/
  nextJob : Nat
  /-- R361: slow tick at which each pooled Riffle was last tested. Reset: 0. -/
  lastKat : Vector Nat 24
  /-- R214: slow tick of the last job in each Riffle group (0 to 7) and each Mandrel (8 to 15). Reset: 0. -/
  lastJob : Vector Nat 16
  /-- R347: internal jobs whose declared length disagreed once, each with the engine that ran it. Reset: none. -/
  lengths : List (InnerJob × Fin 32)
deriving DecidableEq, Repr, Inhabited

/-! ### Stolik -/

/-- A response on its way to its requester (R387). -/
structure Resp where
  port : Port
  opcode : Half
  result : Res
  tag : Word
  payload : Bytes
deriving DecidableEq, Repr, Inhabited

/-- An open challenge (R401). -/
structure Challenge where
  value : Bytes
  expires : Nat
deriving DecidableEq, Repr, Inhabited

/-- An operation (R404). -/
structure OpRec where
  id : Word
  ended : Bool
  result : Res
  detail : Word
  progress : Word
  endedAt : Nat
deriving DecidableEq, Repr, Inhabited

/-- A structure upload (R409). -/
structure Upload where
  port : Port
  kind : Byte
  pair : Bool
  total : Nat
  data : Bytes
  lastChunk : Nat
deriving DecidableEq, Repr, Inhabited

/-- A host manifest held under PAIR (R409). -/
structure PairHeld where
  port : Port
  lane : Fin 8
  data : Bytes
  opId : Word
  since : Nat
deriving DecidableEq, Repr, Inhabited

/-- Progress of a transfer (R411 TRANSFER). -/
inductive XferPhase where
  | none | receiving | checking | landing | writing
deriving DecidableEq, Repr, Inhabited

/-- The update lock and transfer of one target (R250 to R257, R264): the chunks received, in their order of arrival, as
index, CRC-32C and length, and the bytes received so far for a component or a set. -/
structure Target where
  code : Byte
  holder : Option Port
  lastFrame : Nat
  xfer : XferPhase
  captured : Bool
  streamed : Bool
  imageLen : Nat
  chunkSize : Nat
  manifests : List Bytes
  chunks : List (Nat × Word × Nat)
  data : Bytes
  reserved : Nat
  lastResult : Res
  op : Option Word
deriving DecidableEq, Repr, Inhabited

/-- An activation of a host image (R260): its flags, the step it waits for, its operation, and the window bytes that
step 2 proved, from which NOW fills new mirrored leaves. -/
structure Activation where
  lane : Fin 8
  window : Fin 8
  now : Bool
  reseq : Bool
  previous : Bool
  step : Nat
  op : Word
  image : Bytes
deriving DecidableEq, Repr, Inhabited

/-- A held evidence bundle or log export (R405). -/
structure HeldObj where
  id : Word
  isExport : Bool
  data : Bytes
  since : Nat
  first : Nat
deriving DecidableEq, Repr, Inhabited

/-- A scheduled or awaited capture (R522, R547), with the nodes whose SNAP_ACK has come before the initiator's own copy. -/
structure Capture where
  opId : Word
  at_ : Nat
  fabric : Bool
  initiator : Option (BitVec 12)
  late : Bool
  acks : List (BitVec 12)
deriving DecidableEq, Repr, Inhabited

/-- A shadow set taken and not yet copied (R520, R522): the record bytes that firmware will hold. -/
structure Shadow where
  cap : Capture
  record : Bytes
deriving DecidableEq, Repr, Inhabited

/-- A held snapshot (R405, R547, R548). -/
structure Snapshot where
  opId : Word
  initiator : Option (BitVec 12)
  record : Bytes
  fabric : Bool
  at_ : Nat
  nodes : List (BitVec 12)
deriving DecidableEq, Repr, Inhabited

/-- A request that waits for in-flight room of the device (R393). -/
structure Waiting where
  port : Port
  frame : Bytes
deriving DecidableEq, Repr, Inhabited

/-- Stolik objects (R385 to R421). -/
structure Stolik where
  /-- R387: responses, the latest first. Reset: none. -/
  outbox : List Resp
  /-- R393: requests in flight as (port, tag). Reset: none. -/
  inFlight : List (Port × Word)
  /-- R393: requests that wait. Reset: none. -/
  waiting : List Waiting
  /-- R393: requests that wait outside the device limit of 1,024, at most 16 for each management bus. Reset: none. -/
  parked : List Waiting
  /-- R541: relayed requests that have not been answered, as port, tag and MSG_ID. Reset: none. -/
  relayed : List (Port × Word × Word)
  /-- R401: open challenges, oldest first, at most 64. Reset: none. -/
  challenges : List Challenge
  /-- R404: operations. Reset: none. -/
  ops : List OpRec
  /-- R404: sequence of OP_ID, 24 bits. Reset: 0. -/
  opSeq : Nat
  /-- R404: firmware-start count, 8 bits. Reset: DC 7 0. -/
  bootCount : Byte
  /-- R409: open uploads, at most four. Reset: none. -/
  uploads : List Upload
  /-- R409: manifests held under PAIR. Reset: none. -/
  pairs : List PairHeld
  /-- R251: update locks and transfers. Reset: none. -/
  targets : List Target
  /-- R260: activations in progress. Reset: none. -/
  activations : List Activation
  /-- R405: held bundles and exports, oldest first, at most four. Reset: none. -/
  held : List HeldObj
  /-- R405: next bundle or export identifier. Reset: DC 7 1. -/
  nextHeld : Word
  /-- R522: scheduled captures, at most four. Reset: none. -/
  captures : List Capture
  /-- R522: shadow sets that wait for copying, at most two. Reset: none. -/
  shadows : List Shadow
  /-- R405: held snapshots, oldest first, at most eight. Reset: none. -/
  snapshots : List Snapshot
  /-- R416, R548: GET_SNAPSHOT requests that wait for SNAP_DATA, with the tick they were sent at. Reset: none. -/
  fetches : List (Req × Word × Nat)
  /-- R406: records defaulted under R283 and not yet rewritten. Reset: none. -/
  defaulted : List (Fin 4)
  /-- R283: records above SCHEMA_CUR, kept and not used. Reset: none. -/
  keptUnused : List (Fin 4)
deriving DecidableEq, Repr, Inhabited

/-! ### The fabric -/

/-- A Wiquajo link (R525 to R534). -/
structure Link where
  /-- R528: state. Reset: DOWN. -/
  st : LinkState
  /-- R528: a signal is present. Reset: false. -/
  signal : Bool
  /-- R528: valid training blocks seen in a row in the present state. Reset: 0. -/
  blocks : Nat
  /-- R531: membership, none before authentication ends. Reset: none. -/
  member : Option Membership
  /-- R530: the peer's AUTH_KEY. Reset: none. -/
  peer : Option AuthKey
  /-- R530: our AUTH_KEY payload, and the seed of our ephemeral key pair. Reset: empty. -/
  ours : Bytes
  seed : Bytes
  /-- R530: K_AB and K_BA. Reset: empty. -/
  keyAB : Bytes
  keyBA : Bytes
  /-- R534: next SEQ to send. Reset: 0. -/
  seqTx : Half
  /-- R534: oldest SEQ not acknowledged. Reset: 0. -/
  ackedTo : Half
  /-- R534: sequenced frames not yet acknowledged, oldest first, as type and payload; the first 32 are the window that
  the retry buffer holds, and the others wait for it. Reset: empty. -/
  retry : List (Byte × Bytes)
  /-- R534: times the oldest frame has been resent. Reset: 0. -/
  resends : Nat
  /-- R533: SEQ_EXT. Reset: 0. -/
  seqExt : Nat
  /-- R533, R534: the next SEQ expected from the peer. Reset: 0. -/
  seqRx : Half
  /-- R533: link frames put on the wire since the link came up, the latest first. Reset: none. -/
  wire : List Bytes
  /-- R525 to R527: blocks sent since the link came up or began to train, before the scrambler and without idle, the latest
  first. Reset: none. -/
  line : List LineBlock
  /-- R525: the receiver has found P and N swapped, and corrects it. Reset: false. -/
  swapped : Bool
  /-- R534: slow ticks of the frames discarded for TAG failure within the last 32,768, the latest first. Reset: none. -/
  tagFails : List Nat
  /-- R431: the link is held. Reset: false. -/
  held : Bool
deriving DecidableEq, Repr, Inhabited

/-- A route entry (R536): the node and serial heard, per-link hops and the tick last heard. -/
structure Route where
  node : BitVec 12
  serial : Dword
  aseq : Word
  timeRoot : Bool
  hops : Vector (Option Nat) 4
  heard : Vector Nat 4
deriving DecidableEq, Repr, Inhabited

/-- A message in reassembly (R540). -/
structure Reasm where
  src : BitVec 12
  msgId : Word
  link : Fin 4
  service : Byte
  data : Bytes
  next : Nat
  firstTick : Nat
deriving DecidableEq, Repr, Inhabited

/-- A bridged request (R542). -/
structure Bridged where
  bus : Fin 16
  endpoint : Byte
  eid : Byte
  msgId : Word
  sentTick : Nat
deriving DecidableEq, Repr, Inhabited

/-- A message that this node sent or forwards (R539): link, header, data, the latest first. -/
structure Sent where
  link : Fin 4
  hdr : RoutedHdr
  data : Bytes
deriving DecidableEq, Repr, Inhabited

/-- An offer collected in a Headwater round (R287, R549). -/
structure Offer where
  link : Fin 4
  hsVersion : Word
  setLength : Word
  generation : Word
  manifestLength : Word
deriving DecidableEq, Repr, Inhabited

/-- The fabric (R525 to R552). -/
structure Fabric where
  /-- R528: links PL0 to PL3. Reset: DOWN. -/
  links : Vector Link 4
  /-- R536: routes. Reset: none. -/
  routes : List Route
  /-- R536: own ASEQ. Reset: 0. -/
  aseq : Word
  /-- R540: messages in reassembly, at most 64. Reset: none. -/
  reasm : List Reasm
  /-- R540: flood pairs seen, (SRC, MSG_ID, tick), the latest first, at most 1,024. Reset: none. -/
  seen : List (BitVec 12 × Word × Nat)
  /-- R539: messages sent or forwarded, the latest first. Reset: none. -/
  sent : List Sent
  /-- R539: next MSG_ID. Reset: DC 7 1. -/
  nextMsg : Word
  /-- R542: bridged requests. Reset: none. -/
  bridged : List Bridged
  /-- R545: offsets of the last four valid exchanges, in 1/16 ns, the latest first. Reset: none. -/
  offsets : List Int
  /-- R545: slow tick of the last valid exchange. Reset: 0. -/
  lastExchange : Nat
  /-- R543: SYNC_ID of the outstanding TIME request. Reset: 0. -/
  syncId : Word
  /-- R545: the node is synchronised. Reset: false. -/
  synced : Bool
  /-- R545: offset still to be removed by a changed rate, in 1/16 ns: positive to be gained, negative to be lost.
  Reset: 0. -/
  slew : Int
  /-- R549, R287: offers of the current Headwater round. Reset: none. -/
  offers : List Offer
  /-- R193, R287: slow tick at which the offer round began, none outside a round. Reset: none. -/
  round : Option Nat
  /-- R287: the offer being downloaded, with the bytes received. Reset: none. -/
  download : Option (Offer × Bytes)
  /-- R549: RECOVERY payloads sent, (link, payload), the latest first. Reset: none. -/
  recovery : List (Fin 4 × Bytes)
  /-- R538: own NODE heard from another serial. Reset: false. -/
  duplicate : Bool
  /-- R21: a sibling alert's interrupt, until its entry is written. Reset: false. -/
  alertIrq : Bool
  /-- R530: SPDM link exchanges and training sent are not kept; TIME payloads sent, the latest first. Reset: none. -/
  timeSent : List (Fin 4 × TimeMsg)
deriving DecidableEq, Repr, Inhabited

/-! ### The management buses -/

/-- Where a bus's SPDM requester stands (R295; PRESUMED, DSP0274): 0 nothing, 1 after GET_VERSION, 2 after
GET_CAPABILITIES, 3 after NEGOTIATE_ALGORITHMS; the version settled; and the transcripts of the version, capability and
algorithm messages, of the certificate messages and of the measurement messages. -/
structure Spdm where
  stage : Nat
  version : Byte
  vca : Bytes
  certs : Bytes
  meas : Bytes
deriving DecidableEq, Repr, Inhabited

/-- A message that Virund sends as the controller of a bus (R298, R299). -/
inductive CtrlMsg where
  | poll
  | setEndpointId (eid : Byte)
  | getVersion
  | getCapabilities
  | negotiateAlgorithms
  | getDigests
  | getCertificate (offset length : Nat)
  | getMeasurements (nonce : Bytes)
deriving DecidableEq, Repr, Inhabited

/-- A management bus (R512, R563, R585). -/
structure Bus where
  /-- R512: ROLE in force. Reset: target (R512). -/
  role : BitVec 2
  /-- R512: I3C. Reset: false. -/
  i3c : Bool
  /-- R512: SPEED. Reset: 0. -/
  speed : Nat
  /-- R512: 7-bit static address in force, R559 where the record gives 0. Reset: the strap address. -/
  address : Nat
  /-- R585: interface restarts after a clock-low timeout. Reset: 0. -/
  restarts : Nat
  /-- R295: last SPDM response bytes. Reset: none. -/
  spdmOut : Option Bytes
  /-- R295: the SPDM exchange in progress. Reset: none. -/
  spdm : Spdm
  /-- R299: last message Virund sent as a controller, with the address it went to. Reset: none. -/
  ctrlOut : Option (Nat × CtrlMsg)
  /-- R542: last response returned to a requester of a bridged EID, with its endpoint and the EID. Reset: none. -/
  bridgeOut : Option (Byte × Byte × Bytes)
deriving DecidableEq, Repr, Inhabited

/-- A measurement snapshot (R297): the blocks of R296 by index, each with its bytes. -/
structure MeasSnap where
  blocks : List MeasBlock
deriving DecidableEq, Repr, Inhabited

/-- The whole block. -/
structure State where
  /-- The commands that wait, first in, first out (the model's own, log 1). Reset: empty. -/
  pending : List Instr
  /-- The model's own counter of free values drawn (log 4). Reset: DC 4 0. -/
  free : Nat
  /-- R7: slow-tick count. Reset: DC 7 0. -/
  tick : Nat
  /-- R8, R515: device time in ns. Reset: DC 7 0. -/
  time : Nat
  /-- R515: fraction of a ns of device time, in 1/128 ns (log 1). Reset: DC 7 0. -/
  timeFrac : Nat
  /-- R416, R545: SOURCE of device time, 0 or 1; 2 while synchronised. Reset: 0 (R514). -/
  timeSource : Nat
  /-- What the processors do (R182, R397). Reset: held, the ROM not yet run. -/
  mode : ChipMode
  /-- R437, R508: a WARM reset has not yet been followed by firmware start. Reset: false. -/
  warm : Bool
  /-- R268, R397: the activation pause is in progress. Reset: false. -/
  planned : Bool
  /-- R265: copy B runs, by component, as the ROM selected it. Reset: DC 7 copy A. -/
  running : Vector Bool 4
  /-- R184, R188: the ROM extension runs at this start. Reset: false. -/
  romextRan : Bool
  /-- R182: device time of firmware start t1. Reset: 0. -/
  t1 : Nat
  /-- R485, R497: life-cycle state as the ROM derived it. Reset: DC 7 MANUFACTURE. -/
  lc : LifeCycle
  /-- R202: lanes 0 to 7. Reset: see Lane. -/
  lanes : Vector Lane 8
  /-- R81, R83: lane engines 0 to 9 in service. Reset: true. -/
  engines : Vector Bool 10
  /-- R81: lane engines that a takeover has replaced, out of service until POR or CHIP. Reset: false. -/
  replacedEngines : Vector Bool 10
  /-- R135, R601: mirror memory. Reset: empty. -/
  mirror : List MirrorLeaf
  /-- R113, R116: pages resident in the manifest cache, the least recently used first. Reset: none. -/
  pages : List CachePage
  /-- R214: lowest-numbered manifest-cache banks powered for the page demand of the last policy swap. Reset: 0. -/
  cacheBanks : Nat
  /-- R91: staging buffer, at most 4,096 units. Reset: empty. -/
  staging : List StagedUnit
  /-- R139, R270: Reservoirs A and B. Reset: see Reservoir. -/
  resA : Reservoir
  resB : Reservoir
  chuck : Chuck
  fuses : Fuses
  nvm : Nvm
  keys : Keys
  backup : Backup
  weir : Weir
  levee : Levee
  conf : Confluence
  stolik : Stolik
  /-- R260, R177: active admission policy as read. Reset: none. -/
  adm : Option AdmPolicy
  fabric : Fabric
  /-- R512: management buses in force. Reset: see Bus. -/
  buses : Vector Bus 16
  /-- R535: node identifier and parameters in force: NODE, ASSIGNED, LINK_EN, TIME_ROOT, EID_BASE, BRIDGE_NODE list.
  Reset: the default of R535. -/
  node : BitVec 12
  assigned : Bool
  linkEn : BitVec 4
  timeRoot : Bool
  eidBase : Byte
  bridge : List (BitVec 12)
  /-- R297: current measurement snapshot. Reset: none. -/
  snap : MeasSnap
  /-- R425, R512: TEMP_WARNING in force, 0.1 °C. Reset: DC 7 900 (R591, grade C). -/
  tempWarning : Int
  /-- R183, R187: what the tests of the next start find (the model's own, log 58). Reset: DC 58 none. -/
  defects : Defects
  /-- R489: patrol positions are not kept; number of words patrolled. Reset: 0. -/
  patrolled : Nat
deriving DecidableEq, Repr, Inhabited

/-- Why the block stops on a command. -/
inductive Fault where
  /-- Raised by execTapInstruction for the manufacturing test instructions of R501, whose effects the manual does not
  give. Safe: the hardware goes on, and no claim is made about what it does. -/
  | manufacturingTest
deriving DecidableEq, Repr

/-- Why a command has no meaning here. -/
inductive Refusal where
  /-- Raised by no meaning of this model: every command of the table has one. -/
  | notModelled (mnemonic : String)
  /-- Raised by execTapInstruction for core halt and step and memory access through the unlocked debug port (R501),
  whose effects the manual does not give. Safe. -/
  | debugAccess
deriving DecidableEq, Repr

/-! ### The state after reset -/

/-- A configuration word from its five-bit sets (R434). -/
def WeirCfg.of (ce ucc fatal lasting : BitVec 5) (n w : Nat) : WeirCfg :=
  { ceSet := ce, uccSet := ucc, fatalSet := fatal, lastingSet := lasting, winN := n, winW := w, locked := false }

/-- The default configuration words of R436 by source; source 63 reads as R435 gives. -/
def WeirCfg.default (s : Nat) : WeirCfg :=
  if s ≤ 9 then .of 1 1 0b10101 0b10001 4 65535
  else if s ≤ 21 then .of 1 0b00101 0b10101 0b10001 4 65535
  else if s ≤ 23 then .of 1 0b00100 0b10100 0b10000 3 65535
  else if s ≤ 39 then .of 1 1 0b10101 0b10101 3 65535
  else if s = 40 then .of 1 1 0b11000 0b10001 16 32768
  else if s ≤ 44 then .of 1 1 0b10001 0b10001 16 32768
  else if s ≤ 46 then .of 1 0b10001 0b11000 0b10001 1 1
  else if s ≤ 53 ∨ s = 60 then .of 1 0b00101 0b10101 0b10001 4 65535
  else if s = 54 then .of 1 1 0b10001 0b10001 4 65535
  else if s ≤ 56 then .of 1 0b10001 0b11000 0b10001 4 65535
  else if s = 62 then .of 1 0b10001 0b10011 0b10001 4 65535
  else if s = 63 then .of 0 0 0b11111 0 1 1
  else .of 1 0b10001 0b10001 0b10001 4 65535

/-- The empty first-error record (R428). -/
def ErrRecord.empty : ErrRecord :=
  { source := 0, cls := 0, valid := false, overflow := false, lasting := false, injected := false,
    injCoincident := false, reactions := 0, overflowCount := 0, syndrome := 0, time := 0, coincident := 0 }

/-- The zero state word (R438). -/
def WeirState.empty : WeirState :=
  { count := 0, lasting := false, testCount := 0, testLasting := false, winStart := 0, testStart := 0 }

/-- Weir after POR: R426 to R428, R436, R438, R441, R448, R449. -/
def Weir.reset : Weir :=
  { pending := 0, injected := 0, record := .empty, cfg := Vector.ofFn fun s => .default s.val,
    st := Vector.replicate 64 .empty, pin := .released, errHold := false, pulseCount := 0, irq := false, nmi := false,
    stormCount := 0, stormStart := 0, causeRecord := .empty, cause := 0, blocks := [] }

/-- The default configuration record of R107. -/
def LaneCfg.default : LaneCfg :=
  { enable := true, hostCs1 := false, flashCs1 := false, mailbox := true, modeMask := 1, fmax := 50, opWrite := 0xF1,
    opRead := 0xF2, opStatus := 0xF3, jedec := [0, 0, 0], host0 := 256, host1 := 0, flash0 := 0, flash1 := 0 }

/-- An unused remap window (R51). -/
def Remap.unused : Remap := { base := 0, len := 0, targetA := 0, targetB := 0 }

/-- The verification record before any policy (R112; DC 7: the lower bounds of the ranges, no flag set). -/
def VerifyRec.default : VerifyRec :=
  { scrubPeriod := 60, partialTimeout := 1, autoRelease := false, pinPages := false, resPref := .a }

/-- A free tracker (R120). -/
def Tracker.free : Tracker :=
  { st := .free, region := 0, leaf := 0, data := [], res := none, lastCapture := 0, filled := false,
    fault := false, order := 0 }

/-- A flash chip select with no operation outstanding (R63, R66). -/
def FlashChip.idle : FlashChip :=
  { st := .host, suspended := false, suspendSent := false, wip := false, wel := false, restorePending := false }

/-- The counters of R98 and R150 at zero. -/
def LaneCounts.zero : LaneCounts :=
  { defaultHits := 0, stageCaptured := 0, stageRefusedFull := 0, lookupDisagree := 0, leavesVerified := 0,
    mismatches := 0, partialFills := 0, flashChecks := 0, scrubLeaves := 0, scrubOverruns := 0, redirectUnits := 0,
    uncapturedDrops := 0 }

/-- No platform verification in progress (R198). -/
def PvState.none : PvState :=
  { active := false, accepted := false, startTick := 0, done := [], unproved := false, keepMirrored := false,
    fillsFromReservoir := false, caseRow := 0, rules := Option.none, modes := Vector.replicate 2 (.s111, 0), tookOver := false,
    unread := [] }

/-- A mailbox with empty buffers, not served (R71). -/
def Mailbox.reset : Mailbox :=
  { inBuf := [], taken := 0, outBuf := [], discardCount := 0, paused := true, discard := false, zeroRun := 0, lost := false }

/-- A lane after POR under the default configuration (R105, R107). -/
def Lane.reset (n : Fin 8) : Lane :=
  { cfg := .default, verify := .default, remap := Vector.replicate 8 .unused, rules := [], hits := [], prevHits := [],
    counts := .zero, denyReset := true, denyNoPolicy := true, denyOwner := false, denyEngine := false,
    denySafe := false, mode := Vector.replicate 2 .s111, addr4 := Vector.replicate 2 false,
    powerOn := Vector.replicate 2 (.s111, false),
    flash := Vector.replicate 2 ⟨[], [], []⟩, switchSeen := Vector.replicate 2 [], chips := Vector.replicate 2 .idle,
    chipAbsent := Vector.replicate 2 false, sfdp := false, rstHigh := false, wrdi := [], engine := n.castLE (by decide),
    riffle := some (n.castLE (by decide)), takeover := none, tableBad := false, pending := none, manifest := none, nextManifest := none,
    proving := [], provingOp := none,
    leaves := [], digests := [], level1 := [], trackers := Vector.replicate 64 .free, nextOrder := 0,
    flashChecks := [], confirms := [], fills := [], refill := false, pageReqs := [], claimWanted := false, scrubFirst := 0, scrubAt := 0, scrubStart := 0,
    scrubbed := [], skipNext := [],
    outcome := none, pv := .none, denyLog := [], leafLog := [], resetOp := none, repairOp := none, repairLeft := [], epoch := 0, mb := .reset, wait := 0,
    rsp := none, fp := .idle }

/-- A Reservoir port with no flash fitted (DC 8). -/
def Reservoir.reset : Reservoir :=
  { present := false, held := false, rstHigh := false, seq := 0, dir := [], copies := Vector.replicate 2 (List.replicate 4096 0), defects := [], withdrawn := [], claim := none,
    refreshing := none, suspended := false, mode := .s111, addr4 := false, dummy := 0, bankReg := 0, replay := none }

/-- A host's hold word after POR (R241). -/
def HoldWord.reset : HoldWord :=
  { program := true, mismatch := false, power := false, owner := false, hard := true, laneMask := 0, resetOut := 0,
    reseqCount := 0 }

/-- A host after POR. -/
def HostState.reset : HostState :=
  { hold := .reset, run := .none, resetAsserted := true, actions := [], causes := [], repairs := [], waitLanes := false,
    acting := false }

/-- Chuck after POR (R210 to R248, R326, R564). -/
def Chuck.reset : Chuck :=
  { vin := false, vsb := true, vbak := true, mainFromVsb := true, aonFromVin := false, brownedOut := false,
    power := .run, retainSince := 0, wakeAt := none, vsel := Vector.replicate 22 .gnd,
    mbAddr := Vector.replicate 2 .gnd, pullMaster := .open_, ioOn := Vector.replicate 22 false, rstLow := false, held := [], enginePd := [34],
    policy := none, policyBytes := [], hardBy := [.startUp true], main := .off, asserted := Vector.replicate 64 false, startWanted := false, reverify := false, outsReset := true, order := [],
    supervised := [], armed := [], inGood := Vector.replicate 64 false, monGood := Vector.replicate 32 false,
    pgWait := Vector.replicate 64 0, outActions := [], cycling := [], pulsing := [], hosts := Vector.replicate 16 .reset,
    platDrive := true, platHigh := false, passedSync := false, following := false, mainOp := none }

/-- Fuses of a part in MANUFACTURE (R494, DC 7). -/
def Fuses.reset : Fuses :=
  { trim := List.replicate 256 0, badParity := [], uds := none, udsDestroyed := false, serial := 0, gradeE := false, stepLetter := 0, stepDigit := 0,
    deployed := false, returned := false, scrapped := false, vendor := Vector.replicate 2 (List.replicate 32 0),
    revoked := Vector.replicate 2 false }

/-- The commit record of a part in MANUFACTURE (R278 to R281, DC 7). -/
def Commit.reset : Commit :=
  { intact := true, seq := 1, attempts := 0, selectedTry := 0, fwStarted := false, romextOverrun := false,
    raisePending := 0,
    comps := Vector.replicate 4 { activeB := false, stateA := .empty, stateB := .empty, crcA := 0, crcB := 0 },
    wins := Vector.replicate 64 { select := .a, phase := .idle, inactive := .unknown, pendingId := 0 },
    lanes := Vector.replicate 8 { active := false, pendingValid := false } }

/-- A slot of the admission table that nothing has filled (R306, DC 7). -/
def Slot.reset : Slot :=
  { state := .unknown, reason := 0, present := false, componentId := [], profile := [], matched := none, blocks := [],
    measured := [], rootDigest := [], tokenFloor := 0, tokenSerial := 0, token := [], notAfter := 0,
    probation := false, lease := none, claimOut := false, claimTries := 0, claimSent := 0, claimAt := 0, failures := 0,
    retryAt := 0, nextAttest := 0, phase := .idle, chainDigest := [], seenDigest := [], chainBytes := [], eid := 0,
    issued := [], op := none }

/-- An empty ring log (R472, R478, DC 7). -/
def RingLog.reset : RingLog :=
  { entries := [], count := 0, head := none, anchor := none, exportedTo := 0, lostUnexported := 0, dropped := 0,
    queue := [], writing := none, drops := [] }

/-- The internal NVM of a part in MANUFACTURE (R483, R485, DC 7). -/
def Nvm.reset : Nvm :=
  { commit := .reset, copyA := Vector.replicate 4 ⟨[], [], false⟩, copyB := Vector.replicate 4 ⟨[], [], false⟩,
    lanePolicy := Vector.replicate 8 none, manifest0 := Vector.replicate 8 none, manifest1 := Vector.replicate 8 none,
    platform := none, admission := none, slots := Vector.replicate 1024 .reset, tokenSerial := 0, leases := [],
    nextLease := 1, records := Vector.replicate 4 none, safeRecord := .empty, safeTrigger := 0, timeCheckpoint := 0,
    ownedWord := false, ownedLost := false, pendingTarget := none,
    anchors := Vector.replicate 4 { digest := List.replicate 32 0, purpose := 0, state := .empty },
    counters := Vector.replicate 256 0, badCounters := [], bkCheck := List.replicate 32 0, x509Chain := [],
    gicDevice := [], log := .reset }

/-- Keys and identity after POR (R291, R292, R354, R502). -/
def Keys.reset : Keys :=
  { cdiDev := none, dRomext := List.replicate 32 0, cdiAlias := none, batchOpen := false, aliasReady := false,
    x509Alias := [], gicAlias := [], gicEarlier := [], kSeal := none, sealSerial := 0, entropyFailed := false, udsLocked := false,
    debugUnlocked := false, tapIr := .bypass }

/-- The backup domain after a BACKUP-LOSS (R504, R468, R471). -/
def Backup.reset : Backup :=
  { marker := 0, key := List.replicate 32 0, pending := false, continuityLost := false, vbakLow := false, buffer := [],
    lost := 0, encEnable := 0, encDebounce := 0, encOpen := 0 }

/-- A Levee kind word after POR (R470). -/
def LeveeKind.reset (k : Nat) : LeveeKind :=
  { d1Active := false, d2Active := false, scope := if k = 2 then 0 else if k = 8 ∨ k = 9 ∨ k = 11 then 0b10 else 0b01,
    scopeLocked := false, alarms := 0, disagrees := 0, testD1Fail := false, testD2Fail := false, lastTest := 0 }

/-- An empty Levee alarm record (R460). -/
def AlarmRec.empty : AlarmRec :=
  { kinds := 0, d1Fired := 0, d2Fired := 0, scope := 0, valid := false, time := 0, encPairs := 0, meshTraces := 0 }

/-- Levee after POR (R460, R470). -/
def Levee.reset : Levee :=
  { kinds := Vector.ofFn fun k => .reset k.val, alarm := .empty, latched := [], holding := false, lastRound := 0 }

/-- The class an engine of the Riffle pool is reserved to at firmware start (R323). -/
def Riffle.reserveOf (i : Nat) : Option (Fin 5) :=
  if i = 8 ∨ i = 9 then some 0 else if i = 10 then some 4 else if 11 ≤ i ∧ i ≤ 13 then some 1
  else if 14 ≤ i ∧ i ≤ 16 then some 2 else if 17 ≤ i ∧ i ≤ 19 then some 3 else none

/-- The class a Mandrel is reserved to at firmware start (R323). -/
def Mandrel.reserveOf (m : Nat) : Option (Fin 5) :=
  if m ≤ 1 then some 1 else if m ≤ 3 then some 2 else if m = 4 then some 3 else none

/-- Confluence after POR (R320 to R338). -/
def Confluence.reset : Confluence :=
  { queue := [],
    riffles := Vector.ofFn fun i =>
      { inService := true, reserve := Riffle.reserveOf i.val, job := none, suspended := [], boundTo := none },
    mandrels := Vector.ofFn fun m =>
      { inService := true, reserve := Mandrel.reserveOf m.val, job := none, owner := .none, secret := false,
        wiping := false, lastUse := 0, mem := [] },
    counts := Vector.replicate 5 { jobsDone := 0, preempted := 0, queueFull := 0, waitMax := 0 }, sessions := [],
    nextSession := 1, lastPort := none, sealed := [], nextJob := 0, lastKat := Vector.replicate 24 0,
    lastJob := Vector.replicate 16 0, lengths := [] }

/-- Stolik with nothing open (R508, last row). -/
def Stolik.reset : Stolik :=
  { outbox := [], inFlight := [], waiting := [], parked := [], relayed := [], challenges := [], ops := [], opSeq := 0, bootCount := 0,
    uploads := [], pairs := [], targets := [], activations := [], held := [], nextHeld := 1, captures := [],
    shadows := [], snapshots := [], fetches := [], defaulted := [], keptUnused := [] }

/-- A link that is down (R528). -/
def Link.reset : Link :=
  { st := .down, signal := false, blocks := 0, member := none, peer := none, ours := [], seed := [], keyAB := [], keyBA := [],
    seqTx := 0, ackedTo := 0, retry := [], resends := 0, seqExt := 0, seqRx := 0, wire := [], line := [], swapped := false, tagFails := [],
    held := false }

/-- The fabric after POR. -/
def Fabric.reset : Fabric :=
  { links := Vector.replicate 4 .reset, routes := [], aseq := 0, reasm := [], seen := [], sent := [], nextMsg := 1,
    bridged := [], offsets := [], lastExchange := 0, syncId := 0, synced := false, slew := 0, offers := [],
    round := none, download := none, recovery := [], duplicate := false, alertIrq := false, timeSent := [] }

/-- No SPDM exchange (R295). -/
def Spdm.none : Spdm := { stage := 0, version := 0, vca := [], certs := [], meas := [] }

/-- A bus at its default (R512) with the strap address of straps tied to GND (R559). -/
def Bus.reset : Bus :=
  { role := 0b01, i3c := false, speed := 0, address := 0x40, restarts := 0, spdmOut := none, spdm := .none, ctrlOut := none, bridgeOut := none }

/-- The block right after POR: VSB has entered its window and step 1 of R182 has not yet run. Every value the manual
gives is that value; the others are those of assumptions 7 and 8. -/
def State.reset : State :=
  { pending := [], free := 0, tick := 0, time := 0, timeFrac := 0, timeSource := 0, mode := .held, warm := false,
    planned := false, running := Vector.replicate 4 false, romextRan := false, t1 := 0,
    lc := .manufacture, lanes := Vector.ofFn Lane.reset, engines := Vector.replicate 10 true,
    replacedEngines := Vector.replicate 10 false, mirror := [], pages := [], cacheBanks := 0,
    staging := [], resA := .reset, resB := .reset, chuck := .reset, fuses := .reset, nvm := .reset, keys := .reset,
    backup := .reset, weir := .reset, levee := .reset, conf := .reset, stolik := .reset, adm := none,
    fabric := .reset, buses := Vector.replicate 16 .reset, node := 0, assigned := false, linkEn := 0xF,
    timeRoot := false, eidBase := 0, bridge := [], snap := ⟨[]⟩, tempWarning := 900, defects := ⟨[], []⟩,
    patrolled := 0 }

end Sys2Proof.Machine
end

