-- ==== Sys2Proof/Machine/Ops.lean ====
section
/-! DEFINITION. The shared operations on State: access to lanes, hosts, links and stores, the passing of time, free
values, the ring-log queues, and the facts of a lane that its rules, remap windows and selects give. -/
namespace Sys2Proof.Machine
open Sys2Proof

/-! ### Access to the parts of State -/

def State.lane (s : State) (n : Fin 8) : Lane := s.lanes[n]
def State.modLane (s : State) (n : Fin 8) (f : Lane → Lane) : State := { s with lanes := vmod s.lanes n f }
def State.modLanes (s : State) (f : Fin 8 → Lane → Lane) : State := { s with lanes := vmapI s.lanes f }
def State.modChuck (s : State) (f : Chuck → Chuck) : State := { s with chuck := f s.chuck }
def State.host (s : State) (h : Fin 16) : HostState := s.chuck.hosts[h]
def State.modHost (s : State) (h : Fin 16) (f : HostState → HostState) : State :=
  s.modChuck fun c => { c with hosts := vmod c.hosts h f }
def State.modHosts (s : State) (f : Fin 16 → HostState → HostState) : State :=
  s.modChuck fun c => { c with hosts := vmapI c.hosts f }
def State.modHold (s : State) (h : Fin 16) (f : HoldWord → HoldWord) : State :=
  s.modHost h fun x => { x with hold := f x.hold }
def State.modNvm (s : State) (f : Nvm → Nvm) : State := { s with nvm := f s.nvm }
def State.modCommit (s : State) (f : Commit → Commit) : State := s.modNvm fun v => { v with commit := f v.commit }
def State.modLog (s : State) (f : RingLog → RingLog) : State := s.modNvm fun v => { v with log := f v.log }
def State.modKeys (s : State) (f : Keys → Keys) : State := { s with keys := f s.keys }
def State.modBackup (s : State) (f : Backup → Backup) : State := { s with backup := f s.backup }
def State.modWeir (s : State) (f : Weir → Weir) : State := { s with weir := f s.weir }
def State.modLevee (s : State) (f : Levee → Levee) : State := { s with levee := f s.levee }
def State.modConf (s : State) (f : Confluence → Confluence) : State := { s with conf := f s.conf }
def State.modStolik (s : State) (f : Stolik → Stolik) : State := { s with stolik := f s.stolik }
def State.modFabric (s : State) (f : Fabric → Fabric) : State := { s with fabric := f s.fabric }
def State.modLink (s : State) (k : Fin 4) (f : Link → Link) : State :=
  s.modFabric fun x => { x with links := vmod x.links k f }
def State.slot (s : State) (i : Fin 1024) : Slot := s.nvm.slots[i]
def State.modSlot (s : State) (i : Fin 1024) (f : Slot → Slot) : State :=
  s.modNvm fun v => { v with slots := vmod v.slots i f }
def State.modBus (s : State) (b : Fin 16) (f : Bus → Bus) : State := { s with buses := vmod s.buses b f }

def State.res (s : State) (r : Sel) : Reservoir :=
  match r with
  | .a => s.resA
  | .b => s.resB

def State.modRes (s : State) (r : Sel) (f : Reservoir → Reservoir) : State :=
  match r with
  | .a => { s with resA := f s.resA }
  | .b => { s with resB := f s.resB }

/-- The other of two selects or Reservoirs. -/
def otherSel : Sel → Sel
  | .a => .b
  | .b => .a

/-- The index of a window entry WIN[n][w] of the commit record (R280). -/
def winIx (n w : Fin 8) : Fin 64 := ⟨8 * n.val + w.val, by omega⟩

/-- WIN[n][w] (R280). -/
def State.win (s : State) (n w : Fin 8) : WinEntry := s.nvm.commit.wins[winIx n w]

def State.modWin (s : State) (n w : Fin 8) (f : WinEntry → WinEntry) : State :=
  s.modCommit fun c => { c with wins := vmod c.wins (winIx n w) f }

/-- The named number as an index, where it is one. -/
def fin? (n : Nat) {m : Nat} : Option (Fin m) := if h : n < m then some ⟨n, h⟩ else none

/-! ### Time (R7, R8, R515) -/

/-- Slow ticks in a second (R7). -/
def ticksPerSec : Nat := 32768

/-- The ns in a second. -/
def nsPerSec : Nat := 1000000000

/-- What one slow tick can remove of an offset at 1,000 ppm, in 1/16 ns (R545). -/
def slewStep : Int := 488

/-- The greatest device time: the clock is 64 bits wide and does not wrap (R8; assumption 60). -/
def timeMax : Nat := 2 ^ 64 - 1

/-- One slow tick: the tick count and device time advance (R7, R515; assumption 1). 1/32,768 s is 3,906,250/128 ns; an
offset that is being removed makes it longer or shorter (R545). -/
def idleTick (s : State) : State :=
  let d := max (-slewStep) (min slewStep s.fabric.slew)
  let t := s.timeFrac + ((3906250 : Int) + 8 * d).toNat
  { s with
    tick := s.tick + 1
    timeFrac := t % 128
    time := min timeMax (s.time + t / 128)
    fabric := { s.fabric with slew := s.fabric.slew - d } }

/-- Low 32 bits of the slow-tick count. -/
def State.tick32 (s : State) : Nat := s.tick % 2 ^ 32

/-! ### Free values (assumption 4) -/

/-- n bytes from the entropy source. -/
def drawBytes (n : Nat) (s : State) : Bytes × State :=
  ((List.range n).map fun k => Config.freeByte (s.free + k), { s with free := s.free + n })

/-- A free number. -/
def drawNat (s : State) : Nat × State := (Config.freeNat s.free, { s with free := s.free + 1 })

/-- A free choice. -/
def drawBit (s : State) : Bool × State := (Config.freeBit s.free, { s with free := s.free + 1 })

/-! ### The ring-log queues (R472, R476) -/

/-- Entries a producer's queue holds (R476). The ROM, the NVM controller and the Tenons are taken as firmware and as
hardware queues respectively (DESIGN CHOICE, assumption 10). -/
def queueDepth (origin : Nat) : Nat := if origin ≤ 1 then 256 else 16

/-- Queues an entry with the time of its event. A full queue drops it, and the producer's next entry is preceded by
LOG_DROPPED with the count (R476, R477). -/
def logAt (time : Nat) (type : Nat) (origin : Nat) (data : Bytes) (s : State) : State :=
  s.modLog fun l =>
    let o : Byte := BitVec.ofNat 8 origin
    let e : LogReq := ⟨time, BitVec.ofNat 16 type, o, padTo (data.take 12) 12⟩
    if queueDepth origin ≤ (l.queue.filter fun q => q.origin == o).length then
      { l with
        dropped := l.dropped + 1
        drops := match l.drops.find? (fun d => d.1 == o) with
          | none => l.drops ++ [(o, 1)]
          | some _ => l.drops.map fun d => if d.1 == o then (o, d.2 + 1) else d }
    else
      match l.drops.find? (fun d => d.1 == o) with
      | none => { l with queue := l.queue ++ [e] }
      | some d =>
        { l with
          queue := l.queue ++ [⟨time, 0x00F0, o, padTo ([o, 0, 0, 0] ++ leBytes 4 d.2) 12⟩, e]
          drops := l.drops.filter fun x => x.1 != o }

/-- Queues an entry with the present device time. -/
def logNow (type origin : Nat) (data : Bytes) (s : State) : State := logAt s.time type origin data s

/-- ORIGIN of lane n (R472). -/
def originLane (n : Fin 8) : Nat := 0x10 + n.val

/-- CHAIN_SEED (R472). -/
def chainSeed (s : State) : Bytes := hH (0x08 :: leBytes 8 s.fuses.serial.toNat)

/-- The first 32 bytes of an entry as stored (R472). -/
def entryHead (n : Nat) (q : LogReq) : Bytes :=
  leBytes 8 n ++ leBytes 8 q.time ++ leBytes 2 q.type.toNat ++ [q.origin, 0] ++ q.data

/-- CHAIN of a new entry (R472). -/
def entryChain (prev : Bytes) (n : Nat) (q : LogReq) : Bytes := hH (0x07 :: prev ++ entryHead n q)

/-- The 64 bytes of a stored entry as they are read (R472): an uncorrectable word reads as zero (R491). -/
def entryBytes (e : LogEntry) : Bytes :=
  (chunksOf 8 (entryHead e.number ⟨e.time, e.type, e.origin, e.data⟩ ++ e.chain)).zipIdx.flatMap fun x =>
    if e.bad.getLsbD x.2 then zeros 8 else x.1

/-- The slots of the ring log (R472). -/
def logSlots : Nat := 65536

/-- OLDEST (R474). -/
def logOldest (l : RingLog) : Nat :=
  match l.anchor with
  | none => 0
  | some a => a.1 + 1

/-- HEAD_CHAIN (R478). -/
def headChain (s : State) : Bytes := s.nvm.log.head.getD (chainSeed s)

/-- The slot of the next entry is given up by the entry that it holds, whose number and CHAIN become the anchor (R474,
R478). -/
def giveSlot (l : RingLog) : RingLog :=
  match decide (logSlots ≤ l.entries.length), l.entries with
  | true, o :: rest =>
    { l with
      entries := rest
      anchor := some (o.number, o.chain)
      lostUnexported := if l.exportedTo ≤ o.number then l.lostUnexported + 1 else l.lostUnexported }
  | _, _ => l

/-- Writes one entry into its slot (R473, R474, R478). -/
def logWrite (q : LogReq) (s : State) : State :=
  let c := entryChain (headChain s) s.nvm.log.count q
  s.modLog fun l0 =>
    let l := giveSlot l0
    let e : LogEntry := ⟨l.count, q.time, q.type, q.origin, q.data, c, 0⟩
    { l with entries := l.entries ++ [e], count := l.count + 1, head := some c }

/-- Entries that have not reached the ring log. -/
def RingLog.waiting (l : RingLog) : List LogReq := l.writing.toList ++ l.queue

/-- The entries that Headstock firmware holds in its SRAM are lost at any reset (R476). -/
def dropFirmwareQueue (s : State) : State :=
  s.modLog fun l => { l with queue := l.queue.filter fun q => q.origin != 0x01 }

/-- A write of the ring log that is under way is cut off, and its entry is lost (R475). -/
def cutWrite (s : State) : State := s.modLog fun l => { l with writing := none }

/-! ### Rules, remap windows and chip selects (R34, R49 to R53, R84, R86) -/

/-- The bytes of one unit. -/
def unitBytes : Nat := 4096

/-- The modes in the order of R29. -/
def protoBit : Proto → Nat
  | .s111 => 0
  | .s112 => 1
  | .s122 => 2
  | .s114 => 3
  | .s144 => 4
  | .d444 => 5
  | .s888 => 6
  | .d888 => 7

/-- SCK maximum of a mode in MHz (R29). -/
def protoMax : Proto → Nat
  | .s111 => 133
  | .s112 => 133
  | .s122 => 133
  | .s114 => 133
  | .s144 => 133
  | .d444 => 100
  | .s888 => 166
  | .d888 => 200

/-- The mode is set in MODE_MASK (R34). -/
def modeSet (c : LaneCfg) (p : Proto) : Bool := c.modeMask.getLsbD (protoBit p)

/-- P_lane (R28). -/
def pLane (c : LaneCfg) : Nat := if c.fmax ≤ 100 then 2 else if c.fmax ≤ 166 then 3 else 4

/-- HOST_SIZE of a host chip select, in units. -/
def hostSize (c : LaneCfg) (k : Fin 2) : Nat := if k = 0 then c.host0 else c.host1

/-- FLASH_SIZE of a flash chip select, in units. -/
def flashSize (c : LaneCfg) (k : Fin 2) : Nat := if k = 0 then c.flash0 else c.flash1

/-- The units of the lane address space (R34, R50). -/
def laneUnits (c : LaneCfg) : Nat := c.host0 + c.host1

/-- The lane unit of a host unit on a chip select (the merge before R49). -/
def mergeUnit (c : LaneCfg) (k : Fin 2) (u : Nat) : Nat := if k = 0 then u else c.host0 + u

/-- The precedence of R86 between the winner so far and the next entry that covers the unit. -/
def betterRule (best : Option (Nat × RuleEntry)) (i : Nat) (e : RuleEntry) : Option (Nat × RuleEntry) :=
  match best with
  | none => some (i, e)
  | some b =>
    if b.2.priority < e.priority then some (i, e)
    else if e.priority = b.2.priority ∧ e.len < b.2.len then some (i, e)
    else best

/-- The walk of R86 over the entries from index i on. -/
def winnerFrom (u : Nat) : Nat → List RuleEntry → Option (Nat × RuleEntry) → Option (Nat × RuleEntry)
  | _, [], best => best
  | i, e :: es, best =>
    winnerFrom u (i + 1) es
      (if e.len ≠ 0 ∧ e.base ≤ u ∧ u < e.base + e.len then betterRule best i e else best)

/-- The winner of a unit (R86). -/
def winner (rules : List RuleEntry) (u : Nat) : Option (Nat × RuleEntry) := winnerFrom u 0 rules none

/-- The access class of a unit; none counts as DENY (R86, R88). -/
def accessOf (rules : List RuleEntry) (u : Nat) : Access :=
  match winner rules u with
  | none => .deny
  | some w => w.2.access

/-- The class is one that verification covers (R88). -/
def verifiedClass : Access → Bool
  | .readVerified => true
  | .mirrored => true
  | _ => false

/-- The remap window that holds a lane unit (R51, R52). -/
def windowOf (remap : Vector Remap 8) (u : Nat) : Option (Fin 8) :=
  (fins 8).find? fun w => decide (remap[w].base ≤ u ∧ u < remap[w].base + remap[w].len)

/-- The flash unit that a window's target gives (R52). -/
def targetUnit (r : Remap) (sel : Sel) (u : Nat) : Nat :=
  match sel with
  | .a => r.targetA + (u - r.base)
  | .b => r.targetB + (u - r.base)

/-- The flash unit of a lane unit under the given selects (R52). -/
def flashUnitSel (remap : Vector Remap 8) (sel : Fin 8 → Sel) (u : Nat) : Nat :=
  match windowOf remap u with
  | none => u
  | some w => targetUnit remap[w] (sel w) u

/-- The chip select split (R52): flash chip select and unit within it, none beyond both. -/
def splitUnit (c : LaneCfg) (f : Nat) : Option (Fin 2 × Nat) :=
  if f < c.flash0 then some (0, f)
  else if f < c.flash0 + c.flash1 then some (1, f - c.flash0)
  else none

/-- The selects in force on a lane (R52, R280). -/
def State.sels (s : State) (n : Fin 8) : Fin 8 → Sel := fun w => (s.win n w).select

/-- The flash chip select and unit that a lane unit maps to (R52). -/
def State.mapUnit (s : State) (n : Fin 8) (u : Nat) : Option (Fin 2 × Nat) :=
  splitUnit (s.lane n).cfg (flashUnitSel (s.lane n).remap (s.sels n) u)

/-- The host chip select reaches a flash chip select: some of its lane units map there, with either select of every
window (R600). It is enough to look at the ends of the identity runs and of the windows' targets. -/
def State.reaches (s : State) (n : Fin 8) (k f : Fin 2) : Bool :=
  let l := s.lane n
  let lo := mergeUnit l.cfg k 0
  let hi := lo + hostSize l.cfg k
  let inF := fun a b => -- units a to b - 1 of flash address space meet chip f
    let flo := if f = 0 then 0 else l.cfg.flash0
    let fhi := flo + flashSize l.cfg f
    decide (max a flo < min b fhi)
  let wins := (fins 8).filter fun w => decide (0 < l.remap[w].len)
  -- the edges between which the lane units are all in one window or all outside
  let cuts := (lo :: hi :: wins.flatMap fun w => [l.remap[w].base, l.remap[w].base + l.remap[w].len]).filter
    fun x => decide (lo ≤ x ∧ x ≤ hi)
  cuts.any fun a =>
    if hi ≤ a then false
    else
      let b := (cuts.filter fun x => decide (a < x)).foldl min hi
      match windowOf l.remap a with
      | none => inF a b
      | some w =>
        inF (targetUnit l.remap[w] .a a) (targetUnit l.remap[w] .a a + (b - a))
          || inF (targetUnit l.remap[w] .b a) (targetUnit l.remap[w] .b a + (b - a))

/-- The flash chip selects that a host chip select reaches (R600). -/
def State.reachList (s : State) (n : Fin 8) (k : Fin 2) : List (Fin 2) :=
  (fins 2).filter fun f => s.reaches n k f

/-- Flash chip select k is enabled with a non-zero size (R600). -/
def flashEnabled (c : LaneCfg) (k : Fin 2) : Bool :=
  decide (0 < flashSize c k) && (if k = 0 then c.enable else c.flashCs1)

/-- The primary flash of a host chip select (R600). -/
def primaryFlash (c : LaneCfg) (k : Fin 2) : Fin 2 := if flashEnabled c k then k else 0

/-- The chip select answers (R49). -/
def csAnswers (c : LaneCfg) (k : Fin 2) : Bool :=
  decide (0 < hostSize c k) && (if k = 0 then (if c.enable then true else c.mailbox) else c.hostCs1)

/-! ### Leaves (R110, R153) -/

/-- The leaf of a region that covers a lane unit. -/
def leafIn (m : HostManifest) (r : Nat) (u : Nat) : Option LeafRef :=
  match m.regions[r]? with
  | none => none
  | some g =>
    if g.base ≤ u ∧ u < g.base + g.len ∧ 0 < g.leafUnits then some ⟨r, (u - g.base) / g.leafUnits⟩ else none

/-- Bytes of a leaf (R153). -/
def leafSize (m : HostManifest) (r : Nat) : Nat :=
  match m.regions[r]? with
  | none => 0
  | some g => g.leafUnits * unitBytes

/-- First lane unit of a leaf (R110). -/
def leafBase (m : HostManifest) (l : LeafRef) : Nat :=
  match m.regions[l.region]? with
  | none => 0
  | some g => g.base + l.leaf * g.leafUnits

/-- The lane units of a leaf. -/
def leafUnitList (m : HostManifest) (l : LeafRef) : List Nat :=
  match m.regions[l.region]? with
  | none => []
  | some g => (List.range g.leafUnits).map fun k => g.base + l.leaf * g.leafUnits + k

/-- An UNVERIFIED leaf without a mirror copy (R110). -/
def LeafState.fresh : LeafState := ⟨.unverified, false⟩

/-- The state of a leaf (R110). -/
def Lane.leafState (l : Lane) (r : LeafRef) : LeafState := ((l.leaves[r.region]?).bind fun x => x[r.leaf]?).getD .fresh

def Lane.modLeaf (l : Lane) (r : LeafRef) (f : LeafState → LeafState) : Lane :=
  { l with leaves := lmod l.leaves r.region fun x => lmod x r.leaf f }

/-- Every leaf of a manifest in its fresh state (R110). -/
def freshLeaves (m : HostManifest) : List (List LeafState) :=
  m.regions.map fun g => List.replicate g.leafCount .fresh

/-- Every leaf of a manifest, in region and leaf order. -/
def allLeaves (m : HostManifest) : List LeafRef :=
  m.regions.zipIdx.flatMap fun x => (List.range x.1.leafCount).map fun i => ⟨x.2, i⟩

/-- The leaf as Virund reads it is on these flash chips. -/
def State.leafChips (s : State) (n : Fin 8) (l : LeafRef) : List (Fin 2) :=
  match (s.lane n).manifest with
  | none => []
  | some m => ((leafUnitList m l).filterMap fun u => (s.mapUnit n u).map Prod.fst).eraseDups

/-- The manifest of a lane's other slot, of a LANDED or PREVIOUS image (R280). -/
def State.pendingManifest (s : State) (n : Fin 8) : Option Bytes :=
  if (s.nvm.commit.lanes[n]).active then s.nvm.manifest0[n] else s.nvm.manifest1[n]

/-- MANIFEST_ID of a stored manifest, zero where there is none (R151). -/
def manifestIdOf (b : Option Bytes) : Nat := (b.map fun x => u64 x 0x18).getD 0

/-- The rules that decide on the lane's leaves: the accepted set that platform verification uses provisionally, else the
set in force (R198). -/
def Lane.ruleSet (l : Lane) : List RuleEntry := l.pv.rules.getD l.rules

/-- The rule entry whose action applies to a leaf: the winner of the first of its units that wins as READ_VERIFIED or
MIRRORED (R132). -/
def Lane.leafRule (l : Lane) (r : LeafRef) : Option RuleEntry :=
  match l.manifest with
  | none => none
  | some m =>
    ((leafUnitList m r).filterMap fun u =>
      match winner l.ruleSet u with
      | none => none
      | some w => if verifiedClass w.2.access then some w.2 else none).head?

/-- The mismatch action of a leaf (R132). -/
def Lane.leafAction (l : Lane) (r : LeafRef) : MisAction := ((l.leafRule r).map (·.action)).getD .log

/-- Some unit of the leaf wins as MIRRORED (R111, R135). -/
def Lane.leafMirrored (l : Lane) (r : LeafRef) : Bool :=
  match l.manifest with
  | none => false
  | some m => (leafUnitList m r).any fun u => accessOf l.ruleSet u == .mirrored

/-- The proved digest of a leaf, none while its page is not resident (R113, R114). -/
def Lane.leafDigest? (l : Lane) (r : LeafRef) : Option Bytes :=
  ((l.digests[r.region]?).bind fun x => x[r.leaf]?).getD none

/-- The action takes the host's data from a Reservoir (R132). -/
def redirects : MisAction → Bool
  | .redirect => true
  | .holdRedirect => true
  | _ => false

/-- The action holds the host (R132). -/
def holds : MisAction → Bool
  | .hold => true
  | .holdRedirect => true
  | _ => false

/-! ### Reservoirs (R131, R138, R139) -/

/-- The directory entry of a lane. -/
def Reservoir.laneEntry (r : Reservoir) (n : Fin 8) : Option DirEntry :=
  r.dir.find? fun e => !e.isSet && e.index == n.val

/-- A region of a lane is redirect-ready on a Reservoir (R138). -/
def State.redirectReady (s : State) (x : Sel) (n : Fin 8) (region : Nat) : Bool :=
  let r := s.res x
  r.present && !r.held && !(r.withdrawn.contains (n, region)) &&
    match r.laneEntry n, (s.lane n).manifest with
    | some e, some m =>
      decide (e.state = .complete) &&
        (match e.roots[region]?, m.regions[region]? with
          | some root, some g => decide (root = g.root)
          | _, _ => false)
    | _, _ => false

/-- The Reservoir that a lane has claimed, with whether the claim is in effect (R139). -/
def State.claimOf (s : State) (n : Fin 8) : Option (Sel × Bool) :=
  match s.resA.claim, s.resB.claim with
  | some c, d =>
    if c.lane = n then some (.a, c.inEffect)
    else match d with
      | some e => if e.lane = n then some (.b, e.inEffect) else none
      | none => none
  | none, some e => if e.lane = n then some (.b, e.inEffect) else none
  | none, none => none

/-- The Reservoir of the lane's claim that is in effect (R139). -/
def State.claimed (s : State) (n : Fin 8) : Option Sel :=
  match s.claimOf n with
  | some (x, true) => some x
  | _ => none

/-- "Served from a Reservoir" (R133). -/
def State.servedFromReservoir (s : State) (n : Fin 8) (l : LeafRef) : Option Sel :=
  (s.claimed n).filter fun x => s.redirectReady x n l.region && !((s.res x).defects.contains (n, l))

/-- Sources of a unit (R55) with the poison reason code (R48). -/
inductive Source where
  | flash
  | mirror
  | reservoir (x : Sel)
  | poison (reason : Nat)
deriving DecidableEq, Repr

/-- The source of a unit that wins as READ_VERIFIED or MIRRORED (R133). -/
def State.verifiedSource (s : State) (n : Fin 8) (e : RuleEntry) (l : LeafRef) : Source :=
  let st := (s.lane n).leafState l
  match e.access with
  | .mirrored =>
    if st.mirrorValid then .mirror
    else match s.servedFromReservoir n l with
      | some x => .reservoir x
      | none => .poison 0x07
  | _ =>
    match st.flash with
    | .good => .flash
    | .unverified => .poison 0x07
    | .bad =>
      if e.action = .log then .flash
      else match redirects e.action, s.servedFromReservoir n l with
        | true, some x => .reservoir x
        | _, _ => .poison 0x07
    | .error =>
      if e.action = .log then .flash
      else match redirects e.action, s.servedFromReservoir n l with
        | true, some x => .reservoir x
        | _, _ => .poison 0x08

/-- The source of a unit of a read under some rules (R88, R133). -/
def State.sourceUnder (rules : List RuleEntry) (s : State) (n : Fin 8) (u : Nat) : Source :=
  match winner rules u with
  | none => .poison 0x01
  | some w =>
    match w.2.access with
    | .deny => .poison 0x01
    | .stageWrite => .poison 0x01
    | .read => .flash
    | .openFlash => .flash
    | _ =>
      match ((s.lane n).manifest.bind fun m => leafIn m w.2.region u) with
      | none => .poison 0x07
      | some l => s.verifiedSource n w.2 l

/-- The source of a unit of a read under the rules in force. -/
def State.unitSource (s : State) (n : Fin 8) (u : Nat) : Source := s.sourceUnder (s.lane n).rules n u

/-- A leaf of the lane needs a Reservoir (R139): its action redirects, it is BAD or ERROR and not mirrored; or it is a
MIRRORED leaf without MIRROR_VALID. -/
def Lane.leafNeeds (l : Lane) (r : LeafRef) : Bool :=
  let st := l.leafState r
  if l.leafMirrored r then !st.mirrorValid
  else redirects (l.leafAction r) && !st.mirrorValid && (st.flash == .bad || st.flash == .error)

/-- The leaves of a lane that need a Reservoir. -/
def Lane.needy (l : Lane) : List LeafRef :=
  match l.manifest with
  | none => []
  | some m => (allLeaves m).filter l.leafNeeds

/-- The regions of a lane with a leaf that needs a Reservoir, in order. -/
def Lane.needyRegions (l : Lane) : List Nat := ((l.needy).map (·.region)).eraseDups

/-- A lane takes a port; a write in progress there is suspended (R139, R273). -/
def takeClaim (n : Fin 8) (x : Sel) (s : State) : State :=
  s.modRes x fun r => { r with claim := some ⟨n, false⟩, suspended := r.suspended || r.refreshing.isSome }

/-- Requests a claim for a lane on the port of R139, where one is free and the region is redirect-ready on it. -/
def requestClaim (n : Fin 8) (region : Nat) (s : State) : State :=
  match s.claimOf n with
  | some _ => s
  | none =>
    let first := (s.lane n).verify.resPref
    let ok := fun x => (s.res x).claim.isNone && s.redirectReady x n region
    let s1 := s.modLane n fun l => { l with claimWanted := true }
    if ok first then takeClaim n first s1 else if ok (otherSel first) then takeClaim n (otherSel first) s1 else s1

/-- Requests a claim for the first region that needs a Reservoir and that one can serve (R139). -/
def requestClaims (n : Fin 8) (s : State) : State := ((s.lane n).needyRegions).foldl (fun s r => requestClaim n r s) s

/-! ### Operations (R404) -/

/-- Opens an operation: its OP_ID holds the boot count and the next sequence (R404). -/
def newOp (s : State) : Word × State :=
  let id : Word := BitVec.ofNat 32 (s.stolik.bootCount.toNat * 2 ^ 24 + s.stolik.opSeq % 2 ^ 24)
  (id, s.modStolik fun k =>
    { k with opSeq := (k.opSeq + 1) % 2 ^ 24, ops := k.ops ++ [⟨id, false, .accepted, 0, 0, 0⟩] })

/-- Operations that have ended, the 256 newest of them kept (R404). -/
def trimOps (l : List OpRec) : List OpRec :=
  let extra := (l.filter (·.ended)).length - 256
  let old := ((l.filter (·.ended)).take extra).map (·.id)
  l.filter fun o => !(o.ended && old.contains o.id)

/-- Ends an operation with a result (R404). An ended operation goes to the back of the list. -/
def endOp (id : Word) (r : Res) (detail : Nat) (s : State) : State :=
  s.modStolik fun k =>
    match k.ops.find? fun o => o.id == id && !o.ended with
    | none => k
    | some o =>
      { k with
        ops := trimOps (drop? k.ops (fun x => x.id == id)
          ++ [{ o with ended := true, result := r, detail := BitVec.ofNat 32 detail, endedAt := s.time }]) }

/-- Ends an operation where there is one. -/
def endOp? (id : Option Word) (r : Res) (detail : Nat) (s : State) : State :=
  match id with
  | none => s
  | some i => endOp i r detail s

/-- PROGRESS of an operation (R406). -/
def setProgress (id : Word) (n : Nat) (s : State) : State :=
  s.modStolik fun k => { k with ops := k.ops.map fun o => if o.id == id then { o with progress := BitVec.ofNat 32 n } else o }

/-! ### Hosts of a lane (R16, R226) -/

/-- LANE_MASK of a host names the lane (R16, R241). -/
def State.hostOn (s : State) (h : Fin 16) (n : Fin 8) : Bool := (s.host h).hold.laneMask.getLsbD n.val

/-- The hosts whose release depends on a lane (R16). -/
def State.laneHosts (s : State) (n : Fin 8) : List (Fin 16) := (fins 16).filter fun h => s.hostOn h n

/-- Chuck holds every host of the lane in reset (R64). A lane that no host names has none to hold. -/
def State.hostHeld (s : State) (n : Fin 8) : Bool := (s.laneHosts n).all fun h => (s.host h).resetAsserted

/-- Work, a frame, a captured byte or an event takes Virund from IDLE to RUN (R216, R217). -/
def wakeIdle (s : State) : State := if s.chuck.power = .idle then s.modChuck fun c => { c with power := .run } else s

/-- A Reservoir flash is accessed: RST_N of its port is high from the first access on (R564). -/
def openRes (x : Sel) (s : State) : State := s.modRes x fun r => { r with rstHigh := true }

/-- The domains of pooled engines that stay powered in RUN and IDLE (R326): group 0 and Mandrel[4], which VSB alone does not
serve (R212, R327). -/
def reservePd (fromVsb : Bool) : List Nat := if fromVsb then [34] else [34, 46]

/-! ### I/O banks (R557, R561, R568) -/

/-- Some port of the bank is in use: its lane is enabled, has a mailbox or has a host; its Reservoir's flash answers; or one
of its management buses has a role (R557, R568). -/
def State.ioUsed (s : State) (k : Fin 22) : Bool :=
  if k.val < 16 then
    let n := Fin.ofNat 8 k.val
    (s.lane n).cfg.enable || (s.lane n).cfg.mailbox || !(s.laneHosts n).isEmpty
  else if k.val = 16 then s.resA.present
  else if k.val = 17 then s.resB.present
  else (fins 4).any fun j => (s.buses[Fin.ofNat 16 (4 * (k.val - 18) + j.val)]).role != 0

/-- A configuration that comes into force powers the banks whose ports it uses; none is powered down (R561). -/
def powerBanks (s : State) : State := s.modChuck fun c => { c with ioOn := vmapI c.ioOn fun k on => on || s.ioUsed k }

/-- A firmware start powers down every bank in which every port is unused (R561). -/
def trimBanks (s : State) : State := s.modChuck fun c => { c with ioOn := vmapI c.ioOn fun k _ => s.ioUsed k }

end Sys2Proof.Machine
end

