-- ==== Sys2Proof/Machine/Sfdp.lean ====
section
/-! DEFINITION. The SFDP of a guarded flash: what the Spindle reads in it, and the image that a host sees (R27, R35, R59
to R61, R197, R594). The places of the fields are those of JESD216, which the manual names and does not repeat
(PRESUMED, assumption 54). -/
namespace Sys2Proof.Machine
open Sys2Proof

/-! ### Tables and fields -/

/-- A parameter table: its ID, its parameter header and its bytes. -/
structure SfdpTable where
  id : Nat
  head : Bytes
  body : Bytes
deriving DecidableEq, Repr

/-- The flash has answered with an SFDP. -/
def hasSfdp (b : Bytes) : Bool := b.take 4 == [0x53, 0x46, 0x44, 0x50]

/-- Every table that the parameter headers name. -/
def sfdpTables (b : Bytes) : List SfdpTable :=
  if hasSfdp b then
    (List.range (u8 b 6 + 1)).map fun i =>
      let h := slice b (8 + 8 * i) 8
      ⟨u8 h 0 + 256 * u8 h 7, h, padTo (slice b (field h 4 3) (4 * u8 h 3)) (4 * u8 h 3) 0xFF⟩
  else []

/-- The IDs of the tables kept, in the order of R59. -/
def idBasic : Nat := 0xFF00
def idSector : Nat := 0xFF81
def idFourByte : Nat := 0xFF84
def idProfile : Nat := 0xFF05
def idOctalSeq : Nat := 0xFF0A
def keptIds : List Nat := [idBasic, idSector, idFourByte, idProfile, idOctalSeq]

/-- The table with an ID; of several, the first. -/
def sfdpTable (b : Bytes) (id : Nat) : Option SfdpTable := (sfdpTables b).find? fun t => t.id == id

/-- The bytes of the table with an ID, none of them where the flash has no such table. -/
def sfdpBody (b : Bytes) (id : Nat) : Bytes := ((sfdpTable b id).map (·.body)).getD []

/-- DWORD k of a table, counted from 1. -/
def dword (t : Bytes) (k : Nat) : Nat := u32 t (4 * (k - 1))

/-- The table reaches DWORD k. -/
def hasDword (t : Bytes) (k : Nat) : Bool := decide (4 * k ≤ t.length)

/-- A number with bits hi..lo replaced. -/
def setBits (v hi lo x : Nat) : Nat := v - bits v hi lo * 2 ^ lo + x % 2 ^ (hi + 1 - lo) * 2 ^ lo

/-- DWORD k of a table changed by f, where the table reaches it. -/
def setDword (k : Nat) (f : Nat → Nat) (t : Bytes) : Bytes :=
  if hasDword t k then overwrite t (4 * (k - 1)) (leBytes 4 (f (dword t k))) else t

/-! ### What the flash requires -/

/-- D_flash of a mode: the wait states and mode clocks that the flash's tables give for it at a frequency in MHz (R27).
Fast Read has the eight of JESD216 in every flash. The tables have no field for 8S-8S-8S, which takes that of
8D-8D-8D. -/
def waitOf (b : Bytes) (mhz : Nat) (m : Proto) : Nat :=
  let t := sfdpBody b idBasic
  let low := fun k => bits (dword t k) 4 0 + bits (dword t k) 7 5
  let high := fun k => bits (dword t k) 20 16 + bits (dword t k) 23 21
  let p := sfdpBody b idProfile
  let octal :=
    if mhz ≤ 100 then bits (dword p 5) 11 7
    else if mhz ≤ 133 then bits (dword p 5) 21 17
    else if mhz ≤ 166 then bits (dword p 5) 31 27
    else bits (dword p 4) 11 7
  match m with
  | .s111 => 8
  | .s112 => low 4
  | .s122 => high 4
  | .s114 => high 3
  | .s144 => low 3
  | .d444 => high 23
  | .s888 => octal
  | .d888 => octal

/-- D_flash of a mode under a lane configuration: at the lesser of HOST_FMAX and the mode's SCK maximum (R27). -/
def dFlash (b : Bytes) (c : LaneCfg) (m : Proto) : Nat := waitOf b (min c.fmax (protoMax m)) m

/-- D_host of a mode (R27). -/
def dHost (b : Bytes) (c : LaneCfg) (m : Proto) : Nat := dFlash b c m + pLane c

/-- The modes in the order of R29. -/
def protos : List Proto := [.s111, .s112, .s122, .s114, .s144, .d444, .s888, .d888]

/-- D_host of every mode kept is at most 31 (R61). -/
def dummyOk (c : LaneCfg) (b : Bytes) : Bool := protos.all fun m => !modeSet c m || decide (dHost b c m ≤ 31)

/-- A maximum operation speed of DWORD 20 in MHz, none where the mode is not supported; a speed that the flash does not
characterise sets no limit. -/
def speedOf (v : Nat) : Option Nat :=
  match v with
  | 1 => some 33
  | 2 => some 50
  | 3 => some 66
  | 4 => some 80
  | 5 => some 100
  | 6 => some 133
  | 7 => some 166
  | 15 => none
  | _ => some 200

/-- The greater of the speeds without and with a data strobe. -/
def speedAt (t : Bytes) (lo : Nat) : Option Nat :=
  if hasDword t 20 then
    match speedOf (bits (dword t 20) (lo + 3) lo), speedOf (bits (dword t 20) (lo + 7) (lo + 4)) with
    | some a, some b => some (max a b)
    | some a, none => some a
    | none, x => x
  else none

/-- The flash's own maximum SCK for a mode of R29, none where its SFDP does not advertise the mode. The SFDP states none
for the 1S modes, which R29 bounds alone. -/
def flashMax (b : Bytes) (m : Proto) : Option Nat :=
  let t := sfdpBody b idBasic
  let flag := fun (k i : Nat) => if (dword t k).testBit i then some (protoMax m) else none
  match m with
  | .s111 => some (protoMax m)
  | .s112 => flag 1 16
  | .s122 => flag 1 20
  | .s114 => flag 1 22
  | .s144 => flag 1 21
  | .d444 => if (dword t 21).testBit 3 then some ((speedAt t 8).getD (protoMax m)) else none
  | .s888 => speedAt t 16
  | .d888 => speedAt t 24

/-- Program page in bytes, 256 where the flash has not stated it (R92). -/
def flashPage (b : Bytes) : Nat :=
  let t := sfdpBody b idBasic
  if hasDword t 11 then 2 ^ bits (dword t 11) 7 4 else 256

/-! ### Opcodes that the flash names (R35, R594) -/

/-- The opcodes of the 4-byte Address Instruction table by bit of its first DWORD: opcode, whether it programs, and its
mode, none where R29 does not support it. -/
def fourByteBits : List (Nat × Byte × Bool × Option Proto) :=
  [(0, 0x13, false, some .s111), (1, 0x0C, false, some .s111), (2, 0x3C, false, some .s112), (3, 0xBC, false, some .s122),
   (4, 0x6C, false, some .s114), (5, 0xEC, false, some .s144), (6, 0x12, true, some .s111), (7, 0x34, true, some .s114),
   (8, 0x3E, true, some .s144)]
    ++ [(13, 0x0E, false, none), (14, 0xBE, false, none), (15, 0xEE, false, none), (20, 0x7C, false, none),
   (21, 0xCC, false, none), (22, 0xFD, false, none), (23, 0x84, true, none), (24, 0x8E, true, none)]

/-- The read and program opcodes that the 4-byte Address Instruction table names. -/
def fourByteAdded (b : Bytes) : List (Byte × Bool × Option Proto) :=
  let d := dword (sfdpBody b idFourByte) 1
  (fourByteBits.filter fun x => d.testBit x.1).map Prod.snd

/-- The read opcode that the xSPI Profile 1.0 table names, of mode 8D-8D-8D. -/
def profileAdded (b : Bytes) : List (Byte × Bool × Option Proto) :=
  match sfdpTable b idProfile with
  | none => []
  | some t => [(BitVec.ofNat 8 (bits (dword t.body 1) 15 8), false, some .d888)]

/-- The opcodes that the flash's tables add to the lane's opcode table (R35): opcode, whether it programs, its mode. -/
def addedOps (b : Bytes) : List (Byte × Bool × Option Proto) := fourByteAdded b ++ profileAdded b

/-- Every opcode that the flash's SFDP names (R594): those of the Basic Flash Parameter Table for reads, erases, suspend,
resume and power-down, of the 4-byte Address Instruction table, of the profile, of the Sector Map's detection commands
and of the octal sequences. -/
def sfdpNames (f : FlashTables) : List Byte :=
  let b := f.sfdp
  let t := sfdpBody b idBasic
  let at_ := fun (t : Bytes) (k lo : Nat) => BitVec.ofNat 8 (bits (dword t k) (lo + 7) lo)
  let basic := if t = [] then []
    else [at_ t 1 8, at_ t 3 8, at_ t 3 24, at_ t 4 8, at_ t 4 24, at_ t 6 24, at_ t 7 24, at_ t 8 8, at_ t 8 24, at_ t 9 8, at_ t 9 24,
      at_ t 13 0, at_ t 13 8, at_ t 13 16, at_ t 13 24, at_ t 14 15, at_ t 14 23, at_ t 17 8, at_ t 17 24, at_ t 22 8, at_ t 22 24,
      at_ t 23 8, at_ t 23 24]
  let four := sfdpBody b idFourByte
  let erases := (List.range 4).filterMap fun i =>
    if (dword four 1).testBit (9 + i) then some (at_ four 2 (8 * i)) else none
  let s := sfdpBody b idSector
  let detect := (List.range (s.length / 8)).filterMap fun i =>
    if (dword s (2 * i + 1)).testBit 1 then none else some (at_ s (2 * i + 1) 8)
  (basic ++ (addedOps b).map Prod.fst ++ erases ++ detect
    ++ ((f.octalIn ++ f.octalOut).filterMap fun c => c.head?)).filter fun x => x != 0

/-- The mailbox opcodes of R594 against the defaults and every opcode that the flash names. -/
def mailboxOpsOk (c : LaneCfg) (defaults : List Byte) (fs : List FlashTables) : Bool :=
  let ms := [c.opWrite, c.opRead, c.opStatus]
  c.opWrite != c.opRead && c.opWrite != c.opStatus && c.opRead != c.opStatus
    && ms.all fun m => !defaults.contains m && !(fs.any fun f => (sfdpNames f).contains m)

/-! ### The synthesised image (R59) -/

/-- The mode is kept: set in MODE_MASK and advertised by the flash. -/
def modeKept (b : Bytes) (c : LaneCfg) (m : Proto) : Bool := modeSet c m && (flashMax b m).isSome

/-- Wait states and mode clocks of a read mode in a DWORD of the Basic Flash Parameter Table: D_host and 0 where the mode
is kept (R36, R59). -/
def editWait (b : Bytes) (c : LaneCfg) (m : Proto) (hi : Bool) (v : Nat) : Nat :=
  let o := if hi then 16 else 0
  if modeKept b c m then setBits v (o + 7) o (dHost b c m) else v

/-- A support bit, cleared unless the mode is kept. -/
def editFlag (b : Bytes) (c : LaneCfg) (m : Proto) (i v : Nat) : Nat := if modeKept b c m then v else setBits v i i 0

/-- The speeds of a mode in DWORD 20, "not supported" unless the mode is kept. -/
def editSpeed (b : Bytes) (c : LaneCfg) (m : Proto) (lo v : Nat) : Nat :=
  if modeKept b c m then v else setBits v (lo + 7) lo 0xFF

/-- HOST_SIZE in units as the density field states it: the number of bits less one up to 2 Gbit, above it the power of two
with bit 31 set. -/
def densityOf (units : Nat) : Nat :=
  let n := units * unitBytes * 8
  if n ≤ 2 ^ 31 then n - 1 else 2 ^ 31 + n.log2

/-- The Basic Flash Parameter Table with the edits of R59: density, support bits, wait states and mode clocks,
continuous reads, and chip erase. -/
def editBasic (b : Bytes) (c : LaneCfg) (cs : Fin 2) (t : Bytes) : Bytes :=
  let e := fun (k : Nat) (f : Nat → Nat) (t : Bytes) => setDword k f t
  e 1 (fun v => editFlag b c .s112 16 (editFlag b c .s122 20 (editFlag b c .s144 21 (editFlag b c .s114 22 v))))
    <| e 2 (fun _ => densityOf (hostSize c cs))
    <| e 3 (fun v => editWait b c .s144 false (editWait b c .s114 true v))
    <| e 4 (fun v => editWait b c .s112 false (editWait b c .s122 true v))
    <| e 5 (fun v => setBits (setBits v 0 0 0) 4 4 0)
    <| e 11 (fun v => setBits v 30 24 (Config.chipEraseUnsupported (bits v 30 24)))
    <| e 15 (fun v => setBits v 19 9 0)
    <| e 17 (fun _ => 0)
    <| e 19 (fun v => setBits (if modeKept b c .s888 then v else setBits v 8 0 0) 19 9 0)
    <| e 20 (fun v => setBits (editSpeed b c .d444 8 (editSpeed b c .s888 16 (editSpeed b c .d888 24 v))) 7 0 0xFF)
    <| e 21 (fun v => setBits (editFlag b c .d444 3 v) 2 0 0)
    <| e 23 (fun v => editWait b c .d444 true v) t

/-- The 4-byte Address Instruction table: the bits of modes that are not kept are cleared (R59). -/
def editFourByte (b : Bytes) (c : LaneCfg) (t : Bytes) : Bytes :=
  setDword 1 (fun v => fourByteBits.foldl (fun v x =>
    match x.2.2.2 with
    | some m => editFlag b c m x.1 v
    | none => setBits v x.1 x.1 0) v) t

/-- The xSPI Profile 1.0 table: D_host of 8D-8D-8D in every dummy-cycle field (R59). -/
def editProfile (b : Bytes) (c : LaneCfg) (t : Bytes) : Bytes :=
  let d := dHost b c .d888
  setDword 4 (fun v => setBits v 11 7 d) <| setDword 5 (fun v => setBits (setBits (setBits v 31 27 d) 21 17 d) 11 7 d) t

/-- The octal sequences replaced by the lane's own (R59): eight bytes for each command, its length in the last of the
first DWORD and its bytes after it, the most significant first. -/
def editOctalSeq (cmds : List Bytes) (t : Bytes) : Bytes :=
  let one := fun (c : Bytes) =>
    let x := padTo (BitVec.ofNat 8 c.length :: c.take 7) 8
    (x.take 4).reverse ++ (x.drop 4).reverse
  padTo (((cmds.map one).flatten).take t.length) t.length

/-- A kept table with its edits. -/
def editTable (f : FlashTables) (c : LaneCfg) (cs : Fin 2) (t : SfdpTable) : Bytes :=
  if t.id = idBasic then editBasic f.sfdp c cs t.body
  else if t.id = idFourByte then editFourByte f.sfdp c t.body
  else if t.id = idProfile then editProfile f.sfdp c t.body
  else if t.id = idOctalSeq then editOctalSeq f.octalIn t.body
  else t.body

/-- The synthesised SFDP of a host chip select (R59). A table is a whole number of DWORDs, so that each begins on a 4-byte
boundary. -/
def sfdpImage (f : FlashTables) (c : LaneCfg) (cs : Fin 2) : Bytes :=
  let kept := keptIds.filterMap (sfdpTable f.sfdp)
  let bodies := kept.map (editTable f c cs)
  let heads := kept.zipIdx.map fun x =>
    overwrite x.1.head 4 (leBytes 3 (0x40 + ((bodies.take x.2).map List.length).sum))
  padTo (overwrite (f.sfdp.take 8) 6 [BitVec.ofNat 8 (kept.length - 1)] ++ heads.flatten) 0x40 0xFF ++ bodies.flatten

/-- Bytes of the image from an SFDP address on; every byte beyond the last table reads 0xFF (R59). -/
def sfdpRead (img : Bytes) (addr len : Nat) : Bytes := padTo (slice img addr len) len 0xFF

/-! ### The lane's own use of the tables -/

/-- The tables of the primary flash of a host chip select (R600). -/
def Lane.tables (l : Lane) (cs : Fin 2) : FlashTables := l.flash[primaryFlash l.cfg cs]

/-- A synthesised image exists for a host chip select (R59). -/
def Lane.hasImage (l : Lane) (cs : Fin 2) : Bool := l.sfdp && hasSfdp (l.tables cs).sfdp

/-- Dummy cycles that a host inserts before the first data byte of a READ (R27): none but P_lane for 0x03 and 0x13 in a
1S mode. -/
def Lane.readWait (l : Lane) (cs : Fin 2) (m : Proto) (op : Byte) : Nat :=
  if (op = 0x03 ∨ op = 0x13) ∧ m = .s111 then pLane l.cfg else dHost (l.tables cs).sfdp l.cfg m

/-! ### The verification mode (R197) -/

/-- Rate of a mode in kB/s at an SCK in MHz (R29). -/
def rateKBs (m : Proto) (mhz : Nat) : Nat :=
  mhz * (match m with
    | .s111 => 125
    | .s112 => 250
    | .s122 => 250
    | .s114 => 500
    | .s144 => 500
    | .d444 => 1000
    | .s888 => 1000
    | .d888 => 2000)

/-- The verification mode of a flash and its rate B_pv in kB/s: of the modes that the SFDP advertises and the bank
carries, the one with the highest rate, the earlier in R29 of equals. -/
def verifyMode (b : Bytes) (at33 : Bool) : Proto × Nat :=
  let cands := protos.filterMap fun m =>
    if at33 && (m == .s888 || m == .d888) then none
    else (flashMax b m).map fun f => (m, rateKBs m (min f (protoMax m)))
  cands.foldl (fun best x => if best.2 < x.2 then x else best) (.s111, 0)

end Sys2Proof.Machine
end

