-- ==== Sys2Proof/Machine/Operands.lean ====
section
/-! DEFINITION. The operand forms: the signed structures that commands carry, read out of their bytes, and their
acceptance (R34, R84, R112, R151 to R178, R222 to R228, R307 to R309, R402, R410). A reader answers none where step 1
of R177 finds the structure malformed. -/
namespace Sys2Proof.Machine
open Sys2Proof

/-! ### Key blocks, certificates and signature blocks (R164 to R173) -/

/-- A key block (R165): its algorithm and its whole bytes. -/
structure KeyBlk where
  alg : Nat
  bytes : Bytes
deriving DecidableEq, Repr

/-- A signing scope (R170, R172). -/
structure KeyScope where
  purpose : Nat
  lanes : Nat
  comps : Nat
  cFirst : Nat
  cLast : Nat
  maxVer : Nat
deriving DecidableEq, Repr

/-- A delegation certificate (R170). -/
structure Cert where
  signed : Bytes
  scope : KeyScope
  epoch : Nat
  serial : Nat
  key : KeyBlk
  sig : Bytes
deriving DecidableEq, Repr

/-- A signature block (R164). -/
structure SigBlk where
  alg : Nat
  signer : Nat
  root : KeyBlk
  chain : List Cert
  sig : Bytes
deriving DecidableEq, Repr

/-- The key block at the head of a byte string (R165). -/
def readKey (b : Bytes) : Option KeyBlk :=
  let alg := u16 b 0
  let len := u32 b 4
  if u16 b 2 ≠ 0 ∨ b.length < len then none
  else if alg = 1 then (if len = 2696 then some ⟨1, b.take len⟩ else none)
  else if alg = 2 then (if hssKeyOk ((b.take len).drop 8) then some ⟨2, b.take len⟩ else none)
  else none

/-- A signature value of a key has the form that its algorithm fixes (R166, step 1 of R177). -/
def sigFormOk (k : KeyBlk) (sig : Bytes) : Bool :=
  if k.alg = 1 then sig.length == 4723 else hssSigOk (beVal (slice k.bytes 8 4)) sig

/-- The delegation certificate at the head of a byte string (R170). -/
def readCert (b : Bytes) : Option Cert :=
  let len := u32 b 8
  let signedLen := u32 b 12
  match readKey (b.drop 0x30) with
  | none => none
  | some k =>
    if b.take 4 ≠ [0x47, 0x44, 0x43, 0x31] ∨ u16 b 4 ≠ 1 ∨ u16 b 6 ≠ 0 ∨ signedLen ≠ 0x30 + k.bytes.length
        ∨ len ≤ signedLen ∨ b.length < len ∨ 128 ≤ u32 b 0x10 ∨ 16 ≤ u8 b 0x15 ∨ !allZero (slice b 0x28 8) then none
    else some
      { signed := b.take signedLen
        scope :=
          { purpose := u32 b 0x10, lanes := u8 b 0x14, comps := u8 b 0x15, cFirst := u8 b 0x16, cLast := u8 b 0x17
            maxVer := u32 b 0x18 }
        epoch := u32 b 0x1C
        serial := u64 b 0x20
        key := k
        sig := slice b signedLen (len - signedLen) }

/-- A number of certificates in a row, with the bytes that follow them (R164). -/
def readChain : Nat → Bytes → Option (List Cert × Bytes)
  | 0, b => some ([], b)
  | n + 1, b =>
    match readCert b with
    | none => none
    | some c =>
      match readChain n (b.drop (u32 b 8)) with
      | none => none
      | some (cs, r) => some (c :: cs, r)

/-- The signing key of a block (R164). -/
def signingKey (b : SigBlk) : KeyBlk := ((b.chain.map (·.key)).getLast?).getD b.root

/-- Issuer signatures have the form of the issuers' algorithms (R170, R171). -/
def chainSigsOk : KeyBlk → List Cert → Bool
  | _, [] => true
  | k, c :: cs => sigFormOk k c.sig && chainSigsOk c.key cs

/-- The signature block at the head of a byte string, with the bytes that follow (R164). -/
def readSigBlk (b : Bytes) : Option (SigBlk × Bytes) :=
  let len := u32 b 4
  let rootLen := u32 b 8
  if u32 b 0x0C ≠ 0 ∨ b.length < len ∨ 2 ≤ u8 b 2 ∨ 4 ≤ u8 b 3 ∨ len < 0x10 + rootLen then none
  else
    match readKey (slice b 0x10 rootLen) with
    | none => none
    | some k =>
      if k.bytes.length ≠ rootLen then none
      else
        match readChain (u8 b 3) ((b.take len).drop (0x10 + rootLen)) with
        | none => none
        | some (cs, sig) =>
          let blk : SigBlk := ⟨u16 b 0, u8 b 2, k, cs, sig⟩
          if blk.alg ≠ (signingKey blk).alg ∨ !sigFormOk (signingKey blk) sig ∨ !chainSigsOk k cs then none
          else some (blk, b.drop len)

/-- A number of signature blocks that end exactly at the end of the bytes (R151). -/
def readBlks : Nat → Bytes → Option (List SigBlk)
  | 0, b => if b = [] then some [] else none
  | n + 1, b =>
    match readSigBlk b with
    | none => none
    | some (x, r) => (readBlks n r).map fun xs => x :: xs

/-- The blocks of a signed structure, one or two behind SIGNED_LENGTH bytes (R164, R167). -/
def structBlks (b : Bytes) : List SigBlk :=
  match readBlks 1 (b.drop (u32 b 0x0C)), readBlks 2 (b.drop (u32 b 0x0C)) with
  | some l, _ => l
  | none, some l => l
  | none, none => []

/-- A vendor block is HYBRID without a chain (R167). -/
def vendorForm (b : SigBlk) : Bool := b.signer == 1 && b.alg == 1 && b.chain.isEmpty

/-- Verification of one signature value (R166). -/
def verifySig (k : KeyBlk) (msg sig : Bytes) : Bool :=
  let key := k.bytes.drop 8
  if k.alg = 1 then
    ecdsaVerify .p384 (key.take 96) (sig.take 48) (slice sig 48 48) (sha384 msg) == .done
      && mldsaVerify 87 (key.drop 96) (mldsaMu (key.drop 96) msg) (sig.drop 96) == .done
  else hssVerify key msg sig

/-- Issuer signatures of a chain verify (R171, step 6 of R177). -/
def chainVerifies : KeyBlk → List Cert → Bool
  | _, [] => true
  | k, c :: cs => verifySig k c.signed c.sig && chainVerifies c.key cs

/-- A scope is no wider than another (R172). -/
def scopeWithin (a b : KeyScope) : Bool :=
  a.purpose &&& b.purpose == a.purpose && a.lanes &&& b.lanes == a.lanes && a.comps &&& b.comps == a.comps
    && decide (b.cFirst ≤ a.cFirst) && decide (a.cLast ≤ b.cLast) && decide (a.maxVer ≤ b.maxVer)

/-- Every certificate is within scope (R172). -/
def chainInScope : KeyScope → List Cert → Bool
  | _, [] => true
  | sc, c :: cs => sc.purpose.testBit 6 && scopeWithin c.scope sc && chainInScope c.scope cs

/-- What a structure asks of its signer (R173). -/
structure SignNeed where
  purpose : Nat
  lanes : Nat := 0
  comp : Option Nat := none
  counter : Option Nat := none
  version : Nat := 0
deriving DecidableEq, Repr

/-- A scope covers a structure (R173). -/
def scopeCovers (sc : KeyScope) (n : SignNeed) : Bool :=
  sc.purpose.testBit n.purpose && n.lanes &&& sc.lanes == n.lanes
    && (match n.comp with
      | none => true
      | some c => decide (0 < c) && sc.comps.testBit (c - 1))
    && (match n.counter with
      | none => true
      | some c => decide (sc.cFirst ≤ c) && decide (c ≤ sc.cLast))
    && decide (n.version ≤ sc.maxVer)

/-- The root scope of a vendor key (R172). -/
def vendorScope : KeyScope :=
  { purpose := 0b100010, lanes := 0xFF, comps := 0xF, cFirst := 16, cLast := 255, maxVer := 2 ^ 32 - 1 }

/-- The scope of a block's root key where it matches an anchor in force (R168, R172, step 3 of R177). -/
def rootScope (s : State) (b : SigBlk) : Option KeyScope :=
  let d := hH b.root.bytes
  if b.signer = 1 then
    if (fins 2).any fun i => s.fuses.vendor[i] == d && !s.fuses.revoked[i] then some vendorScope else none
  else
    match s.nvm.anchors.toList.find? fun a => a.state == .active && a.digest == d with
    | none => none
    | some a => some { vendorScope with purpose := a.purpose.toNat }

/-- SEC_COUNTER[c] (R174). One without an intact copy reads as 0xFFFF_FFFF (R486). -/
def State.counter (s : State) (c : Nat) : Nat :=
  match (fin? c : Option (Fin 256)) with
  | none => 0
  | some i => if s.nvm.badCounters.contains i then 2 ^ 32 - 1 else s.nvm.counters[i].toNat

/-- The result of a failed check with the number of its step of R177 (R177, R389). -/
structure Failed where
  res : Res
  step : Nat
deriving DecidableEq, Repr

/-- Steps 3 to 8 of R177 for one block, from a root scope or its absence; none where they pass. -/
def checkBlkUnder (s : State) (root : Option KeyScope) (msg : Bytes) (need : SignNeed) (b : SigBlk) : Option Failed :=
  match root with
  | none => some ⟨.notAuthorised, 3⟩
  | some root =>
    if !chainInScope root b.chain then some ⟨.notAuthorised, 4⟩
    else if b.chain.any fun c => decide (c.epoch < s.counter 16) then some ⟨.rollback, 5⟩
    else if !chainVerifies b.root b.chain then some ⟨.badSignature, 6⟩
    else if !verifySig (signingKey b) msg b.sig then some ⟨.badSignature, 7⟩
    else if !scopeCovers (((b.chain.map (·.scope)).getLast?).getD root) need then some ⟨.notAuthorised, 8⟩
    else none

/-- Steps 3 to 8 of R177 for one block. -/
def checkBlk (s : State) (msg : Bytes) (need : SignNeed) (b : SigBlk) : Option Failed :=
  checkBlkUnder s (rootScope s b) msg need b

/-- Steps 3 to 8 of R177 for blocks in order. -/
def checkBlks (s : State) (msg : Bytes) (need : SignNeed) : List SigBlk → Option Failed
  | [] => none
  | b :: bs =>
    match checkBlk s msg need b with
    | some r => some r
    | none => checkBlks s msg need bs

/-- Steps 3 and 5 of R177 alone, which R178 repeats. -/
def recheckBlks (s : State) (bs : List SigBlk) : Option Failed :=
  if bs.any fun b => (rootScope s b).isNone then some ⟨.notAuthorised, 3⟩
  else if bs.any fun b => b.chain.any fun c => decide (c.epoch < s.counter 16) then some ⟨.rollback, 5⟩
  else none

/-! ### Grain manifests (R151 to R163) -/

/-- The header checks that both kinds share (R151, step 1 of R177). -/
def grainHeaderOk (b : Bytes) (kind : Nat) : Bool :=
  b.take 4 == [0x47, 0x52, 0x4E, 0x31] && u16 b 4 == 1 && u8 b 6 == kind && u32 b 8 == b.length
    && decide (b.length ≤ 65536) && decide (u32 b 0x0C ≤ b.length) && decide (0x40 ≤ b.length)
    && allZero (slice b 0x24 28)

/-- A power of two from 256 to 262,144 (R154). -/
def sizePow (n : Nat) : Bool := (List.range 11).any fun k => n == 2 ^ (8 + k)

/-- SPAN of R154. -/
def spanOk (n : Nat) : Bool := sizePow n || (List.range 11).any fun k => decide (2 ^ (8 + k) < n) && sizePow (n - 2 ^ (8 + k))

/-- A region descriptor (R153), none where it breaks R153 or its own conditions of R154. -/
def readRegion (span : Nat) (b : Bytes) : Option Region :=
  let g : Region := ⟨u32 b 0, u32 b 4, u8 b 8, u32 b 0x0C, slice b 0x10 32⟩
  if (g.leafUnits = 1 ∨ g.leafUnits = 2 ∨ g.leafUnits = 4) ∧ allZero (slice b 9 3) ∧ 1 ≤ g.len
      ∧ g.base % g.leafUnits = 0 ∧ g.len % g.leafUnits = 0 ∧ g.leafCount = g.len / g.leafUnits
      ∧ g.base + g.len ≤ span ∧ b.length = 48 then some g else none

/-- Regions in strictly ascending order of BASE without overlap (R154). -/
def regionsOrdered : List Region → Bool
  | a :: b :: r => decide (a.base + a.len ≤ b.base) && regionsOrdered (b :: r)
  | _ => true

/-- A host manifest with its one owner block (R151 to R154, R167). -/
def readHostManifest (b : Bytes) : Option (HostManifest × List SigBlk) :=
  let n := u16 b 0x16
  let signed := u32 b 0x0C
  let span := u32 b 0x20
  if !grainHeaderOk b 1 || u8 b 7 != 1 || signed != 0x40 + 48 * n || n == 0 || decide (256 < n) || decide (8 ≤ u8 b 0x15)
      || decide (u8 b 0x14 < 17) || !spanOk span then none
  else
    match ((chunksOf 48 (slice b 0x40 (48 * n))).mapM (readRegion span)), readBlks 1 (b.drop signed) with
    | some rs, some blks =>
      if !regionsOrdered rs || blks.any (·.signer != 0) then none
      else some (⟨u32 b 0x10, u8 b 0x14, u8 b 0x15, BitVec.ofNat 64 (u64 b 0x18), span, rs⟩, blks)
    | _, _ => none

/-- A compatibility entry (R162). -/
structure Compat where
  comp : Nat
  lo : Nat
  hi : Nat
deriving DecidableEq, Repr

/-- A component manifest (R151, R160, R161). -/
structure CompManifest where
  version : Nat
  counter : Nat
  target : Nat
  manifestId : Nat
  span : Nat
  digest : Bytes
  compat : List Compat
  blks : List SigBlk
deriving DecidableEq, Repr

/-- Greatest image length of a component (R160). -/
def compMax (t : Nat) : Nat := if t = 2 then 4 * 2 ^ 20 else 2 ^ 20

/-- A component manifest (R151, R160 to R163, R167). -/
def readComponent (b : Bytes) : Option CompManifest :=
  let n := u16 b 0x16
  let signed := u32 b 0x0C
  let t := u8 b 0x15
  let count := u8 b 7
  if !grainHeaderOk b 2 || (count != 1 && count != 2) || signed != 0x60 + 16 * n || decide (16 < n) || t == 0
      || decide (4 < t) || u8 b 0x14 != t - 1 || u32 b 0x20 % 8 != 0 || decide (compMax t < u32 b 0x20) then none
  else
    let es := chunksOf 16 (slice b 0x60 (16 * n))
    let cs := es.map fun e => (⟨u8 e 0, u32 e 4, u32 e 8⟩ : Compat)
    match readBlks count (b.drop signed) with
    | none => none
    | some blks =>
      let formOk := match blks with
        | [v] => vendorForm v
        | [v, o] => vendorForm v && o.signer == 0
        | _ => false
      if !formOk || es.any (fun e => !allZero (slice e 1 3) || !allZero (slice e 12 4))
          || cs.any (fun c => c.comp == t || c.comp == 0 || decide (4 < c.comp))
          || (cs.map (·.comp)).eraseDups.length != n then none
      else some ⟨u32 b 0x10, u8 b 0x14, t, u64 b 0x18, u32 b 0x20, slice b 0x40 32, cs, blks⟩

/-! ### Lane policies (R34, R51, R84, R112, R410) -/

/-- ACTION of R84. -/
def actionOf (n : Nat) : MisAction :=
  if n = 0 then .log else if n = 1 then .hold else if n = 2 then .redirect else .holdRedirect

/-- ACCESS of R84; none for a reserved encoding. -/
def accessOfBits (n : Nat) : Option Access :=
  match n with
  | 0 => some .deny
  | 1 => some .read
  | 2 => some .readVerified
  | 3 => some .mirrored
  | 4 => some .stageWrite
  | 5 => some .openFlash
  | _ => none

/-- The bits of ACCESS (R84). -/
def accessBits : Access → Nat
  | .deny => 0
  | .read => 1
  | .readVerified => 2
  | .mirrored => 3
  | .stageWrite => 4
  | .openFlash => 5

/-- A rule entry as read, with its raw ACCESS bits kept for step 11 (R84, R85). -/
def readRule (b : Bytes) : Option (RuleEntry × Nat) :=
  let w2 := u32 b 8
  let access := bits w2 2 0
  let e : RuleEntry :=
    { base := bits (u32 b 0) 17 0
      len := bits (u32 b 4) 18 0
      access := (accessOfBits access).getD .deny
      action := actionOf (bits w2 4 3)
      priority := bits w2 15 8
      region := bits w2 23 16
      logDeny := w2.testBit 24
      stageErase := w2.testBit 25
      window := Fin.ofNat 8 (bits (u32 b 12) 2 0) }
  if bits (u32 b 0) 31 18 ≠ 0 ∨ bits (u32 b 4) 31 19 ≠ 0 ∨ bits w2 7 5 ≠ 0 ∨ bits w2 31 26 ≠ 0
      ∨ bits (u32 b 12) 31 3 ≠ 0 ∨ (e.len = 0 ∧ !allZero b) then none
  else some (e, access)

/-- A rule entry as SLUICE_RULE[n] reads (R84). -/
def ruleBytes (e : RuleEntry) : Bytes :=
  let act := match e.action with
    | .log => 0
    | .hold => 1
    | .redirect => 2
    | .holdRedirect => 3
  leBytes 4 e.base ++ leBytes 4 e.len
    ++ leBytes 4 (accessBits e.access + act * 8 + e.priority * 256 + e.region * 65536 + b2n e.logDeny * 2 ^ 24
        + b2n e.stageErase * 2 ^ 25)
    ++ leBytes 4 e.window.val

/-- A lane configuration record (R34); reserved bits must be zero. -/
def readLaneCfg (b : Bytes) : Option LaneCfg :=
  let f := u16 b 0
  if 16 ≤ f ∨ 256 ≤ u16 b 2 ∨ !allZero (slice b 0x1C 36) then none
  else some
    { enable := f.testBit 0
      hostCs1 := f.testBit 1
      flashCs1 := f.testBit 2
      mailbox := f.testBit 3
      modeMask := BitVec.ofNat 8 (u16 b 2)
      fmax := u16 b 4
      opWrite := BitVec.ofNat 8 (u8 b 6)
      opRead := BitVec.ofNat 8 (u8 b 7)
      opStatus := BitVec.ofNat 8 (u8 b 8)
      jedec := slice b 9 3
      host0 := u32 b 0x0C
      host1 := u32 b 0x10
      flash0 := u32 b 0x14
      flash1 := u32 b 0x18 }

/-- A lane verification record (R112). -/
def readVerify (b : Bytes) : Option VerifyRec :=
  let f := u16 b 6
  if 8 ≤ f ∨ !allZero (slice b 8 24) then none
  else some
    { scrubPeriod := u32 b 0
      partialTimeout := u16 b 4
      autoRelease := f.testBit 0
      pinPages := f.testBit 1
      resPref := if f.testBit 2 then .b else .a }

/-- A remap window (R51). -/
def readRemap (b : Bytes) : Remap := ⟨u32 b 0, u32 b 4, u32 b 8, u32 b 12⟩

/-- A lane policy: its fields, whether every ACCESS encoding is known, and its one owner block (R410, R167). -/
def readLanePolicy (b : Bytes) : Option (LanePolicy × Bool × List SigBlk) :=
  let n := u16 b 0x16
  let signed := u32 b 0x0C
  if b.take 4 ≠ [0x47, 0x4C, 0x50, 0x31] ∨ u16 b 4 ≠ 1 ∨ 8 ≤ u8 b 6 ∨ u8 b 7 ≠ 0 ∨ u32 b 8 ≠ b.length
      ∨ signed ≠ 0x100 + 16 * n ∨ u8 b 0x14 < 17 ∨ u8 b 0x15 ≠ 0 ∨ 4096 < n ∨ !allZero (slice b 0x18 8)
      ∨ b.length < signed then none
  else
    match readLaneCfg (slice b 0x20 64), readVerify (slice b 0x60 32),
        (chunksOf 16 (slice b 0x100 (16 * n))).mapM readRule, readBlks 1 (b.drop signed) with
    | some c, some v, some rs, some blks =>
      if blks.any (·.signer != 0) then none
      else some
        ({ lane := u8 b 6
           secVersion := u32 b 0x10
           counter := u8 b 0x14
           cfg := c
           verify := v
           remap := Vector.ofFn fun w => readRemap (slice b (0x80 + 16 * w.val) 16)
           rules := rs.map Prod.fst },
          rs.all (fun r => (accessOfBits r.2).isSome), blks)
    | _, _, _, _ => none

/-- The default opcodes of R35 outside class UNKNOWN. -/
def defaultOps : List Byte :=
  [0x03, 0x13, 0x0B, 0x0C, 0x3B, 0x3C, 0xBB, 0xBC, 0x6B, 0x6C, 0xEB, 0xEC, 0xED, 0xEE, 0x5A, 0x9F]
    ++ [0x05, 0x35, 0x15, 0x70, 0x06, 0x04, 0x02, 0x12, 0x32, 0x34, 0x38, 0x20, 0x21, 0x52, 0x5C, 0xD8, 0xDC]
    ++ [0x60, 0xC7, 0x01, 0x31, 0x11, 0x71, 0x72, 0x81, 0xB7, 0xE9, 0x66, 0x99, 0x75, 0xB0, 0x7A, 0x30]
    ++ [0xB9, 0xAB, 0x42, 0x44, 0x48]

/-- A power of two or zero. -/
def powOrZero (n : Nat) : Bool := n == 0 || n == 2 ^ n.log2

/-- The constraints of R34 on a lane configuration record. -/
def laneCfgOk (c : LaneCfg) : Bool :=
  c.modeMask.getLsbD 0 && decide (1 ≤ c.fmax) && decide (c.fmax ≤ 200) && sizePow c.host0
    && (c.host1 == 0 || sizePow c.host1) && decide (c.host0 + c.host1 ≤ 262144) && decide (0 < c.flash0)
    && powOrZero c.flash0 && (if c.flashCs1 then decide (0 < c.flash1) && powOrZero c.flash1 else c.flash1 == 0)
    && decide (c.flash0 + c.flash1 ≤ 262144)

/-- A target range lies within one enabled flash chip select (R51). -/
def targetOk (c : LaneCfg) (t len : Nat) : Bool :=
  decide (t + len ≤ c.flash0) || (c.flashCs1 && decide (c.flash0 ≤ t) && decide (t + len ≤ c.flash0 + c.flash1))

/-- The two conditions of R51 on the remap windows. -/
def remapOk (c : LaneCfg) (r : Vector Remap 8) : Bool :=
  (fins 8).all fun w =>
    r[w].len == 0 ||
      (targetOk c r[w].targetA r[w].len && targetOk c r[w].targetB r[w].len
        && (fins 8).all fun v =>
          v == w || r[v].len == 0 || decide (r[w].base + r[w].len ≤ r[v].base)
            || decide (r[v].base + r[v].len ≤ r[w].base))

/-- The greatest leaf size of a manifest in bytes (R113). -/
def maxLeaf (m : HostManifest) : Nat := (m.regions.map fun g => g.leafUnits * unitBytes).foldl max 0

/-- Nodes above the leaf level of a region (R113, R157). -/
def nodesAbove : Nat → Nat → Nat
  | 0, _ => 0
  | fuel + 1, n =>
    let k := (n + 15) / 16
    if k ≤ 1 then k else k + nodesAbove fuel k

/-- Bytes of one capture area: the leaf's bytes and their coverage bits (R113). -/
def captureArea (m : HostManifest) : Nat := maxLeaf m + maxLeaf m / 8

/-- Bytes of one copy of a lane's leaf state map and tree tops (R113). -/
def copyBytes (m : HostManifest) : Nat :=
  ((m.regions.map (·.leafCount)).sum + 1) / 2 + 32 * (m.regions.map fun g => nodesAbove 20 g.leafCount).sum

/-- Bytes of the fixed parts that a lane's manifest takes in the manifest cache (R113). -/
def fixedBytes (m : HostManifest) : Nat := 64 * captureArea m + 2 * copyBytes m

/-- Bytes of a lane's pages (R113, R159). -/
def pageBytes (m : HostManifest) : Nat := (m.regions.map fun g => 512 * ((g.leafCount + 15) / 16)).sum

/-- Units of a lane that win as MIRRORED (R85). -/
def mirroredUnits (c : LaneCfg) (rules : List RuleEntry) : Nat :=
  ((List.range (laneUnits c)).filter fun u => accessOf rules u == .mirrored).length

/-- The unit lies within the lane extent of a region. -/
def inRegion (g : Region) (u : Nat) : Bool := decide (g.base ≤ u) && decide (u < g.base + g.len)

/-- The conditions of R85 on one used entry. -/
def ruleOk (p : LanePolicy) (regions : List Region) (e : RuleEntry) : Bool :=
  let ver := verifiedClass e.access
  e.len == 0 ||
    (decide (e.base + e.len ≤ laneUnits p.cfg)
      && (ver || (e.action == .log && e.region == 0))
      && (!ver || match regions[e.region]? with
        | none => false
        | some g =>
          decide (g.base ≤ e.base) && decide (e.base + e.len ≤ g.base + g.len) && e.base % g.leafUnits == 0
            && e.len % g.leafUnits == 0)
      && (e.access == .stageWrite || (!e.stageErase && e.window == 0))
      && (e.access != .stageWrite
        || (decide (0 < (p.remap[e.window]).len) && decide (e.len ≤ (p.remap[e.window]).len))))

/-- The conditions of R85 on one unit. -/
def unitOk (p : LanePolicy) (regions : List Region) (u : Nat) : Bool :=
  match winner p.rules u with
  | none => true
  | some w =>
    let inAny := regions.any fun g => inRegion g u
    match w.2.access with
    | .read => !inAny
    | .openFlash => !inAny
    | .stageWrite => !inAny && (windowOf p.remap u).isNone
    | .readVerified => (regions[w.2.region]?).any fun g => inRegion g u
    | .mirrored => (regions[w.2.region]?).any fun g => inRegion g u
    | .deny => true

/-- At most one STAGE_WRITE entry names any one window (R85). -/
def stageWindowsOk (rules : List RuleEntry) : Bool :=
  (fins 8).all fun w =>
    decide ((rules.filter fun e => e.len != 0 && e.access == .stageWrite && e.window == w).length ≤ 1)

/-- MIRRORED units of every enabled lane but one (R85). -/
def State.otherMirrored (s : State) (n : Fin 8) : Nat :=
  (((fins 8).filter fun k => k != n && (s.lane k).cfg.enable).map fun k =>
    mirroredUnits (s.lane k).cfg (s.lane k).ruleSet).sum

/-- The conditions of R85 on a policy against the manifest that is to be active with it. -/
def rulesOk (s : State) (n : Fin 8) (p : LanePolicy) (m : Option HostManifest) : Bool :=
  let regions := (m.map (·.regions)).getD []
  p.rules.all (ruleOk p regions) && (List.range (laneUnits p.cfg)).all (unitOk p regions) && stageWindowsOk p.rules
    && decide ((if p.cfg.enable then mirroredUnits p.cfg p.rules else 0) + s.otherMirrored n ≤ 12288)

/-- Bank of a lane's host pins and of its flash pins at 3.3 V (R562, R568). -/
def State.laneAt33 (s : State) (n : Fin 8) : Bool :=
  s.chuck.vsel[n.val] == .vsb || s.chuck.vsel[8 + n.val] == .vsb

/-- The octal modes of R562. -/
def octalModes (c : LaneCfg) : Bool := c.modeMask.getLsbD 6 || c.modeMask.getLsbD 7

/-- Bytes of the fixed parts and pinned pages with this policy and manifest in place (R116). -/
def State.cacheBytes (s : State) (n : Fin 8) (p : LanePolicy) (m : Option HostManifest) : Nat :=
  let one := fun (pin : Bool) (m : HostManifest) => fixedBytes m + (if pin then pageBytes m else 0)
  ((m.map (one p.verify.pinPages)).getD 0)
    + (((fins 8).filter fun k => k != n && (s.lane k).cfg.enable).map fun k =>
        (((s.lane k).manifest).map (one (s.lane k).verify.pinPages)).getD 0).sum

/-- D_host (R61) and the mailbox opcodes (R594) against the tables of the flashes, which the Spindle reads again when the
configuration is loaded. -/
def tablesOk (c : LaneCfg) (fs : Vector FlashTables 2) : Bool :=
  let used := (fins 2).filter fun f => c.flashCs1 || f == 0
  mailboxOpsOk c defaultOps (used.map fun f => fs[f]) && used.all fun f => dummyOk c (fs[f]).sfdp

/-- SPAN and TARGET of R155. -/
def spanFits (n : Fin 8) (c : LaneCfg) (m : HostManifest) : Bool := m.target == n.val && m.span == laneUnits c

/-- The checks of step 11 of R177 on a lane policy, with the manifest that is to be active with it (R34, R51, R61, R85,
R112, R116, R155, R562, R594). -/
def policyStep11 (s : State) (n : Fin 8) (p : LanePolicy) (accessKnown : Bool) (m : Option HostManifest) : Bool :=
  accessKnown && p.lane == n.val && laneCfgOk p.cfg && remapOk p.cfg p.remap && tablesOk p.cfg (s.lane n).flash
    && decide (60 ≤ p.verify.scrubPeriod) && decide (p.verify.scrubPeriod ≤ 43200)
    && decide (1 ≤ p.verify.partialTimeout) && rulesOk s n p m
    && (match m with
      | none => true
      | some g => spanFits n p.cfg g)
    && decide (s.cacheBytes n p m ≤ 24 * 2 ^ 20)
    && !(octalModes p.cfg && s.laneAt33 n)

/-! ### Acceptance of host manifests and lane policies (R177) -/

/-- Acceptance of a host manifest for a lane against the policy that is to be active with it. -/
def acceptManifest (s : State) (n : Fin 8) (b : Bytes) (p : Option LanePolicy) : Except Failed HostManifest :=
  match readHostManifest b with
  | none => .error ⟨.deniedPolicy, 1⟩
  | some (m, blks) =>
    if s.lc ≠ .owned then .error ⟨.deniedLifecycle, 2⟩
    else
      match checkBlks s (b.take (u32 b 0x0C))
          { purpose := 0, lanes := 2 ^ n.val, counter := some m.counter, version := m.secVersion } blks with
      | some r => .error r
      | none =>
        if m.secVersion < s.counter m.counter then .error ⟨.rollback, 9⟩
        else
          let ok := match p with
            | none => spanFits n (s.lane n).cfg m
            | some q => spanFits n q.cfg m && rulesOk s n q (some m)
          if ok then .ok m else .error ⟨.deniedPolicy, 11⟩

/-- Acceptance of a lane policy against the manifest that is to be active with it. -/
def acceptPolicy (s : State) (n : Fin 8) (b : Bytes) (m : Option HostManifest) : Except Failed LanePolicy :=
  match readLanePolicy b with
  | none => .error ⟨.deniedPolicy, 1⟩
  | some (p, known, blks) =>
    if s.lc ≠ .owned then .error ⟨.deniedLifecycle, 2⟩
    else
      match checkBlks s (b.take (u32 b 0x0C))
          { purpose := 2, lanes := 2 ^ p.lane, counter := some p.counter, version := p.secVersion } blks with
      | some r => .error r
      | none =>
        if p.secVersion < s.counter p.counter then .error ⟨.rollback, 9⟩
        else if policyStep11 s n p known m then .ok p else .error ⟨.deniedPolicy, 11⟩

/-- The policy in force on a lane, as the record R85 judges a manifest against. -/
def State.policyInForce (s : State) (n : Fin 8) : LanePolicy :=
  let l := s.lane n
  { lane := n.val, secVersion := 0, counter := 17, cfg := l.cfg, verify := l.verify, remap := l.remap, rules := l.rules }

/-! ### Component manifests (R160 to R163, R177) -/

/-- The firmware copy of a component, A or B (R184). -/
def State.fwCopy (s : State) (c : Fin 4) (b : Bool) : FwCopy := if b then s.nvm.copyB[c] else s.nvm.copyA[c]

/-- The copy of a component that is active (R279). -/
def State.activeCopy (s : State) (c : Fin 4) : FwCopy := s.fwCopy c (s.nvm.commit.comps[c]).activeB

/-- SEC_VERSION of the active manifest of a component, 0 where there is none (R163, R184). -/
def State.activeVersion (s : State) (c : Fin 4) : Nat :=
  match readComponent (s.activeCopy c).manifest with
  | none => 0
  | some m => m.version

/-- The component with an identifier (R160). -/
def compFin (t : Nat) : Option (Fin 4) := if t = 0 then none else fin? (t - 1)

/-- Compatibility against given versions (R163). -/
def compatOk (m : CompManifest) (ver : Fin 4 → Nat) : Bool :=
  m.compat.all fun e =>
    match compFin e.comp with
    | none => false
    | some c => decide (e.lo ≤ ver c) && decide (ver c ≤ e.hi)

/-- The blocks of a component manifest that are verified (R167): both in OWNED, the vendor's alone elsewhere. -/
def compBlks (s : State) (m : CompManifest) : List SigBlk := if s.lc = .owned then m.blks else m.blks.take 1

/-- Acceptance of a component manifest (R177), with the versions that compatibility is judged against. -/
def acceptComponent (s : State) (b : Bytes) (ver : Fin 4 → Nat) : Except Failed CompManifest :=
  match readComponent b with
  | none => .error ⟨.deniedPolicy, 1⟩
  | some m =>
    if s.lc = .scrapped ∨ (s.lc = .owned ∧ m.blks.length ≠ 2) then .error ⟨.deniedLifecycle, 2⟩
    else
      match checkBlks s (b.take (u32 b 0x0C)) { purpose := 1, comp := some m.target, version := m.version }
          (compBlks s m) with
      | some r => .error r
      | none =>
        if m.version < s.counter m.counter then .error ⟨.rollback, 9⟩
        else if !compatOk m ver then .error ⟨.incompatible, 10⟩
        else .ok m

/-! ### Platform policies (R222 to R228) -/

def scopeOf (n : Nat) : Scope :=
  if n = 0 then .log else if n = 1 then .cycle else if n = 2 then .host else .platform

/-- A power-good source (R223): none for 0xFF; a reserved code is malformed. -/
def readPgSrc (n : Nat) : Option (Option PgSrc) :=
  if h : n < 64 then some (some (.input ⟨n, h⟩))
  else if h : n - 64 < 32 then (if n < 0x60 then some (some (.chan ⟨n - 64, h⟩)) else none)
  else if n = 0xFF then some none else none

/-- A host index or 0xFF for none. -/
def readHostIx (n : Nat) : Option (Option (Fin 16)) :=
  if h : n < 16 then some (some ⟨n, h⟩) else if n = 0xFF then some none else none

/-- An OUT_CFG entry (R223). -/
def readOut (b : Bytes) : Option OutCfg :=
  let w := u32 b 0
  match readPgSrc (bits w 15 8), readHostIx (bits w 23 16) with
  | some src, some h =>
    if bits w 31 24 ≠ 0 ∨ bits w 4 3 = 3 then none
    else some ⟨BitVec.ofNat 2 (bits w 1 0), w.testBit 2, BitVec.ofNat 2 (bits w 4 3), w.testBit 5, scopeOf (bits w 7 6),
      src, h⟩
  | _, _ => none

/-- An IN_CFG entry (R224). -/
def readIn (b : Bytes) : Option InCfg :=
  let w := u32 b 0
  if bits w 31 9 ≠ 0 then none
  else some ⟨BitVec.ofNat 2 (bits w 1 0), w.testBit 2, w.testBit 3, bits w 7 4, w.testBit 8⟩

/-- A MON_CFG entry (R225). -/
def readMon (b : Bytes) : Option MonCfg :=
  let w := u64 b 0
  if bits w 15 11 ≠ 0 ∨ bits w 31 28 ≠ 0 ∨ bits w 63 44 ≠ 0 ∨ 5 ≤ bits w 2 0 ∨ bits w 9 8 = 1 ∨ bits w 9 8 = 2
      ∨ (w.testBit 3 ∧ bits w 7 4 = 0) then none
  else some ⟨BitVec.ofNat 3 (bits w 2 0), w.testBit 3, bits w 7 4, scopeOf (bits w 9 8), w.testBit 10, bits w 27 16,
    bits w 43 32⟩

/-- A HOST_CFG entry (R226). -/
def readHostCfg (b : Bytes) : Option HostCfg :=
  if u16 b 2 ≠ 0 then none else some ⟨BitVec.ofNat 8 (u8 b 0), u8 b 1⟩

/-- An operation code (R227). -/
def readOpCode (n : Nat) : Option OpCode :=
  match n with
  | 1 => some .assert
  | 2 => some .deassert
  | 3 => some .pulse
  | 4 => some .delay
  | 5 => some .waitPg
  | 6 => some .waitIn
  | 7 => some .ifPresent
  | 8 => some .releaseHost
  | 9 => some .platSync
  | _ => none

/-- An operation (R227). -/
def readOp (b : Bytes) : Option SeqOp :=
  match readOpCode (u8 b 0), readHostIx (u8 b 2) with
  | some c, some h => if u8 b 3 ≠ 0 then none else some ⟨c, u8 b 1, h, u32 b 4⟩
  | _, _ => none

/-- A number of steps in a row that take up all the bytes, with their operation count (R227). -/
def readSteps : Nat → Bytes → Option (List SeqStep)
  | 0, b => if b = [] then some [] else none
  | n + 1, b =>
    let k := u8 b 1
    if k = 0 ∨ 64 < k ∨ b.length < 8 + 8 * k ∨ !allZero (slice b 2 6) then none
    else
      match (chunksOf 8 (slice b 8 (8 * k))).mapM readOp, readSteps n (b.drop (8 + 8 * k)) with
      | some ops, some r => some (⟨BitVec.ofNat 8 (u8 b 0), ops⟩ :: r)
      | _, _ => none

/-- A list of n entries as a vector. -/
def toVec {α : Type} (n : Nat) (d : α) (l : List α) : Vector α n := Vector.ofFn fun i => l.getD i.val d

/-- A platform policy with its one owner block (R222, first condition of R228). -/
def readPlatform (b : Bytes) : Option (PlatPolicy × List SigBlk) :=
  let steps := u8 b 6
  let hosts := u8 b 7
  let signed := u32 b 0x0C
  let ops := u16 b 0x16
  if b.take 4 ≠ [0x47, 0x50, 0x50, 0x31] ∨ u16 b 4 ≠ 1 ∨ steps = 0 ∨ 64 < steps ∨ 16 < hosts ∨ u32 b 8 ≠ b.length
      ∨ signed ≠ 0x360 + 8 * steps + 8 * ops ∨ ops = 0 ∨ 1024 < ops ∨ b.length < signed ∨ u8 b 0x14 < 17
      ∨ 4 ≤ u8 b 0x15 ∨ u16 b 0x1A < 10 ∨ u16 b 0x1E ≠ 0
      ∨ !allZero (slice b (0x320 + 4 * hosts) (64 - 4 * hosts)) then none
  else
    match (chunksOf 4 (slice b 0x20 256)).mapM readOut, (chunksOf 4 (slice b 0x120 256)).mapM readIn,
        (chunksOf 8 (slice b 0x220 256)).mapM readMon, (chunksOf 4 (slice b 0x320 64)).mapM readHostCfg,
        readSteps steps (slice b 0x360 (signed - 0x360)), readBlks 1 (b.drop signed) with
    | some outs, some ins, some mons, some hs, some st, some blks =>
      if blks.any (·.signer != 0) then none
      else some
        ({ secVersion := u32 b 0x10
           counter := u8 b 0x14
           follow := bit (u8 b 0x15) 0
           autoRetain := bit (u8 b 0x15) 1
           downGap := u16 b 0x18
           offTime := u16 b 0x1A
           deepAfter := u16 b 0x1C
           hostCount := hosts
           outs := toVec 64 ⟨0, false, 0, false, .log, none, none⟩ outs
           ins := toVec 64 ⟨0, false, false, 0, false⟩ ins
           mons := toVec 32 ⟨0, false, 0, .log, false, 0, 0⟩ mons
           hosts := toVec 16 ⟨0, 0⟩ hs
           steps := st }, blks)
    | _, _, _, _, _, _ => none

/-- The output that an operation names. -/
def PlatPolicy.out? (p : PlatPolicy) (k : Nat) : Option OutCfg := p.outs[k]?

/-- The conditions of R228 on one output. -/
def outOk (p : PlatPolicy) (k : Nat) (o : OutCfg) : Bool :=
  (o.role != 1 || (o.hardHold && match o.host with
      | none => false
      | some h => decide (h.val < p.hostCount) && (p.hosts[h]).resetOut == k))
    && (match o.pgSrc with
      | none => o.pgFail == .log
      | some (.input i) => (p.ins[i]).kind == 1
      | some (.chan c) => (p.mons[c]).enable)

/-- The conditions of R228 on one operation of a step at a position. -/
def opOk (p : PlatPolicy) (st : SeqStep) (ix : Nat) (op : SeqOp) : Bool :=
  let role := fun (r : BitVec 2) => match p.out? op.pin with
    | none => false
    | some o => o.role == r && (op.host.isNone || op.host == o.host)
  match op.code with
  | .assert => role 0 && op.value == 0
  | .deassert => role 0 && op.value == 0
  | .pulse => role 2 && decide (1 ≤ op.value)
  | .delay => op.pin == 0
  | .waitPg => (match p.out? op.pin with
    | none => false
    | some o => o.pgSrc.isSome && (op.host.isNone || op.host == o.host))
  | .waitIn => decide (op.pin < 64)
  | .ifPresent => ((p.ins[op.pin]?).any fun i => i.kind == 2) && decide (1 ≤ op.value) && decide (op.value ≤ 63)
    && decide (ix + op.value < st.ops.length)
  | .releaseHost => op.pin == 0 && op.value == 0 && (match op.host with
    | none => false
    | some h => decide (h.val < p.hostCount)
      && (p.hosts[h]).laneMask &&& st.laneMask == (p.hosts[h]).laneMask)
  | .platSync => op.pin == 0

/-- The conditions of R228 after the first. -/
def platformOk (p : PlatPolicy) : Bool :=
  ((fins 64).all fun k => outOk p k.val p.outs[k])
    && ((List.range p.hostCount).all fun h =>
      match p.hosts[h]? with
      | none => false
      | some c => (p.outs[c.resetOut]?).any fun o => o.role == 1 && (o.host.map Fin.val) == some h)
    && (p.steps.all fun st => st.ops.zipIdx.all fun x => opOk p st x.2 x.1)
    && ((fins 16).all fun h =>
      decide (((p.steps.flatMap (·.ops)).filter fun o => o.code == .releaseHost && o.host == some h).length ≤ 1))

/-- Acceptance of a platform policy (R177). -/
def acceptPlatform (s : State) (b : Bytes) : Except Failed PlatPolicy :=
  match readPlatform b with
  | none => .error ⟨.deniedPolicy, 1⟩
  | some (p, blks) =>
    if s.lc ≠ .owned then .error ⟨.deniedLifecycle, 2⟩
    else
      match checkBlks s (b.take (u32 b 0x0C)) { purpose := 4, counter := some p.counter, version := p.secVersion } blks with
      | some r => .error r
      | none =>
        if p.secVersion < s.counter p.counter then .error ⟨.rollback, 9⟩
        else if platformOk p then .ok p else .error ⟨.deniedPolicy, 11⟩

/-! ### Admission policies (R307 to R309) -/

/-- A SLOT entry (R308). -/
def readSlot (b : Bytes) : Option SlotCfg :=
  let pres := u8 b 3
  if 16 ≤ u8 b 0 ∨ 128 ≤ u8 b 1 ∨ u8 b 2 = 0 ∨ 4 < u8 b 2 ∨ (64 ≤ pres ∧ pres ≠ 0xFF) ∨ u16 b 6 ≠ 0 then none
  else some ⟨u8 b 0, u8 b 1, u8 b 2, if pres = 0xFF then none else some pres, u16 b 4⟩

/-- An ALLOW entry (R308). -/
def readAllow (b : Bytes) : Option AllowCfg :=
  if u8 b 0 = 0 ∨ 4 < u8 b 0 ∨ u16 b 6 ≠ 0 ∨ (slice b 8 32).headD 0 &&& 1 ≠ 0 ∨ (slice b 8 32).getD 31 0 &&& 0x80 ≠ 0
  then none
  else some ⟨u8 b 0, u8 b 1, BitVec.ofNat 32 (u32 b 2), slice b 8 32, slice b 0x28 32⟩

/-- A FGROUP entry (R308). -/
def readFgroup (b : Bytes) : Option (BitVec 12) :=
  if u16 b 2 ≠ 0 ∨ 4096 ≤ u16 b 0 then none else some (BitVec.ofNat 12 (u16 b 0))

/-- An admission policy with its one owner block (R307, R308). -/
def readAdmission (b : Bytes) : Option (AdmPolicy × List SigBlk) :=
  let nr := u8 b 6
  let ns := u16 b 0x16
  let na := u16 b 0x18
  let nf := u16 b 0x1A
  let signed := u32 b 0x0C
  let rp := u32 b 0x1C
  let o1 := 0x30 + 48 * nr
  let o2 := o1 + 8 * ns
  let o3 := o2 + 72 * na
  if b.take 4 ≠ [0x47, 0x41, 0x50, 0x31] ∨ u16 b 4 ≠ 1 ∨ 32 < nr ∨ 2 ≤ u8 b 7 ∨ u32 b 8 ≠ b.length
      ∨ signed ≠ o3 + 4 * nf ∨ b.length < signed ∨ u8 b 0x14 < 17 ∨ u8 b 0x15 ≠ 0 ∨ 1024 < ns ∨ 2048 < na ∨ 4096 < nf
      ∨ rp < 60 ∨ 86400 < rp ∨ u32 b 0x20 < 2 * rp ∨ u32 b 0x24 < 600 ∨ 86400 < u32 b 0x24
      ∨ !allZero (slice b 0x28 8) then none
  else
    match (chunksOf 8 (slice b o1 (8 * ns))).mapM readSlot, (chunksOf 72 (slice b o2 (72 * na))).mapM readAllow,
        (chunksOf 4 (slice b o3 (4 * nf))).mapM readFgroup, readBlks 1 (b.drop signed) with
    | some ss, some as, some fs, some blks =>
      if blks.any (·.signer != 0) then none
      else some
        ({ secVersion := u32 b 0x10
           counter := u8 b 0x14
           hybrid := bit (u8 b 7) 0
           reattest := rp
           tokenLifetime := u32 b 0x20
           leaseTime := u32 b 0x24
           roots := chunksOf 48 (slice b 0x30 (48 * nr))
           slots := ss
           allows := as
           coordinators := fs }, blks)
    | _, _, _, _ => none

/-- The conditions of R309 beyond form. -/
def admissionOk (s : State) (p : AdmPolicy) : Bool :=
  (p.slots.map fun x => (x.bus, x.address)).eraseDups.length == p.slots.length
    && (p.slots.all fun x => match (fin? x.bus : Option (Fin 16)) with
      | none => false
      | some b => s.buses[b].role == 0b10)
    && (p.slots.all fun x => x.fgroup == 0xFFFF || decide (x.fgroup < p.coordinators.length))
    && (!(p.allows.any fun a => a.cls == 1 && decide (0 < a.quota))
      || p.slots.all fun x => x.cls != 1 || x.fgroup != 0xFFFF)
    && (p.allows.all fun a => decide (a.rootMask.toNat < 2 ^ p.roots.length))

/-- Acceptance of an admission policy (R177). -/
def acceptAdmission (s : State) (b : Bytes) : Except Failed AdmPolicy :=
  match readAdmission b with
  | none => .error ⟨.deniedPolicy, 1⟩
  | some (p, blks) =>
    if s.lc ≠ .owned then .error ⟨.deniedLifecycle, 2⟩
    else
      match checkBlks s (b.take (u32 b 0x0C)) { purpose := 3, counter := some p.counter, version := p.secVersion } blks with
      | some r => .error r
      | none =>
        if p.secVersion < s.counter p.counter then .error ⟨.rollback, 9⟩
        else if admissionOk s p then .ok p else .error ⟨.deniedPolicy, 11⟩

/-! ### Authorisation records (R402, R403) -/

/-- An authorisation record at the head of a payload, with the command payload that follows it. -/
structure AuthRec where
  count : Nat
  opcode : Nat
  lanes : Nat
  serial : Nat
  challenge : Bytes
  digest : Bytes
  signed : Bytes
  blks : List SigBlk
deriving DecidableEq, Repr

/-- The record's form (R402, step 1 of R403 without the number of blocks). -/
def readAuth (b : Bytes) : Option (AuthRec × Bytes) :=
  let total := u32 b 8
  if b.take 4 ≠ [0x47, 0x43, 0x41, 0x31] ∨ u16 b 4 ≠ 1 ∨ u8 b 7 ≠ 0 ∨ u32 b 0x0C ≠ 0x60 ∨ total < 0x60
      ∨ b.length < total ∨ !allZero (slice b 0x13 5) ∨ (u8 b 6 ≠ 1 ∧ u8 b 6 ≠ 2) then none
  else
    match readBlks (u8 b 6) ((b.take total).drop 0x60) with
    | none => none
    | some blks =>
      some (⟨u8 b 6, u16 b 0x10, u8 b 0x12, u64 b 0x18, slice b 0x20 32, slice b 0x40 32, b.take 0x60, blks⟩,
        b.drop total)

/-! ### Counters of security versions (R176, R261) -/

/-- SEC_VERSIONs of the active structures that name a counter (R261). -/
def State.versionsNaming (s : State) (c : Nat) : List Nat :=
  let lane := fun (n : Fin 8) =>
    let m := if (s.nvm.commit.lanes[n]).active then s.nvm.manifest1[n] else s.nvm.manifest0[n]
    (match m.bind readHostManifest with
      | none => []
      | some x => [(x.1.counter, x.1.secVersion)])
    ++ (match (s.nvm.lanePolicy[n]).bind readLanePolicy with
      | none => []
      | some x => [(x.1.counter, x.1.secVersion)])
  let comp := fun (k : Fin 4) =>
    match readComponent (s.activeCopy k).manifest with
    | none => []
    | some m => [(m.counter, m.version)]
  let all := (fins 8).flatMap lane ++ (fins 4).flatMap comp
    ++ (match s.chuck.policy.or ((s.nvm.platform.bind readPlatform).map Prod.fst) with
      | none => []
      | some p => [(p.counter, p.secVersion)])
    ++ (match s.nvm.admission.bind readAdmission with
      | none => []
      | some x => [(x.1.counter, x.1.secVersion)])
  (all.filter fun x => x.1 == c).map Prod.snd

/-- A counter takes a greater value, with its COUNTER_RAISE entry (R176, R477). -/
def setCounter (c : Fin 256) (value : Nat) (s : State) : State :=
  let old := s.counter c.val
  let v := min value (2 ^ 32 - 1)
  if v ≤ old then s
  else
    logNow 0x0041 0x01 ([BitVec.ofNat 8 c.val, 0, 0, 0] ++ leBytes 4 old ++ leBytes 4 v)
      (s.modNvm fun x => { x with counters := x.counters.set c.val (BitVec.ofNat 32 v) })

/-- The raise of R261 of the counter that an activated structure names. -/
def raiseCounter (c : Nat) (s : State) : State :=
  match (fin? c : Option (Fin 256)), s.versionsNaming c with
  | some i, v :: vs => setCounter i (vs.foldl min v) s
  | _, _ => s

end Sys2Proof.Machine
end

