-- ==== Sys2Proof/Machine/ManifestCache.lean ====
section
/-! DEFINITION. The manifest cache: where its fixed parts lie, the pages of leaf digests with their replacement, and the
leaf-digest file that pages are read from (R113 to R118, R179, R214). -/
namespace Sys2Proof.Machine
open Sys2Proof

/-! ### Where the parts lie (R113; assumption 56) -/

/-- Bytes of a manifest-cache bank. -/
def cacheBankBytes : Nat := 4194304

/-- Bytes of a page's slot (R113). -/
def slotBytes : Nat := 512

/-- Slots of the manifest cache. -/
def cacheSlots : Nat := 49152

/-- The enabled lanes with a manifest, whose parts the cache holds. -/
def State.cacheLanes (s : State) : List (Fin 8 × HostManifest) :=
  (fins 8).filterMap fun n => if (s.lane n).cfg.enable then (s.lane n).manifest.map fun m => (n, m) else none

/-- Bytes of the first copies of the state maps and tree tops, which begin at address 0. -/
def State.copiesEnd (s : State) : Nat := (s.cacheLanes.map fun x => copyBytes x.2).sum

/-- The end of the capture areas, which follow the first copies in lane order. -/
def State.capturesEnd (s : State) : Nat := s.copiesEnd + (s.cacheLanes.map fun x => 64 * captureArea x.2).sum

/-- The second copies begin behind the capture areas, and at least a bank behind the first copies. -/
def State.secondAt (s : State) : Nat := max s.capturesEnd cacheBankBytes

/-- Bytes from a to b meet a fixed part. -/
def State.meetsFixed (s : State) (a b : Nat) : Bool :=
  decide (a < min b s.capturesEnd) || decide (max a s.secondAt < min b (s.secondAt + s.copiesEnd))

/-- A slot lies in a fixed part, at least in part. -/
def State.slotFixed (s : State) (k : Nat) : Bool := s.meetsFixed (slotBytes * k) (slotBytes * (k + 1))

/-- The bank of a slot. -/
def slotBank (k : Nat) : Nat := slotBytes * k / cacheBankBytes

/-- The page belongs to a lane that pins its pages (R116). -/
def State.pinned (s : State) (p : CachePage) : Bool := (s.lane p.lane).verify.pinPages

/-- A manifest-cache bank is powered (R117, R214, R219): it holds a fixed part or a pinned page, or, but not in RETAIN, it is
one that the page demand asks for. -/
def State.cacheBankOn (s : State) (b : Nat) : Bool :=
  s.meetsFixed (cacheBankBytes * b) (cacheBankBytes * (b + 1)) || (s.pages.any fun p => s.pinned p && slotBank p.slot == b)
    || ((s.chuck.power == .run || s.chuck.power == .idle) && decide (b < s.cacheBanks))

/-- The banks that the fixed parts and every page together need from bank 0 on (R214). -/
def State.cacheDemand (s : State) : Nat :=
  let all := (s.cacheLanes.map fun x => pageBytes x.2 / slotBytes).sum
  let gap := s.secondAt / slotBytes - (s.capturesEnd + slotBytes - 1) / slotBytes
  let tail := if s.copiesEnd = 0 then s.capturesEnd else s.secondAt + s.copiesEnd
  let last := if all ≤ gap then (if s.copiesEnd = 0 then s.capturesEnd + slotBytes * all else tail)
    else tail + slotBytes * (all - gap)
  min 6 ((last + cacheBankBytes - 1) / cacheBankBytes)

/-! ### Pages (R113 to R118) -/

/-- The page of a leaf. -/
def leafPage (r : LeafRef) : Nat := r.leaf / 16

/-- Digests of a page leave a lane's part of the cache. -/
def forgetPage (region page : Nat) (l : Lane) : Lane :=
  { l with digests := lmod l.digests region fun ds => ds.zipIdx.map fun x => if x.2 / 16 = page then none else x.1 }

/-- Digests of a page stand in a lane's part of the cache. -/
def holdPage (region page : Nat) (b : Bytes) (l : Lane) : Lane :=
  { l with digests := lmod l.digests region fun ds => ds.zipIdx.map fun x =>
      if x.2 / 16 = page then some (slice b (32 * (x.2 % 16)) 32) else x.1 }

/-- The entry is that of a page. -/
def CachePage.isPage (p : CachePage) (n : Fin 8) (region page : Nat) : Bool :=
  p.lane == n && p.region == region && p.page == page

/-- A page becomes non-resident. -/
def dropPage (n : Fin 8) (region page : Nat) (s : State) : State :=
  ({ s with pages := drop? s.pages fun p => p.isPage n region page }).modLane n (forgetPage region page)

/-- A page that is used becomes the most recently used one (R116). -/
def touchPage (n : Fin 8) (r : LeafRef) (s : State) : State :=
  match s.pages.find? fun p => p.isPage n r.region (leafPage r) with
  | none => s
  | some p => { s with pages := (drop? s.pages fun q => q.isPage n r.region (leafPage r)) ++ [p] }

/-- The lowest free slot for a page: in any bank for a pinned page, otherwise in a powered bank (R116, R214). -/
def State.freeSlot (s : State) (pin : Bool) : Option Nat :=
  let up := fun (a : Nat) => (a + slotBytes - 1) / slotBytes
  let cands := [0, up s.capturesEnd, up (s.secondAt + s.copiesEnd)] ++ s.pages.map fun p => p.slot + 1
  let ok := cands.filter fun k =>
    decide (k < cacheSlots) && !s.slotFixed k && !(s.pages.any fun p => p.slot == k) && (pin || s.cacheBankOn (slotBank k))
  match ok with
  | [] => none
  | k :: ks => some (ks.foldl min k)

/-- Makes room for a page: a free slot, or that of the least recently used unpinned page (R116). -/
def makeRoom (pin : Bool) (s : State) : Option Nat × State :=
  match s.freeSlot pin, s.pages.find? fun p => !s.pinned p with
  | some k, _ => (some k, s)
  | none, some p => (some p.slot, dropPage p.lane p.region p.page s)
  | none, none => (none, s)

/-- A proved page becomes resident, where there is room for it (R113, R116). -/
def loadPage (n : Fin 8) (region page : Nat) (b : Bytes) (s : State) : State :=
  let s0 := dropPage n region page s
  match makeRoom (s0.lane n).verify.pinPages s0 with
  | (none, s1) => s1
  | (some k, s1) => ({ s1 with pages := s1.pages ++ [(⟨n, region, page, k⟩ : CachePage)] }).modLane n (holdPage region page b)

/-- The proved digests of a region with its level-1 nodes: the tree top is fixed, and the pages become resident in page
order as far as there is room (R113, R116; assumption 56). -/
def setDigests (n : Fin 8) (region : Nat) (ds top : List Bytes) (s : State) : State :=
  let s1 := s.modLane n fun l =>
    { l with
      digests := lmod l.digests region fun _ => ds.map fun _ => none
      level1 := lmod l.level1 region fun _ => top }
  (List.range top.length).foldl (fun s p => loadPage n region p ((ds.drop (16 * p)).take 16).flatten s) s1

/-- The page's digests are in a lane's part of the cache. -/
def State.holdsPage (s : State) (p : CachePage) : Bool :=
  ((s.lane p.lane).leafDigest? (⟨p.region, 16 * p.page⟩ : LeafRef)).isSome

/-- The cache follows a change of what it must hold: pages of replaced regions go, pinned pages in the way of the fixed
parts move, and unpinned pages there or in a bank that powers down become non-resident (R113, R116, R117, R214). -/
def settleCache (s : State) : State :=
  let s0 := { s with pages := s.pages.filter s.holdsPage }
  let away := s0.pages.filter fun p => s0.slotFixed p.slot
  let move := fun (s : State) (p : CachePage) =>
    match makeRoom true s with
    | (some k, s1) => { s1 with pages := s1.pages ++ [({ p with slot := k } : CachePage)] }
    | (none, s1) => s1.modLane p.lane (forgetPage p.region p.page)
  let s1 := (away.filter fun p => !s0.pinned p).foldl (fun s p => dropPage p.lane p.region p.page s) s0
  let pins := away.filter s0.pinned
  let s2 := pins.foldl move { s1 with pages := s1.pages.filter fun p => !pins.contains p }
  (s2.pages.filter fun p => !s2.cacheBankOn (slotBank p.slot)).foldl (fun s p => dropPage p.lane p.region p.page s) s2

/-- A policy swap computes the page demand anew (R214). -/
def settleDemand (s : State) : State := settleCache { s with cacheBanks := s.cacheDemand }

/-- A leaf's page that is not resident is requested (R115). -/
def requestPage (r : LeafRef) (l : Lane) : Lane :=
  let q := (r.region, leafPage r)
  if (l.leafDigest? r).isSome || l.pageReqs.contains q then l else { l with pageReqs := l.pageReqs ++ [q] }

/-! ### The leaf-digest file (R179) -/

/-- OFF_r (R179). -/
def digestOffset (m : HostManifest) (region : Nat) : Nat :=
  ((m.regions.take region).map fun g => (32 * g.leafCount + 511) / 512 * 512).sum

/-- The byte offset of page p of region r (R179). -/
def pageOffset (m : HostManifest) (region page : Nat) : Nat := digestOffset m region + 512 * page

/-- The digests of a region in a leaf-digest file. -/
def regionDigests (m : HostManifest) (region : Nat) (file : Bytes) : List Bytes :=
  match m.regions[region]? with
  | none => []
  | some g => chunksOf 32 (slice file (digestOffset m region) (32 * g.leafCount))

/-- Digests of the regions in index order, each but the last filled with zeros up to a multiple of 512 (R179). -/
def digestFile : List (List Bytes) → Bytes
  | [] => []
  | [ds] => ds.flatten
  | ds :: rest => padTo ds.flatten ((ds.flatten.length + 511) / 512 * 512) ++ digestFile rest

end Sys2Proof.Machine
end

