-- ==== Sys2Proof/Machine/Chuck.lean ====
section
/-! DEFINITION. Chuck's shared operations: the hard path, take-downs, holds, releases and the position of the program
(R204, R205, R227 to R248). -/
namespace Sys2Proof.Machine
open Sys2Proof

/-! ### Holds (R240 to R242) -/

/-- The hold word as bits (R241). -/
def holdWord (w : HoldWord) : Nat :=
  b2n w.program + 2 * b2n w.mismatch + 4 * b2n w.power + 8 * b2n w.owner + 16 * b2n w.hard
    + 2 ^ 8 * w.laneMask.toNat + 2 ^ 16 * w.resetOut.toNat + 2 ^ 24 * w.reseqCount.toNat

/-- Some bit of [5:0] is set (R240). -/
def HoldWord.any (w : HoldWord) : Bool := w.program || w.mismatch || w.power || w.owner || w.hard

/-- Some bit other than PROGRAM is set (R229). -/
def HoldWord.beyondProgram (w : HoldWord) : Bool := w.mismatch || w.power || w.owner || w.hard

/-- A HOLD entry of a host (R241, R242, R477). -/
def logHold (h : Fin 16) (s : State) : State :=
  logNow 0x0031 0x20 ([BitVec.ofNat 8 h.val, 0, 0, 0] ++ leBytes 4 (holdWord (s.host h).hold)) s

/-- The hosts of the loaded policy (R222). -/
def State.policyHosts (s : State) : List (Fin 16) :=
  match s.chuck.policy with
  | none => []
  | some p => (fins 16).filter fun h => decide (h.val < p.hostCount)

/-- The reset output of a host is driven to its asserted level (R236, R240). -/
def assertReset (h : Fin 16) (s : State) : State :=
  let s1 := s.modHost h fun x => { x with resetAsserted := true }
  match (fin? (s.host h).hold.resetOut.toNat : Option (Fin 64)) with
  | none => s1
  | some k => s1.modChuck fun c => { c with asserted := if c.policy.isSome then c.asserted.set k.val true else c.asserted }

/-- The reset output of a host is driven to its deasserted level (R229). -/
def deassertReset (h : Fin 16) (s : State) : State :=
  let s1 := s.modHost h fun x => { x with resetAsserted := false }
  match (fin? (s.host h).hold.resetOut.toNat : Option (Fin 64)) with
  | none => s1
  | some k => s1.modChuck fun c => { c with asserted := c.asserted.set k.val false }

/-- A hold bit is set on a host, whose reset is then asserted, with a HOLD entry (R240, R242). -/
def holdHost (f : HoldWord → HoldWord) (h : Fin 16) (s : State) : State :=
  logHold h (assertReset h (s.modHold h f))

/-! ### Outputs (R223, R232, R236) -/

/-- How Virund drives SEQ_OUT[k] (R223, R231, R564, R565): the reset state is driven low; afterwards DRIVE and ACTIVE_LOW
give the pin its level. Unpowered, the passive pull-down holds it. -/
def State.seqOut (s : State) (k : Fin 64) : PinDrive :=
  match s.chuck.power, s.chuck.policy with
  | .backup, _ => .pullDown
  | .unpowered, _ => .pullDown
  | _, none => .low
  | _, some p =>
    if s.chuck.outsReset then .low
    else
      let high := s.chuck.asserted[k] != (p.outs[k]).activeLow
      match (p.outs[k]).drive.toNat with
      | 0 => .pullDown
      | 1 => if high then .high else .low
      | 2 => if high then .pullDown else .low
      | _ => if high then .pullUp else .low

/-- The power-good source of an output (R223). -/
def State.pgSrcOf (s : State) (k : Fin 64) : Option PgSrc := s.chuck.policy.bind fun p => (p.outs[k]).pgSrc

/-- A power-good source now reports good, or bad. -/
def setPg (x : PgSrc) (v : Bool) (s : State) : State :=
  match x with
  | .input k => s.modChuck fun c => { c with inGood := c.inGood.set k.val v }
  | .chan k => s.modChuck fun c => { c with monGood := c.monGood.set k.val v }

/-- What Chuck sees makes a source report good, or bad (R224, R225, R233): an input after DEBOUNCE slow ticks at its new
level, with DEBOUNCE 0 at the next tick; an enabled channel after FILTER consecutive samples in LOW to HIGH, or outside. -/
def State.pgSeen (s : State) (good : Bool) (x : PgSrc) (seen : PgSight) : Bool :=
  match s.chuck.policy, x, seen with
  | some p, .input k, .ticks n => decide (max 1 (p.ins[k]).debounce ≤ n)
  | some p, .chan k, .samples l =>
    let m := p.mons[k]
    let last := l.reverse.take m.filter
    m.enable && last.length == m.filter && last.all fun v => (decide (m.low ≤ v.toNat) && decide (v.toNat ≤ m.high)) == good
  | _, _, _ => false

/-- The sources that Chuck has come to see good report so. -/
def notePgs (l : List (PgSrc × PgSight)) (s : State) : State :=
  l.foldl (fun s x => if s.pgSeen true x.1 x.2 then setPg x.1 true s else s) s

/-- An enable is asserted and takes the last place in the order of assertion (R230, R236). -/
def assertOut (k : Fin 64) (s : State) : State :=
  s.modChuck fun c => { c with asserted := c.asserted.set k.val true, order := (drop? c.order (· == k)) ++ [k] }

/-- The rail of an output is off, and its power-good source no longer good. -/
def pgOff (k : Fin 64) (s : State) : State :=
  match s.pgSrcOf k with
  | none => s
  | some x => setPg x false s

/-- An output is deasserted; its supervision ends (R232). -/
def deassertOut (k : Fin 64) (s : State) : State :=
  (pgOff k s).modChuck fun c =>
    { c with
      asserted := c.asserted.set k.val false
      order := drop? c.order (· == k)
      supervised := drop? c.supervised (· == k)
      cycling := drop? c.cycling (· == k)
      pulsing := drop? c.pulsing (· == k) }

/-- A CYCLE action deasserts an output, which keeps the place of its ASSERT operation (R235, R236). -/
def cycleOff (k : Fin 64) (s : State) : State :=
  (pgOff k s).modChuck fun c =>
    { c with asserted := c.asserted.set k.val false, supervised := drop? c.supervised (· == k), cycling := drop? c.cycling (· == k) }

/-- A CYCLE action asserts it again. -/
def cycleOn (k : Fin 64) (s : State) : State := s.modChuck fun c => { c with asserted := c.asserted.set k.val true }

/-- HARD is no longer held by a cause; with the last, it clears on every host (R244). -/
def clearHardCause (x : HardCause) (s : State) : State :=
  let left := drop? s.chuck.hardBy (· == x)
  let s1 := s.modChuck fun c => { c with hardBy := left }
  if left = [] then s1.modHosts fun _ h => { h with hold := { h.hold with hard := false } } else s1

/-! ### Repairs that a release waits for (R275, R276) -/

/-- A Reservoir from which a leaf can be repaired (step 1 of R275). -/
def State.repairSource (s : State) (n : Fin 8) (r : LeafRef) : Option Sel :=
  [Sel.a, Sel.b].find? fun x => s.redirectReady x n r.region && !((s.res x).defects.contains (n, r))

/-- The leaf is BAD or ERROR. -/
def Lane.leafBad (l : Lane) (r : LeafRef) : Bool := (l.leafState r).flash == .bad || (l.leafState r).flash == .error

/-- The BAD and ERROR leaves of a lane that a Reservoir can repair. -/
def State.repairable (s : State) (n : Fin 8) : List LeafRef :=
  match (s.lane n).manifest with
  | none => []
  | some m => (allLeaves m).filter fun r => (s.lane n).leafBad r && (s.repairSource n r).isSome

/-- A take-down of a host starts the repairs of its lanes, for which its release waits (R276). -/
def noteRepairs (h : Fin 16) (s : State) : State :=
  s.modHost h fun x =>
    { x with repairs := ((fins 8).filter fun n => x.hold.laneMask.getLsbD n.val).flatMap fun n =>
        (s.repairable n).map fun r => (n, r) }

/-! ### Take-downs (R236) -/

/-- Every SEQ_OUT is in its reset state (R180, R191, R564). -/
def outputsToReset (s : State) : State :=
  s.modChuck fun c => { c with outsReset := true, asserted := Vector.replicate 64 false, order := [], supervised := [] }

/-- The take-down of the platform has ended (R236, R244, R247). -/
def takeDownEnded (restart : Bool) (s : State) : State :=
  let s0 := (endOp? s.chuck.mainOp .done 0 s).modChuck fun c => { c with main := if restart then .offTime else .off, mainOp := none }
  let s1 := clearHardCause .platform s0
  if s1.mode = .headwater then outputsToReset s1
  else if s1.chuck.following then s1.modChuck fun c => { c with platDrive := false } else s1

/-- The first enable of a platform take-down is deasserted; the others follow DOWN_GAP apart (R236). -/
def takeDownMain (outs : List (Fin 64)) (restart : Bool) (s : State) : State :=
  match outs with
  | [] => takeDownEnded restart s
  | [k] => takeDownEnded restart (deassertOut k s)
  | k :: ks => (deassertOut k s).modChuck fun c => { c with main := .down ks restart }

/-- The enables still asserted, last asserted first (R236). -/
def State.downOrder (s : State) : List (Fin 64) := s.chuck.order.reverse.filter fun k => s.chuck.asserted[k]

/-- Every host of the policy is held in reset through the hard path (R236). -/
def holdAllHosts (s : State) : State :=
  ((s.policyHosts).foldl (fun s h => noteRepairs h (assertReset h s)) s).modHosts fun _ h => { h with resetAsserted := true }

/-- A HOST action on the host is in progress, rather than the end of a limit's take-down (R238, R241). -/
def HostState.inAction (h : HostState) : Bool :=
  match h.run with
  | .none => false
  | .down _ bringUp => bringUp
  | _ => true

/-- Every host is held, and CYCLE and HOST actions are abandoned with the POWER of those in progress (R236, R241, R246). -/
def resetAllHosts (s : State) : State :=
  let s1 := (holdAllHosts s).modHosts fun _ h =>
    { h with
      hold := { h.hold with power := h.hold.power && !h.inAction }
      run := .none
      acting := false
      waitLanes := false }
  s1.modChuck fun c => { c with cycling := [] }

/-- The platform is taken down (R236); the program starts again afterwards where restart is true. -/
def platformDown (restart : Bool) (s : State) : State :=
  let s1 := resetAllHosts s
  takeDownMain s1.downOrder restart s1

/-- The outputs with HARD_HOLD at the level of the hard path (R243). -/
def hardPins (s : State) : State :=
  match s.chuck.policy with
  | none => s
  | some p =>
    let off := (fins 64).filter fun k => (p.outs[k]).hardHold && (p.outs[k]).role != 1
    let on := (fins 64).filter fun k => (p.outs[k]).hardHold && (p.outs[k]).role == 1
    let s1 := off.foldl (fun s k => deassertOut k s) s
    s1.modChuck fun c => { c with asserted := on.foldl (fun a k => a.set k.val true) c.asserted }

/-- A trigger of the hard path (R243): the pins, HARD on every host, PLAT_HOLD_N driven low (R247), CYCLE and HOST
actions and the program position abandoned (R246). -/
def hardTrigger (x : HardCause) (s0 : State) : State :=
  let s := wakeIdle s0
  let s1 := hardPins (endOp? s.chuck.mainOp .aborted 0 s)
  let s2 := s1.modHosts fun _ h =>
    { h with hold := { h.hold with hard := true, power := false }, run := .none, acting := false, resetAsserted := true }
  s2.modChuck fun c =>
    { c with
      hardBy := if c.hardBy.contains x then c.hardBy else c.hardBy ++ [x]
      platDrive := true
      platHigh := false
      passedSync := false
      cycling := []
      main := .off
      mainOp := none }

/-- A PLATFORM reset or another trigger that takes the platform down (R236, R243, R503). -/
def platformReset (x : HardCause) (restart : Bool) (s : State) : State := platformDown restart (hardTrigger x s)

/-- The enables of a host that are asserted, last asserted first (R236). -/
def State.hostDownOrder (s : State) (h : Fin 16) : List (Fin 64) :=
  match s.chuck.policy with
  | none => []
  | some p => s.downOrder.filter fun k => (p.outs[k]).host == some h && (p.outs[k]).role == 0

/-- The first enable of a host's take-down is deasserted (R236). -/
def takeDownHost (outs : List (Fin 64)) (bringUp : Bool) (h : Fin 16) (s : State) : State :=
  let done := fun (s : State) => s.modHost h fun x => { x with run := if bringUp then .off else .none }
  match outs with
  | [] => done s
  | [k] => done (deassertOut k s)
  | k :: ks => (deassertOut k s).modHost h fun x => { x with run := .down ks bringUp }

/-- A host is taken down, and brought up again afterwards where bringUp is true (R236). CYCLE actions on its outputs are
abandoned (R246). -/
def takeHostDown (bringUp : Bool) (h : Fin 16) (s : State) : State :=
  let s1 := (noteRepairs h (assertReset h s)).modHost h fun x => { x with acting := false }
  let s2 := s1.modChuck fun c =>
    { c with cycling := c.cycling.filter fun k => match c.policy with
        | none => true
        | some p => (p.outs[k]).host != some h }
  takeDownHost (s2.hostDownOrder h) bringUp h s2

/-- The same with POWER set (R235, R242, R506). -/
def hostDown (bringUp : Bool) (h : Fin 16) (s : State) : State :=
  takeHostDown bringUp h (holdHost (fun w => { w with power := true }) h s)

/-- Actions of the last 600 s on a host (R238). -/
def recentActions (now : Nat) (l : List Nat) : List Nat := l.filter fun t => decide (now < t + 600 * nsPerSec)

/-! ### Lanes and hosts (R16, R204) -/

/-- Platform verification of a lane has completed (R204). -/
def State.laneCompleted (s : State) (n : Fin 8) : Bool :=
  match (s.lane n).outcome with
  | some .verified => true
  | some .verifiedReservoir => true
  | some .verifiedLogged => true
  | _ => false

/-- The fills that follow a PENDING flip have not ended: one of them can still complete (R260). -/
def State.refilling (s : State) (n : Fin 8) : Bool :=
  let l := s.lane n
  l.refill && l.fills.any fun r => !l.leafBad r || (s.repairSource n r).isSome

/-- Every lane of a mask has completed (R204, R205, R260). -/
def State.lanesCompleted (s : State) (m : BitVec 8) : Bool :=
  (fins 8).all fun n => !m.getLsbD n.val || (s.laneCompleted n && !s.refilling n)

/-- A power-good source reports good (R223). -/
def State.pgGood (s : State) (x : Option PgSrc) : Bool :=
  match x with
  | none => true
  | some (.input k) => s.chuck.inGood[k]
  | some (.chan c) => s.chuck.monGood[c]

/-- Every enable that a host owns and the program has asserted reports power-good where it has a source (R229). One that a
CYCLE action holds off does not. -/
def State.hostPgGood (s : State) (p : PlatPolicy) (h : Fin 16) : Bool :=
  (fins 64).all fun k =>
    (p.outs[k]).role != 0 || (p.outs[k]).host != some h || !(s.chuck.order.contains k || s.chuck.asserted[k])
      || (s.chuck.asserted[k] && s.pgGood (p.outs[k]).pgSrc)

/-- The lane's flash chips and host chip selects return to the power-on mode and address width (R62). -/
def laneToPowerOn (l : Lane) : Lane :=
  { l with
    mode := Vector.ofFn fun k => (l.powerOn[primaryFlash l.cfg k]).1
    addr4 := Vector.ofFn fun k => (l.powerOn[primaryFlash l.cfg k]).2
    switchSeen := Vector.replicate 2 [] }

/-- The flash that a host reaches is returned to its power-on state before the host is released (R62, R229). -/
def hostToPowerOn (h : Fin 16) (s : State) : State :=
  let m := (s.host h).hold.laneMask
  s.modLanes fun n l => if m.getLsbD n.val then laneToPowerOn l else l

/-- A host whose every hold bit is clear is re-sequenced (R134, R242): taken down and then brought up again. POWER belongs
to HOST actions alone (R241). -/
def resequence (h : Fin 16) (s : State) : State := takeHostDown true h s

/-! ### Positions in the program (R205, R227, R230, R237) -/

/-- A step counts for a run: every step for the main run, and the steps with an operation tagged h for a replay. -/
def stepCounts (c : SeqCtx) (st : SeqStep) : Bool :=
  match c with
  | .main => true
  | .replay h => st.ops.any fun o => o.host == some h

/-- An operation is executed by a run (R230, R237). -/
def opCounts (c : SeqCtx) (pos : SeqPos) (o : SeqOp) : Bool :=
  pos.skip == 0 && (match o.host with
      | none => true
      | some h => !pos.skipHosts.contains h)
    && (match c with
      | .main => true
      | .replay h => o.host == some h || (o.code == .delay && o.host == none))

/-- The position at the head of the next step (R230). -/
def nextStep (pos : SeqPos) : SeqPos :=
  { step := pos.step + 1, op := 0, started := false, waiting := false, skip := 0, skipHosts := [] }

/-- The first step of the program. -/
def firstPos : SeqPos := { step := 0, op := 0, started := false, waiting := false, skip := 0, skipHosts := [] }

/-- Moves a position past steps and operations that its run does not execute; none at the program's end. -/
def settle (p : PlatPolicy) (c : SeqCtx) : Nat → SeqPos → Option SeqPos
  | 0, pos => some pos
  | fuel + 1, pos =>
    match p.steps[pos.step]? with
    | none => none
    | some st =>
      if !stepCounts c st then settle p c fuel (nextStep pos)
      else if !pos.started then some pos
      else
        match st.ops[pos.op]? with
        | none => settle p c fuel (nextStep pos)
        | some o =>
          if opCounts c pos o then some pos
          else settle p c fuel { pos with op := pos.op + 1, skip := pos.skip - 1, waiting := false }

/-- Enough moves for any program (R222). -/
def settleFuel : Nat := 1200

/-- The HOST action that took a host down has ended: POWER clears, and RESEQ_COUNT counts it (R241). -/
def actionEnded (x : HostState) : HostState :=
  { x with
    acting := false
    hold := { x.hold with power := false, reseqCount := if x.acting then x.hold.reseqCount + 1 else x.hold.reseqCount } }

/-- The end of a run: the program has ended, or the host's replay has (R237, R247). -/
def runEnded (c : SeqCtx) (s : State) : State :=
  match c with
  | .replay h => s.modHost h fun x => { actionEnded x with run := .none }
  | .main =>
    (endOp? s.chuck.mainOp .done 0 s).modChuck fun k =>
      { k with
        mainOp := none
        main := .ended
        platDrive := match k.policy with
          | none => k.platDrive
          | some p => k.platDrive && ((p.steps.flatMap (·.ops)).any fun o => o.code == .platSync) }

/-- The position of a run, settled. -/
def setPos (c : SeqCtx) (pos : SeqPos) (s : State) : State :=
  match s.chuck.policy with
  | none => s
  | some p =>
    match settle p c settleFuel pos with
    | none => runEnded c s
    | some q =>
      match c with
      | .main => s.modChuck fun k => { k with main := .running q }
      | .replay h => s.modHost h fun x => { x with run := .replay q }

/-- The position at which a run stands, while Chuck executes the program (R245). -/
def State.posOf (s : State) (c : SeqCtx) : Option SeqPos :=
  if s.mode ≠ .firmware then none
  else
    match c with
    | .main => (match s.chuck.main with
      | .running pos => some pos
      | _ => none)
    | .replay h => (match (s.host h).run with
      | .replay pos => some pos
      | _ => none)

/-- The step at which a run stands and has not started. -/
def State.stepAt (s : State) (c : SeqCtx) : Option (SeqPos × SeqStep) :=
  match s.posOf c, s.chuck.policy with
  | some pos, some p => if pos.started then none else (p.steps[pos.step]?).map fun st => (pos, st)
  | _, _ => none

/-- The operation at which a run stands. -/
def State.opAt (s : State) (c : SeqCtx) : Option (SeqPos × SeqOp) :=
  match s.posOf c, s.chuck.policy with
  | some pos, some p =>
    if !pos.started then none
    else ((p.steps[pos.step]?).bind fun st => st.ops[pos.op]?).map fun o => (pos, o)
  | _, _ => none

/-- The operation of a given code at which a run stands, waiting or not. -/
def State.opIs (s : State) (c : SeqCtx) (code : OpCode) (waiting : Bool) : Option (SeqPos × SeqOp) :=
  match s.opAt c with
  | none => none
  | some x => if x.2.code == code && x.1.waiting == waiting then some x else none

/-- The run moves to its next operation (R230). -/
def advance (c : SeqCtx) (pos : SeqPos) (s : State) : State :=
  setPos c { pos with op := pos.op + 1, waiting := false } s

/-- The run waits in its operation. -/
def waitHere (c : SeqCtx) (pos : SeqPos) (s : State) : State := setPos c { pos with waiting := true } s

/-- An operation in progress starts again in full at the resumption (R245). -/
def restartWaits (s : State) : State :=
  let f := fun (q : SeqPos) => { q with waiting := false }
  let s1 := s.modChuck fun c =>
    { c with main := match c.main with
        | .running q => .running (f q)
        | m => m }
  s1.modHosts fun _ h =>
    { h with run := match h.run with
        | .replay q => .replay (f q)
        | r => r }

/-- The stored platform policy, where steps 3, 5, 9 and 11 of R177 still hold (R178, R231). -/
def storedPlatform (s : State) : Option PlatPolicy :=
  match s.nvm.platform with
  | none => none
  | some b =>
    match readPlatform b with
    | none => none
    | some (p, blks) =>
      if s.lc = .owned ∧ (recheckBlks s blks).isNone ∧ s.counter p.counter ≤ p.secVersion ∧ platformOk p then some p
      else none

/-- A host's own action goes on beside the program (R246); its replay begins anew, since the program may be another. -/
def replayAnew : HostRun → HostRun
  | .replay _ => .off
  | r => r

/-- Chuck starts its program from the first step, and the policy it takes is active (R231, R232, R241, R261). While no
accepted policy is stored it runs none, and every SEQ_OUT keeps its reset state. -/
def programStart (s : State) : State :=
  match storedPlatform s with
  | none =>
    (outputsToReset (endOp? s.chuck.mainOp .done 0 s)).modChuck fun c => { c with main := .off, mainOp := none, platDrive := true }
  | some p =>
    let s1 := s.modChuck fun c =>
      { c with
        policy := some p
        policyBytes := s.nvm.platform.getD []
        outsReset := false
        order := []
        supervised := []
        cycling := []
        armed := (fins 32).filter fun k => (p.mons[k]).enable && (p.mons[k]).armAtStart
        main := .running firstPos }
    let s2 := s1.modHosts fun h x =>
      { x with
        run := replayAnew x.run
        resetAsserted := true
        hold :=
          { x.hold with
            program := true
            laneMask := (p.hosts[h]).laneMask
            resetOut := BitVec.ofNat 8 (p.hosts[h]).resetOut } }
    raiseCounter p.counter (setPos .main firstPos (holdAllHosts (powerBanks s2)))

/-- The platform is off (R218). -/
def State.platformOff (s : State) : Bool :=
  let enables := match s.chuck.policy with
    | none => true
    | some p => (fins 64).all fun k => (p.outs[k]).role != 0 || !s.chuck.asserted[k]
  ((fins 16).all fun h => (s.host h).resetAsserted) && enables
    && ([Sel.a, Sel.b].all fun x => ((s.res x).claim.all fun c => !c.inEffect))
    && (s.stolik.targets.all fun t => t.xfer == .none) && s.stolik.uploads.isEmpty

/-- The program may be started: firmware runs it, nothing holds HARD, and no run or take-down is under way. -/
def State.startable (s : State) : Bool :=
  s.mode == .firmware && s.chuck.hardBy == [] && (s.chuck.main == .off || s.chuck.main == .ended)

/-- RELEASE_HOST on a host whose conditions hold (R229): PROGRAM clears; where nothing else holds the host, its reset is
deasserted. A replay's release ends the action that took the host down, so POWER clears with it (R235, R237). -/
def releaseHost (c : SeqCtx) (h : Fin 16) (s : State) : State :=
  let s1 := match c with
    | .main => s.modHold h fun w => { w with program := false }
    | .replay _ => (s.modHost h actionEnded).modHold h fun w => { w with program := false }
  if (s1.host h).hold.beyondProgram then s1 else deassertReset h (hostToPowerOn h s1)

end Sys2Proof.Machine
end

