-- ==== Sys2Proof/Machine/Reply.lean ====
section
/-! DEFINITION. Responses of Stolik (R387, R389, R396, R398), and the admission of engines to
Confluence (R323 to R336). -/
namespace Sys2Proof.Machine
open Sys2Proof

/-- The result codes of R398. -/
def resCode : Res → Nat
  | .done => 0x0000
  | .accepted => 0x0001
  | .busyOwned => 0x0101
  | .queueFull => 0x0102
  | .lengthShort => 0x0201
  | .lengthLong => 0x0202
  | .badFrame => 0x0203
  | .badSignature => 0x0301
  | .badPoint => 0x0302
  | .outOfRange => 0x0303
  | .invariantFail => 0x0304
  | .retryExhausted => 0x0305
  | .rollback => 0x0401
  | .incompatible => 0x0402
  | .deniedPolicy => 0x0501
  | .deniedLifecycle => 0x0502
  | .notAuthorised => 0x0503
  | .aborted => 0x0601
  | .faultState => 0x0F01

/-- A frame with its CRC (R387, R388). -/
def frameBytes (opcode second : Nat) (tag : Word) (payload : Bytes) : Bytes :=
  let h := leBytes 2 opcode ++ leBytes 2 second ++ leBytes 4 tag.toNat ++ leBytes 4 payload.length
  h ++ leBytes 4 (crc32c (h ++ zeros 4 ++ payload)).toNat ++ payload

/-- The response frame: OPCODE with bit 15 set, the result code and the TAG (R387). -/
def respFrame (r : Resp) : Bytes :=
  frameBytes (r.opcode.toNat % 2 ^ 15 + 2 ^ 15) (resCode r.result) r.tag r.payload

/-- Sends a response on the port of its request, which is no longer in flight (R386, R393, R396). -/
def sendResp (r : Resp) (s : State) : State :=
  let s1 := s.modStolik fun k =>
    { k with outbox := r :: k.outbox, inFlight := drop? k.inFlight fun x => x == (r.port, r.tag) }
  match r.port with
  | .hp n => s1.modLane n fun l => { l with mb := { l.mb with outBuf := l.mb.outBuf ++ respFrame r } }
  | _ => s1

/-- The opcode and tag of a request with a result and payload (R387). -/
def respond (p : Port) (opcode : Nat) (tag : Word) (r : Res) (payload : Bytes) (s : State) : State :=
  sendResp ⟨p, BitVec.ofNat 16 opcode, r, tag, payload⟩ s

/-- The failure payload of R389. -/
def failPayload (detail offset : Nat) : Bytes := leBytes 4 detail ++ leBytes 4 offset

/-! ### Engines in Confluence (R323, R324, R332, R334) -/

def State.riffle (s : State) (i : Fin 32) : Riffle := s.conf.riffles[i]
def State.modRiffle (s : State) (i : Fin 32) (f : Riffle → Riffle) : State :=
  s.modConf fun c => { c with riffles := vmod c.riffles i f }
def State.mandrel (s : State) (m : Fin 8) : Mandrel := s.conf.mandrels[m]
def State.modMandrel (s : State) (m : Fin 8) (f : Mandrel → Mandrel) : State :=
  s.modConf fun c => { c with mandrels := vmod c.mandrels m f }

/-- Riffle i is pooled (R323). -/
def pooled (i : Fin 32) : Bool := decide (8 ≤ i.val)

/-- The working pooled Riffles that hold no reserve and serve no lane. -/
def State.sharedRiffles (s : State) : List (Fin 32) :=
  (fins 32).filter fun i => pooled i && (s.riffle i).inService && (s.riffle i).reserve.isNone && (s.riffle i).boundTo.isNone

/-- The working pooled Riffles of a class's reserve. -/
def State.reserveRiffles (s : State) (c : Fin 5) : List (Fin 32) :=
  (fins 32).filter fun i => pooled i && (s.riffle i).inService && (s.riffle i).reserve == some c

def State.sharedMandrels (s : State) : List (Fin 8) :=
  (fins 8).filter fun m => (s.mandrel m).inService && (s.mandrel m).reserve.isNone

def State.reserveMandrels (s : State) (c : Fin 5) : List (Fin 8) :=
  (fins 8).filter fun m => (s.mandrel m).inService && (s.mandrel m).reserve == some c

/-- A RESERVE entry (R324, R477). -/
def logReserve (c : Fin 5) (mandrel : Bool) (index : Nat) (s : State) : State :=
  logNow 0x0070 0x01 [BitVec.ofNat 8 c.val, if mandrel then 1 else 0, BitVec.ofNat 8 index] s

/-- The classes below c in priority, class 4 first (R324). -/
def lowerClasses (c : Fin 5) : List (Fin 5) := (fins 5).reverse.filter fun d => decide (c.val < d.val)

/-- A class's reserve of Riffles gets one engine: the highest-numbered working shared engine, else the highest of the
reserve of the first lower-priority class that has one (R324). -/
def refillRiffle (c : Fin 5) (s : State) : State :=
  let pick := match s.sharedRiffles.getLast? with
    | some i => some i
    | none => ((lowerClasses c).filterMap fun d => (s.reserveRiffles d).getLast?).head?
  match pick with
  | none => s
  | some i => logReserve c false i.val (s.modRiffle i fun r => { r with reserve := some c })

/-- The same for Mandrels (R324). -/
def refillMandrel (c : Fin 5) (s : State) : State :=
  let pick := match s.sharedMandrels.getLast? with
    | some i => some i
    | none => ((lowerClasses c).filterMap fun d => (s.reserveMandrels d).getLast?).head?
  match pick with
  | none => s
  | some i => logReserve c true i.val (s.modMandrel i fun r => { r with reserve := some c })

/-- Jobs returned to the head of their classes' queues (R332, R334). -/
def requeue (js : List Job) (s : State) : State :=
  s.modConf fun c => { c with queue := (js.map fun j => { j with ahead := true }) ++ c.queue }

/-- A Mandrel whose operand memory is all zero and belongs to nobody (R377, R378, R380). -/
def Mandrel.cleared (m : Mandrel) : Mandrel := { m with owner := .none, secret := false, wiping := false, mem := [] }

/-- The domain of an engine: of its Riffle group, or its own (R213). -/
def engineDomain : Engine → Nat
  | .riffle i => 34 + (i.val - 8) / 3
  | .mandrel m => 42 + m.val

/-- The domain of an engine has a job (R214). -/
def noteJob (e : Engine) (s : State) : State :=
  s.modConf fun c => { c with lastJob := vmod c.lastJob (Fin.ofNat 16 (engineDomain e - 34)) fun _ => s.tick }

/-- The domain of an engine is powered (R326). The bulk clear zeroes a Mandrel's operand memory when its domain powers up
(R378). -/
def powerEngine (e : Engine) (s : State) : State :=
  let pd := engineDomain e
  if s.chuck.enginePd.contains pd then s
  else
    let s1 := s.modChuck fun c => { c with enginePd := c.enginePd ++ [pd] }
    match e with
    | .riffle _ => s1
    | .mandrel m => s1.modMandrel m Mandrel.cleared

/-- The domains that stay powered; a Mandrel whose domain powers down has been wiped before where it held a secret (R377),
and its operand memory is lost. -/
def keepDomains (keep : List Nat) (s : State) : State :=
  (s.modChuck fun c => { c with enginePd := c.enginePd.filter fun d => keep.contains d }).modConf fun c =>
    { c with mandrels := vmapI c.mandrels fun m x => if keep.contains (42 + m.val) then x else x.cleared }

/-- A Riffle leaves service, and its jobs are dispatched again (R334). -/
def dropRiffle (i : Fin 32) (s : State) : State :=
  let r := s.riffle i
  (requeue (r.job.toList ++ r.suspended) s).modRiffle i fun x =>
    { x with inService := false, job := none, suspended := [], reserve := none, boundTo := none }

/-- The reserves that some Riffles hold in service, in class order. -/
def State.heldReserves (s : State) (is : List (Fin 32)) : List (Fin 5) :=
  (fins 5).flatMap fun c => (is.filter fun i => (s.riffle i).inService && (s.riffle i).reserve == some c).map fun _ => c

/-- Riffles leave service together: their jobs are dispatched again, and their reserves are refilled in class order (R324,
R334). -/
def withdrawRiffles (is : List (Fin 32)) (s : State) : State :=
  (s.heldReserves is).foldl (fun s c => refillRiffle c s) (is.foldl (fun s i => dropRiffle i s) s)

/-- A Mandrel leaves service (R324, R334, R380). -/
def withdrawMandrel (m : Fin 8) (s : State) : State :=
  let r := s.mandrel m
  let s1 := requeue r.job.toList s
  let s2 := s1.modMandrel m fun x => { x.cleared with inService := false, job := none, reserve := none }
  match r.reserve with
  | none => s2
  | some c => if r.inService then refillMandrel c s2 else s2

/-- The pooled Riffle that a claim takes: the lowest of the class-0 reserve, else the lowest shared engine (R332). -/
def State.claimableRiffle (s : State) : Option (Fin 32) :=
  match (s.reserveRiffles 0).head? with
  | some i => some i
  | none => s.sharedRiffles.head?

/-- A lane claims a pooled Riffle (R79, R332, R362). Without one the lane keeps no Riffle. -/
def claimRiffle (n : Fin 8) (s : State) : State :=
  match s.claimableRiffle with
  | none => s.modLane n fun l => { l with riffle := none }
  | some i =>
    let r := s.riffle i
    let s1 := requeue (r.job.toList ++ r.suspended) s
    let s2 := s1.modRiffle i fun x => { x with reserve := none, boundTo := some n, job := none, suspended := [] }
    let s3 := s2.modLane n fun l => { l with riffle := some i }
    let fill := fun (s : State) => if (s.reserveRiffles 0).length < 2 then refillRiffle 0 s else s
    fill (fill s3)

end Sys2Proof.Machine
end

