-- ==== Sys2Proof/Machine/LaneOps.lean ====
section
/-! DEFINITION. Shared operations of the lanes: DENY_ALL, trackers, flash checks, mismatches and their actions, mirror
extents, spare takeover, and the wipes of a lane (R76 to R83, R105, R106, R110 to R139, R506, R601). -/
namespace Sys2Proof.Machine
open Sys2Proof

/-! ### DENY_ALL (R105, R106) -/

/-- The lane is in DENY_ALL: some cause is in force. -/
def Lane.denyAll (l : Lane) : Bool := l.denyReset || l.denyNoPolicy || l.denyOwner || l.denyEngine || l.denySafe

/-- Every cause in force admits MAILBOX and READ_ID. -/
def Lane.servesMailbox (l : Lane) : Bool := !l.denyEngine && !l.denySafe

/-- Every cause in force admits READ_SFDP, and the image exists (R59, R105). -/
def Lane.servesSfdp (l : Lane) (cs : Fin 2) : Bool := l.hasImage cs && !l.denyNoPolicy && l.servesMailbox

/-! ### Counters -/

/-- A 48-bit counter that stays at its maximum (R97, R98, R150). -/
def inc48 (v : Nat) (k : Nat := 1) : Nat := satAdd 48 v k

def Lane.count (l : Lane) (f : LaneCounts → LaneCounts) : Lane := { l with counts := f l.counts }

/-! ### Trackers (R120, R121, R146) -/

/-- The tracker that follows a leaf (R121). -/
def Lane.trackerOf (l : Lane) (r : LeafRef) : Option (Fin 64) :=
  (fins 64).find? fun t =>
    l.trackers[t].st != .free && l.trackers[t].region == r.region && l.trackers[t].leaf == r.leaf

def Lane.modTracker (l : Lane) (t : Fin 64) (f : Tracker → Tracker) : Lane := { l with trackers := vmod l.trackers t f }

/-- The leaf that a tracker follows. -/
def Tracker.ref (t : Tracker) : LeafRef := ⟨t.region, t.leaf⟩

/-- The CAPTURING trackers that end with the list of leaves that pass to flash checks. -/
def Lane.capturing (l : Lane) : List (Fin 64) := (fins 64).filter fun t => l.trackers[t].st == .capturing

/-- A drain: each CAPTURING tracker goes to FILLING (R146). -/
def drainTrackers (l : Lane) : Lane :=
  { l with trackers := vmap l.trackers fun t => if t.st = .capturing then { t with st := .filling, filled := true } else t }

/-- The lane shadow-hashes what it delivers (R80, R362). -/
def Lane.hashing (l : Lane) : Bool :=
  l.riffle.isSome && (match l.takeover with
    | none => true
    | some t => t.hashing)

/-- The first QUEUED tracker in completion order (R124). -/
def Lane.firstQueued (l : Lane) : Option (Fin 64) :=
  ((fins 64).filter fun t => l.trackers[t].st == .queued).foldl (fun b t => match b with
    | none => some t
    | some x => if l.trackers[t].order < l.trackers[x].order then some t else some x) none

/-- The tracker whose leaf the bound engine hashes (R120). -/
def Lane.nextHash (l : Lane) : Option (Fin 64) := (fins 64).find? fun t => l.trackers[t].st == .hashing

/-- The bound engine, where it is free, takes the next complete leaf (R120, R124). -/
def startHash (l : Lane) : Lane :=
  if !l.hashing || l.nextHash.isSome then l
  else match l.firstQueued with
    | none => l
    | some t => l.modTracker t fun x => { x with st := .hashing }

/-- Every tracker is FREE. -/
def Lane.trackersFree (l : Lane) : Bool := (fins 64).all fun t => l.trackers[t].st == .free

/-- Queues a flash check; a leaf that finds the queue full is left to scrubbing (R129). -/
def queueCheck (r : LeafRef) (l : Lane) : Lane :=
  if l.flashChecks.contains r then l
  else if l.flashChecks.length < 256 then { l with flashChecks := l.flashChecks ++ [r] }
  else l.count fun c => { c with uncapturedDrops := inc48 c.uncapturedDrops }

/-! ### Mismatches (R130 to R134) -/

/-- ACTION as R84 codes it. -/
def actionCode : MisAction → Nat
  | .log => 0
  | .hold => 1
  | .redirect => 2
  | .holdRedirect => 3

/-- A LEAF_MISMATCH entry (R130, R131, R477). -/
def logMismatch (n : Fin 8) (cause : Nat) (r : LeafRef) (a : MisAction) (foundBy : Nat) (res : Option Sel) (s : State) : State :=
  logNow 0x0021 (originLane n)
    ([BitVec.ofNat 8 n.val, BitVec.ofNat 8 cause, BitVec.ofNat 8 r.region, BitVec.ofNat 8 (actionCode a)]
      ++ leBytes 4 r.leaf ++ [BitVec.ofNat 8 foundBy, match res with
        | none => 0xFF
        | some .a => 0
        | some .b => 1]) s

/-- Under LOG, a leaf's later mismatches are logged at most once per 65,536 slow ticks (R132). -/
def logDue (s : State) (n : Fin 8) (r : LeafRef) (a : MisAction) : Bool :=
  a != .log || (match (s.lane n).leafLog.find? fun x => x.1 == r with
    | none => true
    | some x => decide (x.2 + 65536 ≤ s.tick))

/-- The entry of a mismatch, where it is due (R125, R132). -/
def logLeaf (n : Fin 8) (cause : Nat) (r : LeafRef) (foundBy : Nat) (res : Option Sel) (s : State) : State :=
  let a := (s.lane n).leafAction r
  if logDue s n r a then
    (logMismatch n cause r a foundBy res s).modLane n fun l =>
      { l with leafLog := (r, s.tick) :: drop? l.leafLog fun y => y.1 == r }
  else s

/-- A host is held for a mismatch; one that is held for a mismatch already takes no further hold, and waits for this leaf
too (R132, R134). -/
def holdForLeaf (n : Fin 8) (r : LeafRef) (s : State) (h : Fin 16) : State :=
  let noted := s.modHost h fun x => { x with causes := if x.causes.contains (n, r) then x.causes else x.causes ++ [(n, r)] }
  if (s.host h).hold.mismatch then noted else holdHost (fun w => { w with mismatch := true }) h noted

/-- The rule's action on a mismatch (R132, R139). -/
def takeAction (n : Fin 8) (r : LeafRef) (s : State) : State :=
  let a := (s.lane n).leafAction r
  let s1 := if holds a then (s.laneHosts n).foldl (holdForLeaf n r) s else s
  if (s.lane n).leafNeeds r then requestClaim n r.region s1 else s1

/-- A mismatch of the guarded flash at its detection (R125, R130, R132): counted, marked, logged, queued for its
confirmation reads, which give the entry its cause, and acted on unless the leaf has a valid mirror copy. Every mismatch
is classified by itself. -/
def flashMismatch (n : Fin 8) (r : LeafRef) (foundBy : Nat) (fault : Bool) (firstRead : Option Bytes) (s : State) : State :=
  let mv := ((s.lane n).leafState r).mirrorValid
  let due := logDue s n r ((s.lane n).leafAction r)
  let s1 := s.modLane n fun l =>
    let l1 := l.count fun c => { c with mismatches := inc48 c.mismatches }
    let l2 := l1.modLeaf r fun st =>
      { st with flash := match st.flash with
        | .good => if fault then .error else .bad
        | .unverified => if fault then .error else .bad
        | f => f }
    let fresh := (l.leafState r).flash == .good || (l.leafState r).flash == .unverified
    { l2 with confirms := l2.confirms ++ [⟨r, foundBy, fault, firstRead, l.leafAction r, fresh, due⟩] }
  let s2 := logLeaf n 0 r foundBy none s1
  if mv then s2 else takeAction n r s2

/-- A mismatch of bytes that a Reservoir served (R131). -/
def reservoirMismatch (n : Fin 8) (r : LeafRef) (x : Sel) (foundBy : Nat) (s : State) : State :=
  let s1 := s.modLane n fun l => l.count fun c => { c with mismatches := inc48 c.mismatches }
  let s2 := s1.modRes x fun q =>
    if q.defects.contains (n, r) then q
    else if q.defects.length < 256 then { q with defects := q.defects ++ [(n, r)] }
    else { q with withdrawn := if q.withdrawn.contains (n, r.region) then q.withdrawn else q.withdrawn ++ [(n, r.region)] }
  takeAction n r (logLeaf n 5 r foundBy (some x) s2)

/-- A verification of the guarded flash matched (R111). -/
def leafMatched (r : LeafRef) (l : Lane) : Lane :=
  l.modLeaf r fun st => { st with flash := if st.flash = .unverified then .good else st.flash }

/-- A leaf loses its mirror copy: it is filled again, and its action takes effect where its flash is BAD or ERROR
(R111, R132, R137, R139). -/
def loseMirror (n : Fin 8) (r : LeafRef) (s : State) : State :=
  if !((s.lane n).leafState r).mirrorValid then s
  else
    let s1 := s.modLane n fun l =>
      let l1 := l.modLeaf r fun st => { st with mirrorValid := false }
      { l1 with fills := if l1.fills.contains r then l1.fills else l1.fills ++ [r] }
    let bad := ((s.lane n).leafState r).flash == .bad || ((s.lane n).leafState r).flash == .error
    if bad then takeAction n r s1 else requestClaim n r.region s1

/-! ### Claims (R139, R273) -/

/-- The lane's claim ends; a lane that wants one may take the port (R139, R273). -/
def endClaim (x : Sel) (s : State) : State :=
  let s0 := match (s.res x).claim with
    | none => s
    | some c => s.modLane c.lane fun l => { l with claimWanted := false }
  let s1 := s0.modRes x fun r => { r with claim := none }
  let wants := (fins 8).filter fun n => (s1.claimOf n).isNone && !((s1.lane n).needy).isEmpty
  let s2 := wants.foldl (fun s n => requestClaims n s) s1
  s2.modRes x fun r => { r with suspended := r.suspended && r.claim.isSome }

/-! ### Mirror extents (R601) -/

/-- Bytes of a mirror bank. -/
def bankBytes : Nat := 4194304

/-- An extent overlaps an allocated one of its bank. -/
def extentFree (m : List MirrorLeaf) (bank off size : Nat) : Bool :=
  m.all fun e => e.bank != bank || decide (off + size ≤ e.offset) || decide (e.offset + e.size ≤ off)

/-- The lowest free aligned offset of a bank for an extent of a size. -/
def bankFit (m : List MirrorLeaf) (size bank : Nat) : Option Nat :=
  let cands := 0 :: (m.filter fun e => e.bank == bank).map fun e => (e.offset + e.size + size - 1) / size * size
  let ok := cands.filter fun o => decide (o + size ≤ bankBytes) && extentFree m bank o size
  match ok with
  | [] => none
  | o :: os => some (os.foldl min o)

/-- First fit from the lowest bank (R601). -/
def mirrorFit (m : List MirrorLeaf) (size : Nat) : Option (Nat × Nat) :=
  ((List.range 12).filterMap fun b => (bankFit m size b).map fun o => (b, o)).head?

/-- The extent of a leaf. -/
def State.mirrorOf (s : State) (n : Fin 8) (r : LeafRef) : Option MirrorLeaf :=
  s.mirror.find? fun e => e.lane == n && e.leaf == r

/-- Allocates the extent of a leaf that has none. -/
def allocMirror (n : Fin 8) (m : HostManifest) (s : State) (r : LeafRef) : State :=
  match s.mirrorOf n r with
  | some _ => s
  | none =>
    let size := leafSize m r.region
    match mirrorFit s.mirror size with
    | none => s
    | some (b, o) => { s with mirror := s.mirror ++ [⟨n, r, b, o, size, []⟩] }

/-- Stores the bytes of a filled leaf. -/
def storeMirror (n : Fin 8) (r : LeafRef) (b : Bytes) (s : State) : State :=
  { s with mirror := s.mirror.map fun e => if e.lane = n ∧ e.leaf = r then { e with bytes := b } else e }

/-- The leaves of a manifest that a rule set mirrors. -/
def mirroredLeaves (rules : List RuleEntry) (m : HostManifest) : List LeafRef :=
  (allLeaves m).filter fun r => (leafUnitList m r).any fun u => accessOf rules u == .mirrored

/-- Frees the extents of a lane's leaves that are not in a list (R601). -/
def freeMirrors (n : Fin 8) (keep : List LeafRef) (s : State) : State :=
  { s with mirror := s.mirror.filter fun e => e.lane != n || keep.contains e.leaf }

/-! ### Spare takeover (R76 to R83) -/

/-- A spare is free (R77): in service and serving no lane, nor about to. -/
def State.spareFree (s : State) (k : Fin 10) : Bool :=
  decide (8 ≤ k.val) && s.engines[k] && (fins 8).all fun n =>
    (s.lane n).engine != k && (match (s.lane n).takeover with
      | none => true
      | some t => t.spare != k)

/-- Shadow hashing stops: leaves partly captured go to flash checks, with no fill, and a leaf that was being hashed waits
to be hashed again (R80, R120). -/
def dropCaptures (l : Lane) : Lane :=
  let ts := l.capturing
  let l1 := ts.foldl (fun l t => queueCheck (l.trackers[t]).ref l) l
  let l2 := ts.foldl (fun l t => l.modTracker t fun _ => Tracker.free) l1
  { l2 with trackers := vmap l2.trackers fun t => if t.st = .hashing then { t with st := .queued } else t }

/-- A TAKEOVER entry (R477). -/
def logTakeover (n : Fin 8) (spare : Option (Fin 10)) (riffle : Option (Fin 32)) (s : State) : State :=
  let num := fun (x : Option Nat) => (match x with
    | none => (0xFF : Byte)
    | some k => BitVec.ofNat 8 k)
  logNow 0x0025 (originLane n) [BitVec.ofNat 8 n.val, num (spare.map (·.val)), num (riffle.map (·.val))] s

/-- A lane-engine fault of the engine that serves lane n (R76 to R83), at the end of the transaction it hit: the lowest
free spare takes over; with none the lane enters DENY_ALL. -/
def startTakeover (n : Fin 8) (s : State) : State :=
  let old := (s.lane n).engine
  let s1 := { s with
    engines := vmod s.engines old fun _ => false
    replacedEngines := vmod s.replacedEngines old fun _ => true }
  match (fins 10).find? fun k => s1.spareFree k with
  | none =>
    logTakeover n none (s1.lane n).riffle
      (s1.modLane n fun l => { dropCaptures l with denyEngine := true })
  | some k =>
    s1.modLane n fun l =>
      { dropCaptures l with
        engine := k
        riffle := none
        pv := { l.pv with tookOver := l.pv.active }
        takeover := some { spare := k, replaced := old, hashing := false } }

/-- A fault of lane engine k (R76, R82): of the lane it serves, or of an idle spare, which leaves service. -/
def engineFault (k : Fin 10) (s : State) : State :=
  match (fins 8).find? fun n => (s.lane n).engine == k with
  | some n => startTakeover n s
  | none => { s with engines := vmod s.engines k fun _ => false }

/-- A lane loses its bound Riffle: shadow hashing stops until a pooled Riffle is claimed (R362). -/
def boundRiffleLost (n : Fin 8) (s : State) : State :=
  (claimRiffle n (s.modLane n dropCaptures)).modLane n startHash

/-! ### Wipes of lanes (R493, R506, R508) -/

/-- The lane's state after POR or a CHIP reset, with what lies outside Virund and what NVM keeps (R105, R508). -/
def bootLane (n : Fin 8) (l : Lane) : Lane :=
  let r := Lane.reset n
  { r with
    denyOwner := l.denyOwner
    powerOn := l.powerOn
    flash := l.flash
    chipAbsent := l.chipAbsent
    mode := Vector.ofFn fun k => (l.powerOn[k]).1
    addr4 := Vector.ofFn fun k => (l.powerOn[k]).2 }

/-- Step 1 of R506 on the lane itself, with a new epoch (R523). LOOKUP_DISAGREE_COUNT is kept (R508). -/
def wipeLane (n : Fin 8) (l : Lane) : Lane :=
  let r := Lane.reset n
  { bootLane n l with
    cfg := l.cfg
    verify := l.verify
    counts := { r.counts with lookupDisagree := l.counts.lookupDisagree }
    denyNoPolicy := l.denyNoPolicy
    denyEngine := l.denyEngine
    denySafe := l.denySafe
    engine := l.engine
    riffle := l.riffle
    takeover := l.takeover
    manifest := none
    epoch := l.epoch + 1 }

/-- The claims of a lane end (R508). -/
def dropClaims (n : Fin 8) (s : State) : State :=
  match s.claimOf n with
  | none => s
  | some c => endClaim c.1 s

/-- Platform verification of a lane begins at step 1 of R198; after a wake from RETAIN it leaves the leaves with a valid
mirror copy as they are (R220). -/
def startVerificationKeeping (keep : Bool) (n : Fin 8) (s : State) : State :=
  s.modLane n fun l =>
    { l with
      outcome := none
      rstHigh := true
      pv := { PvState.none with active := true, startTick := s.tick, keepMirrored := keep }
      mode := Vector.ofFn fun k => (l.powerOn[k]).1
      addr4 := Vector.ofFn fun k => (l.powerOn[k]).2
      chips := vmap l.chips fun _ => FlashChip.idle }

/-- Platform verification of a lane begins at step 1 of R198. -/
def startVerification (n : Fin 8) (s : State) : State := startVerificationKeeping false n s

/-- The consequence of R282 for a landing, prestage or activation that a reset cuts off on a lane's window, with its
UPDATE entry. The manifest of a landing is stored only as it ends, so its entry has MANIFEST_ID zero (assumption 59). -/
def cutWindow (n w : Fin 8) (s : State) : State :=
  let e := s.win n w
  let target := BitVec.ofNat 8 (0x10 + 8 * n.val + w.val)
  let note := fun (phase id : Nat) (s : State) =>
    logNow 0x0040 0x01 ([target, BitVec.ofNat 8 phase] ++ leBytes 2 (resCode .aborted) ++ leBytes 8 id) s
  match e.phase with
  | .idle => s
  | .landing => note 1 0 (s.modWin n w fun x => { x with phase := .idle, inactive := .unknown })
  | .prestaging => note 2 (manifestIdOf (s.pendingManifest n)) (s.modWin n w fun x => { x with phase := .idle, inactive := .landed })
  | .flipped => s
  | .following => s

end Sys2Proof.Machine
end

