-- ==== Sys2Proof/Machine/WeirCore.lean ====
section
/-! DEFINITION. Acceptance of events by Weir without their reactions on blocks: counting, the status words, the
first-error record and ERR_OUT_N (R422 to R444). -/
namespace Sys2Proof.Machine
open Sys2Proof

/-- CLASS in two bits (R424). -/
def classBits : EvClass → BitVec 2
  | .ce => 1
  | .ucc => 2
  | .fatal => 3

/-- The floor of a source (R436). -/
def weirFloor (s : Nat) (c : EvClass) : BitVec 5 :=
  match c with
  | .ce => 0
  | .ucc => if s = 22 ∨ s = 23 then 0b00100 else 0
  | .fatal =>
    if s ≤ 39 then 0b00100
    else if s = 40 ∨ s = 45 ∨ s = 46 ∨ s = 55 ∨ s = 56 then 0b01000 else 0

/-- The set in force of a source for a class (R434, R435). -/
def weirSet (w : WeirCfg) (s : Nat) (c : EvClass) : BitVec 5 :=
  (match c with
  | .ce => w.ceSet
  | .ucc => w.uccSet
  | .fatal => w.fatalSet) ||| weirFloor s c

/-- The window rule of R439 on a count, a window start and a lasting flag. -/
def windowCount (now winN winW count start : Nat) (lasting : Bool) : Nat × Nat × Bool :=
  let fresh := count == 0 || decide (winW ≤ (now + 2 ^ 32 - start) % 2 ^ 32)
  let c := if fresh then 1 else min 255 (count + 1)
  (c, if fresh then now else start, lasting || decide (winN ≤ c))

/-- The state word after a real event of a source (R438, R439). -/
def weirCount (now : Nat) (cfg : WeirCfg) (w : WeirState) : WeirState :=
  let r := windowCount now cfg.winN cfg.winW w.count w.winStart w.lasting
  { w with count := r.1, winStart := r.2.1, lasting := r.2.2 }

/-- The state word after a masked injection (R439, R443). -/
def weirTestCount (now : Nat) (cfg : WeirCfg) (w : WeirState) : WeirState :=
  let r := windowCount now cfg.winN cfg.winW w.testCount w.testStart w.testLasting
  { w with testCount := r.1, testStart := r.2.1, testLasting := r.2.2 }

/-- SYNDROME (R425). -/
def syndrome (code unit : Half) (detail : Word) : Dword :=
  BitVec.ofNat 64 (code.toNat + unit.toNat * 2 ^ 16 + detail.toNat * 2 ^ 32)

/-- A reaction set that stands for the safe state (R435). -/
def safeSet : BitVec 5 := 0b11111

/-- Writes the first-error record for a first event, or notes a later one (R428, R443, R444). co holds the other
sources of the cycle and inj whether an injected event came with it. -/
def weirRecord (e : WeirEv) (injected masked lasting : Bool) (reactions : BitVec 5) (co : Dword) (inj : Bool)
    (time : Nat) (r : ErrRecord) : ErrRecord :=
  let fresh : ErrRecord :=
    { source := e.source, cls := classBits e.cls, valid := true, overflow := false, lasting := lasting,
      injected := injected, injCoincident := inj, reactions := reactions, overflowCount := 0,
      syndrome := syndrome e.code e.unit e.detail, time := BitVec.ofNat 64 time, coincident := co }
  if !r.valid then fresh
  else if masked then r
  else if r.injected ∧ !injected then
    { fresh with overflow := true, overflowCount := if r.overflowCount = 255 then 255 else r.overflowCount + 1 }
  else { r with overflow := true, overflowCount := if r.overflowCount = 255 then 255 else r.overflowCount + 1 }

/-- An ERR_PIN reaction (R440, R441). -/
def errPin (w : Weir) : Weir :=
  { w with
    errHold := true
    pulseCount := w.pulseCount + 1
    pin := if w.pin = .forced then .forced else .pulse }

/-- ERR_HOLD set by the ROM or firmware (R440). -/
def setErrHold (w : Weir) : Weir :=
  { w with errHold := true, pin := if w.pin = .released then .software else w.pin }

/-- The delivery of IRQ, NMI and ERR_PIN of a reaction set (R430). -/
def deliver (r : BitVec 5) (w : Weir) : Weir :=
  let w1 := { w with irq := w.irq || r.getLsbD 0, nmi := w.nmi || r.getLsbD 1 }
  if r.getLsbD 4 then errPin w1 else w1

/-- The reaction set of a real event after it has been counted (R439). -/
def State.reactionsOf (s : State) (e : WeirEv) : BitVec 5 :=
  let cfg := s.weir.cfg[e.source]
  let st := weirCount s.tick32 cfg s.weir.st[e.source]
  weirSet cfg e.source.val e.cls ||| (if st.lasting then cfg.lastingSet else 0)

/-- One event is counted and sets its status bit; its record is a separate step. -/
def weirMark (e : WeirEv) (s : State) : State :=
  s.modWeir fun w =>
    { w with
      pending := w.pending ||| (1#64 <<< e.source.val)
      st := vmod w.st e.source (weirCount s.tick32 w.cfg[e.source]) }

/-- An event that the ROM presents before firmware start: counted, recorded, with IRQ, NMI and ERR_PIN alone (R461). -/
def romEvent (e : WeirEv) (s : State) : State :=
  let r := s.reactionsOf e
  let s1 := weirMark e s
  let lasting := (s1.weir.st[e.source]).lasting
  s1.modWeir fun w => deliver r { w with record := weirRecord e false false lasting r 0 false s.time w.record }

end Sys2Proof.Machine
end

