-- ==== Sys2Proof/Machine/Boot.lean ====
section
/-! DEFINITION. What the ROM does between a POR or CHIP reset and firmware start: the life-cycle state, the continuity
check, the selection of the firmware, the restore from a Reservoir, Headwater and the identity (R182 to R194, R288,
R461, R468, R497 to R500). -/
namespace Sys2Proof.Machine
open Sys2Proof

/-! ### Life cycle (R497 to R500) -/

/-- The LC codes of R288; SCRAPPED is 0x05 (R485). -/
def lcCode : LifeCycle → Nat
  | .manufacture => 1
  | .unowned => 2
  | .owned => 3
  | .returned => 4
  | .scrapped => 5

/-- The life-cycle state by the first row of R497 that applies. -/
def deriveLc (f : Fuses) (owned : Bool) : LifeCycle :=
  if f.scrapped then .scrapped
  else if f.returned then .returned
  else if f.deployed then (if owned then .owned else .unowned)
  else .manufacture

/-- The stores cleared by a transition out of ownership (R498). -/
def clearOwnership (v : Nvm) : Nvm :=
  { v with
    lanePolicy := Vector.replicate 8 none
    manifest0 := Vector.replicate 8 none
    manifest1 := Vector.replicate 8 none
    platform := none
    admission := none
    slots := Vector.replicate 1024 .reset
    leases := []
    records := Vector.replicate 4 none
    anchors := Vector.replicate 4 { digest := zeros 32, purpose := 0, state := .empty }
    counters := Vector.ofFn fun i => if i.val < 16 then v.counters[i] else 0
    bkCheck := zeros 32
    badCounters := v.badCounters.filter fun c => decide (c.val < 16)
    ownedWord := false }

/-- Steps 2 to 4 of R499 towards a target: the clears, the fuses, the OWNERSHIP word and the LIFECYCLE entry. The
backup key register is wiped with the memories (R493). -/
def finishTransition (t : LifeCycle) (s : State) : State :=
  let before := s.lc
  let s1 := (s.modBackup fun b => { b with key := zeros 32 }).modNvm fun v =>
    { v with ownedWord := v.ownedWord || v.ownedLost, ownedLost := false }
  let s2 := match t with
    | .unowned =>
      if before = LifeCycle.manufacture then { s1 with fuses := { s1.fuses with deployed := true }, nvm := { s1.nvm with ownedWord := false } }
      else { s1 with nvm := clearOwnership s1.nvm }
    | .owned => { s1 with nvm := { s1.nvm with ownedWord := true } }
    | .returned => { s1 with fuses := { s1.fuses with returned := true } }
    | .scrapped => { s1 with nvm := clearOwnership s1.nvm, fuses := { s1.fuses with scrapped := true, udsDestroyed := true, uds := none } }
    | .manufacture => s1
  let s3 := s2.modNvm fun v => { v with pendingTarget := none }
  let s4 := { s3 with lc := deriveLc s3.fuses s3.nvm.ownedWord }
  logNow 0x0080 0x01 [BitVec.ofNat 8 (lcCode before), BitVec.ofNat 8 (lcCode s4.lc)] s4

/-- An OWNERSHIP word without an intact copy (R497). The UNIT of NVM is 0 (DESIGN CHOICE, log 63). -/
def ownedLostEvent : WeirEv := { source := 44, cls := .ucc, code := 0x0011, unit := 0, detail := 0x360000 }

/-- Step 3 of R182 on the fuses: a part in MANUFACTURE without a UDS draws and burns one (R496); the life-cycle state
is derived (R497). -/
def readFuses (s : State) : State :=
  let s0 := { s with lc := deriveLc s.fuses (s.nvm.ownedWord || s.nvm.ownedLost) }
  let s1 := if s0.nvm.ownedLost && s0.lc == .owned then romEvent ownedLostEvent s0 else s0
  if s1.lc = .manufacture ∧ s1.fuses.uds = none then
    let d := drawBytes 48 s1
    { d.2 with fuses := { d.2.fuses with uds := some d.1 } }
  else s1

/-! ### Verifications that a reset or the safe state stops (R208) -/

/-- The verification of a lane stops without an outcome. -/
def stopVerification (l : Lane) : Lane := { l with pv := { l.pv with active := false, rules := none } }

def stopVerifications (s : State) : State := s.modLanes fun _ l => stopVerification l

/-! ### The safe state (R446, R447) -/

/-- Weir enters the safe state: the pin, and SAFE_RECORD unless source 44 is the trigger. Every Spindle halts (R208). -/
def safeState (trigger : Nat) (source : Fin 64) (s : State) : State :=
  let s1 := (stopVerifications s).modLanes fun _ l => { l with denySafe := true }
  let s2 := s1.modWeir fun w => { w with pin := .forced, errHold := true, irq := false, nmi := false }
  let s3 := platformReset (.startUp false) false s2
  let s4 := if source = 44 then s3
    else s3.modNvm fun v => { v with safeRecord := s3.weir.record, safeTrigger := BitVec.ofNat 8 trigger }
  { s4 with
    mode := .fault
    warm := false
    planned := false
    conf := { s4.conf with
      queue := []
      riffles := vmap s4.conf.riffles fun r => { r with job := none, suspended := [] }
      mandrels := vmap s4.conf.mandrels fun m => { m.cleared with job := none }
      sessions := []
      sealed := [] }
    keys := { s4.keys with cdiAlias := none, aliasReady := false, batchOpen := false, kSeal := none } }

/-! ### Continuity and Levee (R461, R468) -/

/-- The marker of R504. -/
def bootMarker : Word := 0x5A3C96E1

/-- Continuity is lost (R468). -/
def continuityLost (s : State) : Bool :=
  allZero s.backup.key || hH (0x06 :: s.backup.key) != s.nvm.bkCheck

/-- The check of R468 at step 4 of R182. -/
def checkContinuity (s : State) : State :=
  let lost := continuityLost s
  s.modBackup fun b =>
    { b with continuityLost := lost, pending := b.pending || lost, vbakLow := false, encOpen := 0 }

/-- A latched disagreement as an event of source 59 (R461). -/
def disagreeEvent (k : Fin 12) (d1 : Bool) : WeirEv :=
  { source := 59, cls := .ucc, code := 0x0070, unit := BitVec.ofNat 16 k.val, detail := if d1 then 1 else 2 }

/-- Latched disagreements are presented to Weir at step 3 of R182 (R461). -/
def presentLatched (s : State) : State :=
  let s1 := s.levee.latched.foldl (fun s x => romEvent (disagreeEvent x.1 x.2) s) s
  s1.modLevee fun l => { l with latched := [] }

/-! ### Selection (R184 to R188) -/

/-- A copy in VALID whose CRC-64 agrees and whose version meets its counter (R184); a copy with an uncorrectable word
fails its CRC (R491). -/
def copyUsable (s : State) (c : Fin 4) (b : Bool) : Bool :=
  let e := s.nvm.commit.comps[c]
  let f := s.fwCopy c b
  s.nvm.commit.intact && !f.damaged && !(c == 0 && b) && (if b then e.stateB else e.stateA) == .valid
    && crc64 (f.image ++ f.manifest) == (if b then e.crcB else e.crcA)
    && (match readComponent f.manifest with
      | none => false
      | some m => decide (s.counter m.counter ≤ m.version))

/-- Steps 1 to 9 of R177 on a component manifest; step 10 is judged for the set (R184). -/
def manifestPasses (s : State) (b : Bytes) : Option CompManifest :=
  match acceptComponent s b (fun _ => 0) with
  | .ok m => some m
  | .error f => if f.step = 10 then readComponent b else none

/-- SEC_VERSION of a copy. -/
def copyVersion (s : State) (c : Fin 4) (b : Bool) : Nat :=
  match readComponent (s.fwCopy c b).manifest with
  | none => 0
  | some m => m.version

/-- Step 10 of R177 on the ROM extension's own manifest, against the active copies (R163). The other components meet
step 10 in the set that is tried (R184). -/
def romextCompat (s : State) (m : CompManifest) : Bool :=
  compatOk m fun c => if c = 0 then m.version else copyVersion s c (s.nvm.commit.comps[c]).activeB

/-- Parts 2 and 3 of the full check of R187; part 1, the known-answer tests, comes before any copy. -/
def fullCheck (s : State) (c : Fin 4) (b : Bool) : Bool :=
  let f := s.fwCopy c b
  match manifestPasses s f.manifest with
  | none => false
  | some m => hH (0x02 :: f.image) == m.digest && (c != 0 || romextCompat s m)

/-- A copy that selection may use: usable, and past the full check where the pending flag asks for it (R184, R187). -/
def candidate (s : State) (c : Fin 4) (b : Bool) : Bool :=
  copyUsable s c b && (!s.backup.pending || fullCheck s c b)

/-- The version with which each component of a choice of copies enters a set; an unusable ROM extension counts as 0
(R184). -/
def setVersion (s : State) (romext : Bool) (pick : Fin 4 → Bool) (c : Fin 4) : Nat :=
  if c = 0 then (if romext then copyVersion s 0 false else 0) else copyVersion s c (pick c)

/-- A choice of copies is usable and compatible (R184). -/
def setOk (s : State) (romext : Bool) (pick : Fin 4 → Bool) : Bool :=
  [1, 2, 3].all fun (c : Fin 4) =>
    candidate s c (pick c)
      && (match readComponent (s.fwCopy c (pick c)).manifest with
        | none => false
        | some m => compatOk m (setVersion s romext pick))

/-- The tries of R185. -/
def tryPick (s : State) (t : Nat) (c : Fin 4) : Bool :=
  let a := (s.nvm.commit.comps[c]).activeB
  if t = 1 then a
  else if t = 2 then (if candidate s c a then a else !a)
  else (if candidate s c (!a) then !a else a)

/-- The tries that an attempt count allows before any restore (R186). -/
def triesAllowed (n : Nat) : List Nat :=
  if n ≤ 2 then [1, 2, 3] else if n ≤ 5 then [3] else if n ≤ 8 then [1, 2] else []

/-- The first of some tries whose set can be started (R185). -/
def firstTry (s : State) (romext : Bool) (ts : List Nat) : Option Nat :=
  ts.find? fun t => setOk s romext (tryPick s t)

/-! ### Restoring from a Reservoir (R189, R264) -/

/-- A component written through the verify-gated path into a copy that becomes VALID, and ACTIVE where told (R161,
R264, R279). -/
def commitCopy (c : Fin 4) (b : Bool) (image manifest : Bytes) (activate : Bool) (s : State) : State :=
  let crc := crc64 (image ++ manifest)
  let f : FwCopy := ⟨image, manifest, false⟩
  let s1 := s.modNvm fun v =>
    if b then { v with copyB := vmod v.copyB c fun _ => f } else { v with copyA := vmod v.copyA c fun _ => f }
  s1.modCommit fun k =>
    { k with
      seq := k.seq + 1
      comps := vmod k.comps c fun e =>
        if b then { e with stateB := .valid, crcB := crc, activeB := if activate then true else e.activeB }
        else { e with stateA := .valid, crcA := crc, activeB := if activate then false else e.activeB } }

/-- An image agrees with its manifest (R161, R264). -/
def imageFits (m : CompManifest) (image : Bytes) : Bool :=
  image.length == m.span && hH (0x02 :: image) == m.digest

/-- A component that the ROM has begun to write and cannot commit: the copy becomes EMPTY (R264). -/
def failCopy (c : Fin 4) (b : Bool) (image : Bytes) (s : State) : State :=
  let put := fun (f : FwCopy) => { f with image := image }
  let s1 := s.modNvm fun v =>
    if b then { v with copyB := vmod v.copyB c put } else { v with copyA := vmod v.copyA c put }
  s1.modCommit fun k =>
    { k with
      seq := k.seq + 1
      comps := vmod k.comps c fun e => if b then { e with stateB := .empty } else { e with stateA := .empty } }

/-- The SEC_VERSION of the ROM extension that will run: none where the one of the restored set comes with it (R188,
R189). After a WARM reset no other one runs (R266). -/
def extVersion (warm : Bool) (s : State) : Option Nat :=
  if warm then some (if s.romextRan then copyVersion s 0 false else 0)
  else if candidate s 0 false then some (copyVersion s 0 false)
  else none

/-- The manifests of a Reservoir set with their components, where each passes R189 beside the ROM extension that will
run. -/
def resSetOk (ext : Option Nat) (s : State) (e : DirEntry) : Option (List (CompManifest × Bytes × Bytes)) :=
  let ms := e.comps.mapM fun c => (manifestPasses s c.1).map fun m => (m, c.1, c.2)
  match ms with
  | none => none
  | some l =>
    let own := fun (c : Fin 4) => ((l.find? fun x => x.1.target == c.val + 1).map (·.1.version)).getD 0
    let ver := fun (c : Fin 4) => if c = 0 then ext.getD (own 0) else own c
    if ([2, 3, 4].all fun t => l.any fun x => x.1.target == t) && l.all (fun x => compatOk x.1 ver) then some l else none

/-- The newest complete set of a Reservoir that passes (R189, R270). -/
def newestSet (ext : Option Nat) (s : State) (x : Sel) : Option (List (CompManifest × Bytes × Bytes)) :=
  let r := s.res x
  if !r.present || r.held then none
  else
    let es := r.dir.filter fun e => e.isSet && e.state == .complete && (resSetOk ext s e).isSome
    (es.foldl (fun b e => match b with
      | none => some e
      | some (d : DirEntry) => if d.generation < e.generation then some e else b) none).bind (resSetOk ext s)

/-- Writes components into their inactive copies, the ROM extension into its own area; each becomes active and VALID as its
write commits. False with the first write that does not (R189, R264). -/
def writeSet : List (CompManifest × Bytes × Bytes) → State → State × Bool
  | [], s => (s, true)
  | x :: xs, s =>
    match compFin x.1.target with
    | none => writeSet xs s
    | some c =>
      let b := c != 0 && !(s.nvm.commit.comps[c]).activeB
      if imageFits x.1 x.2.2 then writeSet xs (commitCopy c b x.2.2 x.2.1 true s) else (failCopy c b x.2.2 s, false)

/-- The engines that the ROM tests before a full check or a restore and that fail (R187, R361; assumption 58). -/
def romKat (s : State) : List Engine := [.riffle 8, .mandrel 0, .mandrel 1].filter s.defects.engines.contains

/-- A failure in the ROM: FATAL, which enters the safe state before firmware start (R183, R437). -/
def romFault (e : WeirEv) (s : State) : State :=
  if s.warm then romEvent e s
  else
    let s1 := weirMark e s
    let lasting := (s1.weir.st[e.source]).lasting
    safeState 2 e.source (s1.modWeir fun w => { w with record := weirRecord e false false lasting safeSet 0 false s.time w.record })

/-- The event of an engine that fails its known-answer test (R362, R384, R425). -/
def katEvent (e : Engine) (test : Nat) : WeirEv :=
  match e with
  | .riffle i =>
    if i.val < 8 then ⟨Fin.ofNat 64 i.val, .fatal, 6, 1, BitVec.ofNat 32 test⟩
    else ⟨Fin.ofNat 64 (24 + (i.val - 8) / 3), .fatal, 0x31, BitVec.ofNat 16 ((i.val - 8) % 3), BitVec.ofNat 32 test⟩
  | .mandrel m => ⟨Fin.ofNat 64 (32 + m.val), .fatal, 0x31, 0, BitVec.ofNat 32 test⟩

/-- The known-answer tests of R187 and R361 have failed on an engine; the number of the failed test is a free value. -/
def katFault (e : Engine) (s : State) : State :=
  let d := drawNat s
  romFault (katEvent e d.1) d.2

/-- Some components of the newest set, from Reservoir A, then from B (R189). The tests of R361 come first. -/
def restoreFrom (pick : CompManifest × Bytes × Bytes → Bool) (ext : Option Nat) (s : State) : State × Bool :=
  let go := fun (x : Sel) (s0 : State) =>
    let s := openRes x s0
    match newestSet ext s x with
    | none => (s, false)
    | some l => writeSet (l.filter pick) s
  match romKat s with
  | e :: _ => (katFault e s, false)
  | [] =>
    match go .a s with
    | (t, true) => (t, true)
    | (t, false) => go .b t

/-- The restore of R189. The ROM extension comes with it where none is usable. -/
def restoreSet (ext : Option Nat) (s : State) : State × Bool :=
  restoreFrom (fun x => x.1.target != 1 || ext.isNone) ext s

/-- The ROM extension alone is restored where it is not usable (R188). -/
def restoreRomext (s : State) : State :=
  if candidate s 0 false then s else (restoreFrom (fun x => x.1.target == 1) none s).1

/-- The record that R281 writes after a restore without an intact copy. -/
def freshCommit (s : State) : State :=
  s.modCommit fun k =>
    { Commit.reset with
      comps := vmap k.comps fun _ => { activeB := false, stateA := .empty, stateB := .empty, crcA := 0, crcB := 0 }
      seq := k.seq + 1 }

/-! ### Identity (R288) -/

/-- A_OWNER (R288). -/
def ownerDigest (s : State) : Bytes :=
  match s.nvm.anchors.toList.find? fun a => a.state == .active with
  | none => zeros 32
  | some a => a.digest

/-- ROM_DIGEST (R288). -/
def romDigest : Bytes := (List.range 48).map Config.romDigestByte

/-- D_HS and V_HS: of the HEADSTOCK_FW that runs; zero in Headwater (R288, R531). -/
def headstockId (s : State) : Bytes × Nat :=
  match s.mode, readComponent (s.fwCopy 1 s.running[1]).manifest with
  | .headwater, _ => (zeros 32, 0)
  | _, some m => (m.digest, m.version)
  | _, none => (zeros 32, 0)

/-- CDI_ALIAS for the layer that runs (R288, R531). -/
def cdiAliasOf (s : State) (cdiDev : Bytes) : Bytes :=
  let h := headstockId s
  hmac .sha384 cdiDev (ascii "VRND-ALIAS" ++ s.keys.dRomext ++ h.1 ++ leBytes 4 h.2 ++ [BitVec.ofNat 8 (lcCode s.lc)]
    ++ ownerDigest s)

/-- No Mandrel keeps a resident key, and no sealed context opens (R377, R379). -/
def forgetKeys (c : Confluence) : Confluence :=
  { c with
    sealed := []
    mandrels := vmap c.mandrels fun m => if m.secret then m.cleared else m }

/-- The Alias layer is derived from the value that the ROM retains; one batch of certificates may follow (R290, R291,
R511). The certificate of the Alias before it is kept for the tokens that it signed (R316, R318). -/
def deriveAlias (s : State) : State :=
  { s with conf := forgetKeys s.conf }.modKeys fun k =>
    { k with
      cdiAlias := k.cdiDev.map (cdiAliasOf s)
      batchOpen := true
      aliasReady := false
      gicEarlier := if k.gicAlias = [] then k.gicEarlier else k.gicEarlier ++ [k.gicAlias]
      gicAlias := []
      x509Alias := [] }

/-- Step 10 of R182. -/
def deriveIdentity (s : State) : State :=
  let d := match s.romextRan, readComponent (s.fwCopy 0 false).manifest with
    | true, some m => m.digest
    | _, _ => zeros 32
  let s1 := s.modKeys fun k =>
    { k with
      dRomext := d
      cdiDev := if k.udsLocked then k.cdiDev else s.fuses.uds.map fun u => hmac .sha384 u (ascii "VRND-DEV" ++ romDigest)
      udsLocked := true }
  deriveAlias s1

/-! ### Headwater (R191) -/

/-- The ROM serves the mailboxes (R192, R194). -/
def serveMailboxes (s : State) : State := s.modLanes fun _ l => { l with mb := { l.mb with paused := false } }

/-- Every Spindle is in reset: each lane is in DENY_ALL and verifies nothing (R191; the cause of R105 is the model's,
assumption 58). -/
def holdSpindles (s : State) : State := (stopVerifications s).modLanes fun _ l => { l with denyReset := true }

/-- Entry to Headwater (R191, R243, R440, R531). -/
def enterHeadwater (cause : Nat) (s : State) : State :=
  let s0 := { holdSpindles s with mode := .headwater, warm := false, planned := false }
  let s1 := s0.modCommit fun k => { k with selectedTry := 0, seq := k.seq + 1 }
  let s2 := s1.modWeir setErrHold
  let s3 := platformReset (.startUp false) false s2
  let s4 := if s3.chuck.main = .off then outputsToReset s3 else s3
  deriveIdentity (logNow 0x0051 0x00 [BitVec.ofNat 8 cause] (serveMailboxes s4))

/-! ### The ROM's run (R182 steps 3 to 11) -/

/-- The unusable-copy mask of START (R477). -/
def unusableMask (s : State) : Nat :=
  ([1, 2, 3].foldl (fun a (c : Fin 4) =>
    a + (if candidate s c false then 0 else 2 ^ (2 * (c.val - 1))) + (if candidate s c true then 0 else 2 ^ (2 * (c.val - 1) + 1))) 0)
    + (if candidate s 0 false then 0 else 64)

/-- A START entry (R477). restored tells whether the set came from a Reservoir. -/
def logStart (overrun : Bool) (mask : Nat) (s : State) : State :=
  let c := s.nvm.commit
  logNow 0x0050 0x00 [BitVec.ofNat 8 c.selectedTry, BitVec.ofNat 8 c.attempts, BitVec.ofNat 8 (b2n overrun), BitVec.ofNat 8 mask,
    if c.selectedTry = 4 then 1 else 0] s

/-- The set of a try is selected: the attempt count is raised, FW_STARTED is cleared, and the set and the ROM extension
that run are noted (R185, R186, R188, R279). The START entry names the copies that selection found unusable, before any
restore (R183). On a WARM restart the ROM extension does not run again, and the Alias layer alone is derived (R266,
R291). -/
def selectTry (warm : Bool) (mask t : Nat) (restored : Bool) (s : State) : State :=
  let romext := if warm then s.romextRan else candidate s 0 false
  let pick := tryPick s t
  let s1 := { s with running := Vector.ofFn fun c => if c = 0 then false else pick c, romextRan := romext }
  let s2 := s1.modCommit fun k =>
    { k with
      attempts := min 255 (k.attempts + 1)
      selectedTry := if restored then 4 else t
      fwStarted := false
      romextOverrun := false
      seq := k.seq + 1 }
  let s3 := logStart false mask s2
  if warm then deriveAlias { s3 with mode := .rom } else deriveIdentity { s3 with mode := .rom }

/-- The ROM extension that runs with a set (R184). -/
def romextRuns (warm : Bool) (s : State) : Bool := if warm then s.romextRan else candidate s 0 false

/-- No set can be started: the copies found unusable are logged as a START entry with SELECTED_TRY 0, and Headwater is
entered (R183, R191; assumption 58). -/
def noSet (cause mask : Nat) (s : State) : State :=
  enterHeadwater cause (if mask = 0 then s else logStart false mask (s.modCommit fun k => { k with selectedTry := 0, seq := k.seq + 1 }))

/-- Selection (R185, R186, R281). A known-answer test that fails before the full check or a restore ends the start in the
safe state (R437). -/
def selectFirmware (warm : Bool) (s : State) : State :=
  let mask := unusableMask s
  match s.backup.pending && !warm, romKat s with
  | true, e :: _ => katFault e s
  | _, _ =>
    let first := if s.nvm.commit.intact then (s, false) else restoreSet (extVersion warm s) (freshCommit s)
    let s2 := if warm || first.1.mode == .fault then first.1 else restoreRomext first.1
    let n := s2.nvm.commit.attempts
    let second := if n = 6 ∧ !first.2 ∧ s2.mode ≠ .fault then restoreSet (extVersion warm s2) s2 else (s2, first.2)
    let ts := triesAllowed n
    let s3 := second.1
    if s3.mode = .fault then s3
    else match firstTry s3 (romextRuns warm s3) ts with
      | some t => selectTry warm mask t second.2 s3
      | none =>
        let third := if n ≤ 5 ∧ !second.2 then restoreSet (extVersion warm s3) s3 else (s3, false)
        let s4 := third.1
        if s4.mode = .fault then s4
        else match third.2, firstTry s4 (romextRuns warm s4) ts with
          | true, some t => selectTry warm mask t true s4
          | _, _ => noSet (if 9 ≤ n then 0 else 1) mask s4

/-- A fuse word of a field that is burned once (R494): UDS, DEVICE_SERIAL and PRODUCT, the vendor anchors, and TRIM. -/
def onceWord (w : Fin 512) : Bool :=
  decide (w.val ≤ 14) || decide (16 ≤ w.val ∧ w.val ≤ 31) || decide (36 ≤ w.val ∧ w.val ≤ 99)

/-- Parity failures of "once" words at step 3 (R495). In SCRAPPED the UDS words are exempt. -/
def parityEvents (s : State) : List WeirEv :=
  (s.fuses.badParity.filter fun w => onceWord w && (s.lc != .scrapped || decide (12 ≤ w.val))).map fun w =>
    ⟨45, .fatal, 0x67, 0, BitVec.ofNat 32 (4 * w.val)⟩

/-- Step 2 of R182 to firmware start (R182, R183, R194, R461, R468, R495, R500). -/
def romRun (s : State) : State :=
  let s1 := readFuses (s.modChuck fun c => { c with ioOn := Vector.replicate 22 true })
  let s2 := match s1.nvm.pendingTarget.filter fun _ => !s1.nvm.ownedLost with
    | none => s1
    | some t => readFuses ((finishTransition t s1).modWeir fun w => { w with causeRecord := w.record, cause := 6 })
  let s3 := presentLatched s2
  match parityEvents s3 ++ s3.defects.tests with
  | e :: _ => romFault e { s3 with defects := { s3.defects with tests := [] } }
  | [] =>
    let s4 := checkContinuity s3
    if s4.lc = .scrapped then serveMailboxes { s4 with mode := .scrapped } else selectFirmware false s4

end Sys2Proof.Machine
end

