-- ==== Sys2Proof/Machine/Resets.lean ====
section
/-! DEFINITION. The resets of Virund as R503 and the matrix of R508 give them: CHIP, POR, WARM, and the entry to the
safe state (R446). -/
namespace Sys2Proof.Machine
open Sys2Proof

/-- CAUSE of RESET_CAUSE (R448). -/
def causeCode : ResetCause → Nat
  | .weir => 1
  | .rstIn => 2
  | .levee => 3
  | .startWatchdog => 4
  | .headwaterCommit => 5
  | .other => 6

/-- Weir after a CHIP reset (R429, R438, R440, R441, R448, R508). -/
def chipWeir (cause : ResetCause) (w : Weir) : Weir :=
  { Weir.reset with
    pin := if w.pin = .forced then .software else w.pin
    errHold := w.errHold
    stormCount := if cause = .rstIn then 0 else w.stormCount
    stormStart := if cause = .rstIn then 0 else w.stormStart
    causeRecord := w.record
    cause := BitVec.ofNat 8 (causeCode cause) }

/-- Levee after a CHIP reset (R454, R470). The counts and the alarm record are kept. -/
def chipLevee (l : Levee) : Levee :=
  { l with
    kinds := vmapI l.kinds fun k x => { LeveeKind.reset k.val with alarms := x.alarms, disagrees := x.disagrees } }

/-- A Reservoir after a CHIP reset: claims end, a port held is released, a write in progress stops (R431, R508). -/
def chipReservoir (r : Reservoir) : Reservoir :=
  { r with held := false, rstHigh := false, claim := none, refreshing := none, suspended := false }

/-- Keys after a CHIP reset (R291, R493, R502); the Alias certificates stay for the tokens they signed (R316). -/
def chipKeys (k : Keys) : Keys :=
  { Keys.reset with entropyFailed := k.entropyFailed, gicAlias := k.gicAlias, gicEarlier := k.gicEarlier }

/-- Stolik after a reset that clears its objects (R508), with the counts that name objects and the records whose
defaulting is still to be answered by a write (R406). -/
def clearStolik (k : Stolik) : Stolik :=
  { Stolik.reset with bootCount := k.bootCount, nextHeld := k.nextHeld, defaulted := k.defaulted }

/-- Chuck over a CHIP reset: kept, with operations in progress to start again (R245), and the domains of R326. -/
def chipChuck (s : State) : State :=
  (restartWaits s).modChuck fun c =>
    { c with held := [], enginePd := reservePd c.mainFromVsb, power := .run, wakeAt := none }

/-- The CHIP column of R508. -/
def chipAssert (cause : ResetCause) (s : State) : State :=
  let s1 := chipChuck (cutWrite (dropFirmwareQueue s))
  { s1 with
    mode := .held
    warm := false
    planned := false
    romextRan := false
    t1 := 0
    lanes := vmapI s1.lanes bootLane
    engines := Vector.replicate 10 true
    replacedEngines := Vector.replicate 10 false
    mirror := []
    pages := []
    cacheBanks := 0
    staging := []
    resA := chipReservoir s1.resA
    resB := chipReservoir s1.resB
    keys := chipKeys s1.keys
    weir := chipWeir cause s1.weir
    levee := chipLevee s1.levee
    conf := { Confluence.reset with nextSession := s1.conf.nextSession, nextJob := s1.conf.nextJob }
    stolik := clearStolik s1.stolik
    buses := vmap s1.buses fun b => { b with spdm := .none, spdmOut := none, ctrlOut := none }
    adm := none
    fabric := { Fabric.reset with
      aseq := s1.fabric.aseq, nextMsg := s1.fabric.nextMsg, lastExchange := s1.fabric.lastExchange,
      synced := s1.fabric.synced }
    snap := ⟨[]⟩ }

/-- A CHIP reset and the start-up that follows, while nothing holds Virund in reset (R503, R508). -/
def chipReset (cause : ResetCause) (s : State) : State := romRun (chipAssert cause s)

/-- The POR column of R508: everything but the backup domain, NVM, the fuses and what lies outside Virund returns to
State.reset. Device time resumes from the backup copy, or after a BACKUP-LOSS from the checkpoint (R504, R517, R518). -/
def porAssert (vsel : Vector Strap 22) (mbAddr : Vector Strap 2) (pullMaster : Strap) (s : State) : State :=
  let lost := s.backup.marker != bootMarker
  let r := State.reset
  { r with
    pending := s.pending
    free := s.free
    tick := s.tick
    time := if lost then min timeMax (max s.time (s.nvm.timeCheckpoint.toNat + 2 ^ 31)) else s.time
    timeFrac := s.timeFrac
    timeSource := if lost then 0 else s.timeSource
    lanes := vmapI s.lanes fun n l => bootLane n l
    resA := chipReservoir s.resA
    resB := chipReservoir s.resB
    chuck :=
      { Chuck.reset with
        vin := s.chuck.vin
        vbak := s.chuck.vbak
        mainFromVsb := !s.chuck.vin
        enginePd := reservePd (!s.chuck.vin)
        rstLow := s.chuck.rstLow
        vsel := vsel
        mbAddr := mbAddr
        pullMaster := pullMaster
        inGood := s.chuck.inGood
        monGood := s.chuck.monGood
        platHigh := false }
    fuses := s.fuses
    nvm := (cutWrite (dropFirmwareQueue s)).nvm
    keys := { Keys.reset with gicAlias := s.keys.gicAlias, gicEarlier := s.keys.gicEarlier }
    backup := s.backup
    stolik := clearStolik s.stolik
    fabric := { Fabric.reset with
      aseq := s.fabric.aseq, nextMsg := s.fabric.nextMsg, lastExchange := s.fabric.lastExchange,
      synced := s.fabric.synced && !lost }
    levee :=
      { Levee.reset with
        kinds := vmapI s.levee.kinds fun k x => { LeveeKind.reset k.val with alarms := x.alarms, disagrees := x.disagrees }
        latched := s.levee.latched
        lastRound := s.tick }
    defects := s.defects
    patrolled := s.patrolled }

/-! ### WARM (R268, R336, R397, R508) -/

/-- Class-0 jobs are kept; the others end with no result (R336). -/
def warmConf (c : Confluence) : Confluence :=
  let keep := fun (j : Job) => j.cls == 0
  { c with
    queue := c.queue.filter keep
    riffles := vmap c.riffles fun r =>
      { r with job := r.job.filter keep, suspended := r.suspended.filter keep }
    mandrels := vmap c.mandrels fun m => { m.cleared with job := none }
    sessions := []
    sealed := []
    lengths := c.lengths.filter fun x => match x.1 with
      | .leaf _ .scrub => false
      | .leaf _ (.verify _ _) => false
      | .leaf _ _ => true
      | _ => false }

/-- The WARM column of R508. Inbound mailbox bytes are cleared unless the pause is planned (R397). A verification that has
not completed begins again after the next firmware start (R208). -/
def warmAssert (s : State) : State :=
  let s1 := stopVerifications (restartWaits (dropFirmwareQueue s))
  let s2 := s1.modLanes fun _ l =>
    { l with mb := { l.mb with
        paused := true
        inBuf := if s.planned then l.mb.inBuf else []
        taken := if s.planned then l.mb.taken else 0
        outBuf := l.mb.outBuf
        lost := l.mb.lost && s.planned } }
  { s2 with
    mode := .rom
    warm := true
    t1 := 0
    staging := s2.staging.filter fun u => !u.chunk
    keys := { s2.keys with
      cdiAlias := none, aliasReady := false, batchOpen := false, kSeal := none }
    buses := vmap s2.buses fun b => { b with spdm := .none }
    weir := { s2.weir with st := vmap s2.weir.st fun x => { x with testCount := 0, testLasting := false } }
    conf := warmConf s2.conf
    stolik := if s.planned then { clearStolik s2.stolik with waiting := s2.stolik.waiting } else clearStolik s2.stolik
    fabric := { s2.fabric with reasm := [], bridged := [], alertIrq := false }
    snap := ⟨[]⟩ }

/-- A WARM reset and the ROM's WARM path, which selects the set again (R185, R268, R291). In Headwater, the fault state
and while Virund is held, no firmware runs and the reset has nothing to restart. -/
def warmReset (s : State) : State :=
  match s.mode with
  | .firmware => selectFirmware true (warmAssert s)
  | .paused => selectFirmware true (warmAssert s)
  | .rom => selectFirmware true (warmAssert s)
  | _ => s

end Sys2Proof.Machine
end

