-- ==== Sys2Proof/Machine/Weir.lean ====
section
/-! DEFINITION. Weir's reactions: BLOCK resets, CHIP resets and their storm count, the safe state, and the acceptance of
the events of one cycle (R423 to R449). -/
namespace Sys2Proof.Machine
open Sys2Proof

/-- FATAL enters the safe state whatever its set: between a POR or CHIP reset and firmware start (R437). DEEP comes before the
CHIP reset of its wake. -/
def State.beforeFirmware (s : State) : Bool :=
  match s.mode with
  | .held => s.chuck.power != .deep
  | .rom => !s.warm
  | .headwater => true
  | .scrapped => true
  | _ => false

/-! ### BLOCK resets (R431) -/

/-- The block of a source and UNIT is in a BLOCK reset (R433). The pool groups reset whole. -/
def blockUnit (s : Fin 64) (unit : Nat) : Nat :=
  if s.val ≤ 7 then unit else if s.val = 49 then unit % 16 else 0

def State.inBlockReset (s : State) (src : Fin 64) (unit : Nat) : Bool :=
  s.weir.blocks.any fun b => b.1 == src && b.2.1 == unit

/-- Notes that a block is in reset, held where its source is lasting. -/
def noteBlock (src : Fin 64) (unit : Nat) (held : Bool) (s : State) : State :=
  s.modWeir fun w => { w with blocks := w.blocks ++ [(src, unit, held)] }

/-- Chuck leaves the domains of a held block unpowered (R431). -/
def noteHeld (src : Fin 64) (held : Bool) (s : State) : State :=
  if held then s.modChuck fun c => { c with held := if c.held.contains src then c.held else c.held ++ [src] } else s

/-- Riffles leave service; a lane that hashes on one of them claims another (R324, R362). -/
def rifflesDown (is : List (Fin 32)) (s : State) : State :=
  let users := (fins 8).filter fun n => is.any fun i => (s.lane n).riffle == some i
  users.foldl (fun s n => boundRiffleLost n s) (withdrawRiffles is s)

def riffleDown (i : Fin 32) (s : State) : State := rifflesDown [i] s

/-- The Riffles of pool group g. -/
def groupRiffles (g : Nat) : List (Fin 32) := (fins 32).filter fun i => decide (8 + 3 * g ≤ i.val ∧ i.val ≤ 10 + 3 * g)

/-- A route has an entry on some link. -/
def Route.known (r : Route) : Bool := r.hops.toList.any (·.isSome)

/-- Every route entry for a link is removed (R537). -/
def dropLinkRoutes (k : Fin 4) (f : Fabric) : Fabric :=
  { f with routes := (f.routes.map fun r => { r with hops := vmod r.hops k fun _ => none }).filter (·.known) }

/-- A link goes down: its session, its retry buffer and its peer are lost, and the routes over it at once (R528, R530, R534,
R537). -/
def linkDown (k : Fin 4) (s : State) : State :=
  (s.modLink k fun l => { Link.reset with signal := l.signal, held := l.held }).modFabric (dropLinkRoutes k)

/-- The BLOCK reset of R431 for a source and UNIT. A block already in a BLOCK reset absorbs it (R433). -/
def blockReset (src : Fin 64) (unit : Nat) (lasting : Bool) (s : State) : State :=
  let v := src.val
  let u := blockUnit src unit
  if s.inBlockReset src u then s
  else if v ≤ 7 then
    if u = 1 then riffleDown (Fin.ofNat 32 v) (noteBlock src 1 lasting s) else s
  else if v ≤ 9 then
    let k : Fin 10 := Fin.ofNat 10 v
    if (fins 8).any fun n => (s.lane n).engine == k then s
    else noteBlock src 0 lasting { s with engines := vmod s.engines k fun _ => false }
  else if v ≤ 17 then
    noteBlock src 0 false (s.modLane (Fin.ofNat 8 (v - 10)) fun l => { l with mb := { l.mb with paused := true } })
  else if v ≤ 21 then noteBlock src 0 false s
  else if v ≤ 23 then warmReset s
  else if v ≤ 31 then
    noteHeld src lasting (rifflesDown (groupRiffles (v - 24)) (noteBlock src 0 lasting s))
  else if v ≤ 39 then noteHeld src lasting (withdrawMandrel (Fin.ofNat 8 (v - 32)) (noteBlock src 0 lasting s))
  else if v = 47 ∨ v = 48 then
    let x : Sel := if v = 47 then .a else .b
    endClaim x (noteBlock src 0 lasting (s.modRes x fun r => { r with held := true, refreshing := none, suspended := false }))
  else if v = 49 then
    noteBlock src u false (s.modBus (Fin.ofNat 16 u) fun b => { b with spdmOut := none, ctrlOut := none })
  else if 50 ≤ v ∧ v ≤ 53 then
    let k : Fin 4 := Fin.ofNat 4 (v - 50)
    noteBlock src 0 lasting ((linkDown k s).modLink k fun l => { l with held := true })
  else if v = 60 then
    noteBlock src 0 lasting (s.modKeys fun k => { k with debugUnlocked := false, tapIr := .bypass })
  else s

/-! ### Reactions of one event that do not wait for a set -/

/-- The tracker of a lane whose capture area holds an address of the manifest cache (R113). -/
def State.captureAt (s : State) (a : Nat) : Option (Fin 8 × Fin 64) :=
  (s.cacheLanes.foldl (fun (st : Nat × Option (Fin 8 × Fin 64)) x =>
    let size := captureArea x.2
    let last := st.1 + 64 * size
    (last, if st.1 ≤ a ∧ a < last then some (x.1, Fin.ofNat 64 ((a - st.1) / size)) else st.2)) (s.copiesEnd, none)).2

/-- An uncorrectable word of the manifest cache (R118): of a capture area, whose leaf goes to a flash check; of a page, which
is read again. In one copy of a leaf state map or a tree top it is rewritten from the other. -/
def cacheWordLost (bank word : Nat) (s : State) : State :=
  let a := cacheBankBytes * bank + 8 * word
  match s.captureAt a, s.pages.find? fun p => slotBytes * p.slot ≤ a ∧ a < slotBytes * (p.slot + 1) with
  | some (n, t), _ =>
    s.modLane n fun l =>
      if l.trackers[t].st = .free then l
      else startHash (queueCheck (l.trackers[t]).ref (l.modTracker t fun _ => Tracker.free))
  | none, some p => (dropPage p.lane p.region p.page s).modLane p.lane (requestPage ⟨p.region, 16 * p.page⟩)
  | none, none => s

/-- What the block itself does with its event, whatever the reaction set: a lane-engine fault starts takeover (R76); a
failed known-answer test or wipe withdraws the engine (R362, R377, R384); the entropy source and an uncorrectable word
of the mirror memory or the manifest cache have the effects of R451, R137 and R118. -/
def eventEffect (e : WeirEv) (s : State) : State :=
  let v := e.source.val
  let code := e.code.toNat
  if v ≤ 9 ∧ e.unit = 0 ∧ (code = 1 ∨ code = 2) then engineFault (Fin.ofNat 10 v) s
  else if v ≤ 7 ∧ code = 6 then (if (s.riffle (Fin.ofNat 32 v)).inService then riffleDown (Fin.ofNat 32 v) s else s)
  else if v ≤ 7 ∧ e.unit = 0 ∧ code = 3 then s.modLane (Fin.ofNat 8 v) fun l => { l with tableBad := true }
  else if 24 ≤ v ∧ v ≤ 31 ∧ code = 0x31 then
    (match (groupRiffles (v - 24))[e.unit.toNat]? with
    | none => s
    | some i => if (s.riffle i).inService then riffleDown i s else s)
  else if 32 ≤ v ∧ v ≤ 39 ∧ (code = 0x31 ∨ code = 0x33) then
    (let m : Fin 8 := Fin.ofNat 8 (v - 32)
    if (s.mandrel m).inService then withdrawMandrel m s else s)
  else if v = 41 ∧ (code = 0x11 ∨ code = 0x12) then
    (match s.mirror.find? fun x => x.bank == e.unit.toNat && decide (x.offset ≤ 8 * e.detail.toNat)
        && decide (8 * e.detail.toNat < x.offset + x.size) with
    | none => s
    | some x => loseMirror x.lane x.leaf s)
  else if v = 42 ∧ (code = 0x11 ∨ code = 0x12) then cacheWordLost e.unit.toNat e.detail.toNat s
  else if v = 58 ∧ code = 0x65 then s.modKeys fun k => { k with entropyFailed := true }
  else s

/-! ### A cycle's events (R423, R428, R433, R439) -/

/-- Events in source order (R439). -/
def insertEv (e : WeirEv) : List WeirEv → List WeirEv
  | [] => [e]
  | x :: xs => if e.source.val < x.source.val then e :: x :: xs else x :: insertEv e xs

def sortEvs (l : List WeirEv) : List WeirEv := l.foldl (fun a e => insertEv e a) []

/-- The first event of each source, and those that wait for a later cycle (R423). -/
def splitCycle : List WeirEv → List WeirEv → List WeirEv → List WeirEv × List WeirEv
  | [], now, later => (now, later)
  | e :: es, now, later =>
    if now.any fun x => x.source == e.source then splitCycle es now (later ++ [e]) else splitCycle es (now ++ [e]) later

/-- COINCIDENT: the real sources of the cycle other than the recorded one (R428). -/
def coincident (evs : List WeirEv) (e : WeirEv) : Dword :=
  (evs.filter fun x => x.source != e.source).foldl (fun a x => a ||| (1#64 <<< x.source.val)) 0

/-- The set that the record names: the safe state's where the event enters it (R435). -/
def recordedSet (safe : Bool) (r : BitVec 5) : BitVec 5 := if safe then safeSet else r

/-- The event enters the safe state of itself (R437, R446). -/
def entersSafe (s : State) (e : WeirEv) : Bool := e.source == 63 || (e.cls == .fatal && s.beforeFirmware)

/-- One CHIP_RESET reaction is counted in the storm word; true with the fourth in the window (R446, R449). -/
def stormStep (s : State) : Bool × State :=
  let r := windowCount s.tick32 4 2097152 s.weir.stormCount s.weir.stormStart false
  (decide (4 ≤ r.1), s.modWeir fun w => { w with stormCount := min 7 r.1, stormStart := r.2.1 })

/-- The events of one cycle: the real ones in source order, and live injections, which follow the real event of their
source (R444); injected tells that an injected event, masked or live, came with them. -/
def acceptCycle (real live : List WeirEv) (injected : Bool) (s : State) : State :=
  let evs := live.foldl (fun a e => insertEv e a) real
  let isLive := fun (e : WeirEv) => live.contains e && !real.contains e
  -- every event is counted and marked
  let marked := evs.foldl (fun s e => weirMark e s) s
  let set := fun (e : WeirEv) =>
    let cfg := marked.weir.cfg[e.source]
    weirSet cfg e.source.val e.cls ||| (if (marked.weir.st[e.source]).lasting then cfg.lastingSet else 0)
  let safe := fun e => entersSafe s e
  -- CHIP_RESET reactions and the storm
  let chip := evs.any fun e => (set e).getLsbD 3 && e.source != 63
  let (storm, s1) := if chip then stormStep marked else (false, marked)
  -- the record: the lowest source when it is free, the lowest real source when it holds an injected event; otherwise
  -- each event counts as later
  let first := if !s1.weir.record.valid then evs.head?
    else if s1.weir.record.injected then real.head? else none
  let stormy := fun e => storm && (set e).getLsbD 3
  let write := fun (s : State) (e : WeirEv) =>
    s.modWeir fun w =>
      { w with
        record := weirRecord e (isLive e) false (marked.weir.st[e.source]).lasting
          (recordedSet (safe e || stormy e) (set e)) (coincident real e) (injected && !isLive e) s.time w.record }
  let s2 := match first with
    | some e => write s1 e
    | none => evs.foldl write s1
  -- reactions
  match evs.find? safe with
  | some e => safeState (if e.source = 63 then 1 else 2) e.source s2
  | none =>
    let effects := fun (s : State) => evs.foldl (fun s e => eventEffect e s) s
    let union := evs.foldl (fun a e => a ||| set e) 0
    if storm then safeState 3 ((evs.find? stormy).elim 0 (·.source)) s2
    else if chip then
      let s3 := chipAssert .weir (s2.modWeir (deliver union))
      romRun (s3.modWeir fun w => { w with irq := union.getLsbD 0, nmi := union.getLsbD 1 })
    else
      let s3 := effects (s2.modWeir (deliver union))
      evs.foldl (fun s e =>
        if (set e).getLsbD 2 then blockReset e.source e.unit.toNat (marked.weir.st[e.source]).lasting s else s) s3

/-- In the fault state later events set OVERFLOW and status bits only (R447). -/
def acceptFault (evs : List WeirEv) (s : State) : State :=
  evs.foldl (fun s e => s.modWeir fun w =>
    { w with
      pending := w.pending ||| (1#64 <<< e.source.val)
      record := { w.record with overflow := w.record.valid } }) s

/-- Events that reach Weir together; further events of one source wait for the next cycle (R423). -/
def acceptEvents : Nat → List WeirEv → State → State
  | 0, _, s => s
  | fuel + 1, evs, s =>
    match evs with
    | [] => s
    | _ =>
      let c := splitCycle (sortEvs evs) [] []
      match s.mode with
      | .fault => acceptEvents fuel c.2 (acceptFault c.1 s)
      | _ => acceptEvents fuel c.2 (acceptCycle c.1 [] false s)

/-- The events of a report, none while nothing but the backup domain is powered. A FATAL event while Virund is held in reset is
what a self-test of the coming start finds (R183, assumption 58). In DEEP Weir's collector stays powered, and its reactions
act at once (R213, R432). -/
def weirEvents (evs : List WeirEv) (s : State) : State :=
  match s.chuck.power, s.mode with
  | .backup, _ => s
  | .unpowered, _ => s
  | .deep, _ => acceptEvents evs.length evs s
  | _, .held =>
    let now := evs.filter fun e => e.cls != .fatal || e.source == 63
    let later := evs.filter fun e => e.cls == .fatal && e.source != 63
    acceptEvents now.length now { s with defects := { s.defects with tests := s.defects.tests ++ later } }
  | _, _ => acceptEvents evs.length evs s

/-- One event of a source. -/
def weirReport (source : Fin 64) (cls : EvClass) (code unit : Nat) (detail : Nat) (s : State) : State :=
  weirEvents [⟨source, cls, BitVec.ofNat 16 code, BitVec.ofNat 16 unit, BitVec.ofNat 32 detail⟩] (wakeIdle s)

end Sys2Proof.Machine
end

