-- ==== Sys2Proof/Machine/FabricCore.lean ====
section
/-! DEFINITION. What a node sends on its Wiquajo links: sequenced frames, routes, routed and flooded messages, and
sibling alerts (R525 to R527, R532 to R540, R551). -/
namespace Sys2Proof.Machine
open Sys2Proof

def State.link (s : State) (k : Fin 4) : Link := s.fabric.links[k]

/-- A FABRIC link: UP with that membership (R532). -/
def State.fabricLink (s : State) (k : Fin 4) : Bool := (s.link k).st == .up && (s.link k).member == some .fabric

/-- The node is in the fabric (R532). -/
def State.inFabric (s : State) : Bool := (fins 4).any s.fabricLink

/-- A link that carries recovery frames (R532, R549). -/
def State.recoveryLink (s : State) (k : Fin 4) : Bool := (s.link k).st == .up && (s.link k).member.isSome

/-- The window of the retry buffer (R534). -/
def retryWindow : Nat := 32

/-- The key under which this side sends (R530 step 5). -/
def linkTxKey (serial : Dword) (l : Link) : Bytes :=
  match l.peer with
  | some p => if serial.toNat < p.serial.toNat then l.keyAB else l.keyBA
  | none => []

/-- A frame of R533: TAG from UP onwards, over the given SEQ_EXT. -/
def linkFrame (serial : Dword) (l : Link) (type : Byte) (seq : Half) (ext : Nat) (payload : Bytes) : Bytes :=
  let body := [type, 0] ++ leBytes 2 seq.toNat ++ leBytes 2 l.seqRx.toNat ++ leBytes 2 payload.length ++ payload
  let tagged := if l.st = .up then body ++ shake256 (linkTxKey serial l ++ leBytes 8 ext ++ body) 16 else body
  tagged ++ leBytes 4 (crc32c tagged).toNat

/-- A block leaves, behind a SKIP block where 127 blocks have left since the last (R526). -/
def putBlock (b : LineBlock) (l : Link) : Link :=
  let line := if 127 ≤ (l.line.takeWhile fun x => x != skipBlock).length then skipBlock :: l.line else l.line
  { l with line := b :: line }

/-- A frame is put on the wire, as the blocks of R525. -/
def putFrame (b : Bytes) (l : Link) : Link := (frameBlocks b).foldl (fun l x => putBlock x l) { l with wire := b :: l.wire }

/-- The i-th frame of the retry buffer is put on the wire, with the SEQ and SEQ_EXT it was given (R533, R534). SEQ_EXT
counts the frame itself. -/
def transmitAt (serial : Dword) (i : Nat) (l : Link) : Link :=
  match l.retry[i]? with
  | none => l
  | some f =>
    putFrame (linkFrame serial l f.1 (l.ackedTo + BitVec.ofNat 16 i) (l.seqExt - (l.retry.length - 1 - i)) f.2) l

/-- A sequenced frame enters the link, and leaves at once where the window has room (R533, R534). -/
def sendFrame (k : Fin 4) (type : Byte) (payload : Bytes) (s : State) : State :=
  s.modLink k fun l =>
    let i := l.retry.length
    let l1 := { l with
      retry := l.retry ++ [(type, payload)]
      seqTx := l.seqTx + 1
      seqExt := if l.st = .up then l.seqExt + 1 else l.seqExt }
    if i < retryWindow then transmitAt s.fuses.serial i l1 else l1

/-- An unsequenced frame: SEQ zero, and SEQ_EXT of the last sequenced frame with bit 63 set (R533). -/
def sendUnsequenced (k : Fin 4) (type : Byte) (payload : Bytes) (s : State) : State :=
  s.modLink k fun l => putFrame (linkFrame s.fuses.serial l type 0 (l.seqExt + 2 ^ 63) payload) l

/-- The routed header of a frame (R539). -/
def routedBytes (h : RoutedHdr) (data : Bytes) : Bytes :=
  leBytes 2 (h.dst.toNat + 2 ^ 15 * b2n h.flood) ++ leBytes 2 h.src.toNat ++ [h.hopsLeft, h.service]
    ++ leBytes 2 (h.frag.toNat + 2 ^ 15 * b2n h.last) ++ leBytes 4 h.msgId.toNat ++ data

/-- A routed frame leaves on a link. -/
def sendRoutedOn (k : Fin 4) (h : RoutedHdr) (data : Bytes) (s : State) : State :=
  (sendFrame k 0x02 (routedBytes h data) s).modFabric fun f => { f with sent := ⟨k, h, data⟩ :: f.sent }

/-- The entries for a node; two serials remove the route (R538). -/
def State.routeEntries (s : State) (d : BitVec 12) : List Route := s.fabric.routes.filter fun r => r.node == d

/-- The FABRIC link with the fewest recorded hops, the lowest number on a tie (R537). -/
def State.routeTo (s : State) (d : BitVec 12) : Option (Fin 4) :=
  match s.routeEntries d with
  | [r] =>
    (fins 4).foldl (fun best k =>
      match s.fabricLink k, r.hops[k], best with
      | true, some h, none => some (k, h)
      | true, some h, some (b : Fin 4 × Nat) => if h < b.2 then some (k, h) else some b
      | _, _, b => b) none |>.map Prod.fst
  | _ => none

/-- Hops of the route to a node (R546). -/
def State.hopsTo (s : State) (d : BitVec 12) : Option Nat :=
  (s.routeTo d).bind fun k => ((s.routeEntries d).head?).bind fun r => r.hops[k]

/-- A node that announces TIME_ROOT is heard on some FABRIC link. -/
def Route.roots (r : Route) (s : State) : Bool := r.timeRoot && (fins 4).any fun k => s.fabricLink k && (r.hops[k]).isSome

/-- The time root: the lowest identifier among the nodes in the fabric that announce TIME_ROOT (R543). -/
def State.timeRootNode (s : State) : Option Nat :=
  ((s.fabric.routes.filter fun r => r.roots s).map (·.node.toNat)
    ++ (if s.timeRoot && s.inFabric then [s.node.toNat] else [])).min?

/-- This node is the time root (R543). -/
def State.isRoot (s : State) : Bool := s.timeRoot && s.inFabric && s.timeRootNode == some s.node.toNat

/-- Slow ticks between the TIME exchanges of a node (R543). -/
def timeInterval : Nat := 1024

/-- SOURCE (R416, R545): 2 at the root, and at a node whose last valid exchange lies within four intervals and whose
last four offsets were small. -/
def State.sourceNow (s : State) : Nat :=
  if s.isRoot || (s.fabric.synced && decide (s.tick ≤ s.fabric.lastExchange + 4 * timeInterval)) then 2 else s.timeSource

/-- Greatest number of data bytes in a fragment (R539). -/
def fragBytes : Nat := 4084

/-- The fragments of a message, with their headers (R539). -/
def fragments (h : RoutedHdr) (data : Bytes) : List (RoutedHdr × Bytes) :=
  let cs := if data = [] then [[]] else chunksOf fragBytes data
  cs.zipIdx.map fun c => ({ h with frag := BitVec.ofNat 15 c.2, last := c.2 + 1 == cs.length }, c.1)

/-- The header of a message that this node originates (R539). -/
def originHdr (s : State) (dst : BitVec 12) (flood : Bool) (service : Nat) (msgId : Word) : RoutedHdr :=
  { dst := dst, flood := flood, src := s.node, hopsLeft := 63, service := BitVec.ofNat 8 service, frag := 0, last := true,
    msgId := msgId }

/-- A message to a node leaves on its route; without one, or while another serial uses this node's identifier, it is
discarded (R538, R540). -/
def sendRouted (dst : BitVec 12) (service : Nat) (msgId : Word) (data : Bytes) (s : State) : State :=
  if s.fabric.duplicate then s
  else
    match s.routeTo dst with
    | none => s
    | some k => (fragments (originHdr s dst false service msgId) data).foldl (fun s x => sendRoutedOn k x.1 x.2 s) s

/-- The next MSG_ID (R539). -/
def takeMsgId (s : State) : Word × State := (s.fabric.nextMsg, s.modFabric fun f => { f with nextMsg := f.nextMsg + 1 })

/-- A pair of R540 is remembered, the last 1,024 of them for 4 s. -/
def rememberPair (src : BitVec 12) (msgId : Word) (s : State) : State :=
  s.modFabric fun f => { f with seen := ((src, msgId, s.tick) :: f.seen).take 1024 }

/-- The pair has been seen within 4 s (R540). -/
def State.pairSeen (s : State) (src : BitVec 12) (msgId : Word) : Bool :=
  s.fabric.seen.any fun x => x.1 == src && x.2.1 == msgId && decide (s.tick < x.2.2 + 4 * ticksPerSec)

/-- A flooded message leaves on every FABRIC link (R540). -/
def floodOut (service : Nat) (data : Bytes) (s : State) : State :=
  if s.fabric.duplicate || !s.inFabric then s
  else
    let m := takeMsgId s
    let h := originHdr s 0 true service m.1
    let s1 := rememberPair s.node m.1 m.2
    (fins 4).foldl (fun s k =>
      if s.fabricLink k then (fragments h data).foldl (fun s x => sendRoutedOn k x.1 x.2 s) s else s) s1

/-- A sibling alert (R551). The fault state and Headwater run no firmware and send none. -/
def sendAlert (kind detail : Nat) (s : State) : State :=
  match s.mode with
  | .firmware =>
    floodOut 7 ([BitVec.ofNat 8 kind, BitVec.ofNat 8 detail, 0, 0] ++ leBytes 8 s.time ++ leBytes 4 s.fuses.serial.toNat) s
  | _ => s

end Sys2Proof.Machine
end

