-- ==== Sys2Proof/Machine/Measure.lean ====
section
/-! DEFINITION. The measurement blocks and the snapshot that every measurement response is taken from (R296, R297), and
the lane outcomes with their ring-log entries (R202, R207), and the start of an attestation (R299). -/
namespace Sys2Proof.Machine
open Sys2Proof

/-- A lane outcome in block 26 of R296, which GET_STATUS (R406) and the ring log use too. -/
def outcomeCode : Option Outcome5 → Nat
  | some .verified => 0
  | some .verifiedReservoir => 1
  | some .verifiedLogged => 2
  | some .repairing => 3
  | some .failed => 4
  | none => 0xFF

/-- The byte of a lane: 0xFF where it is disabled or has no outcome yet (R296). -/
def laneOutcomeByte (l : Lane) : Byte := BitVec.ofNat 8 (if l.cfg.enable then outcomeCode l.outcome else 0xFF)

/-- The manifest of the running copy of a component (R265). -/
def State.runningManifest (s : State) (c : Fin 4) : Option CompManifest := readComponent (s.fwCopy c s.running[c]).manifest

/-- SEC_VERSION of a component as running, zero for a ROM extension that did not run (R406). -/
def State.runningVersion (s : State) (c : Fin 4) : Nat :=
  if c = 0 ∧ !s.romextRan then 0 else ((s.runningManifest c).map (·.version)).getD 0

/-- The signed bytes of a structure, whose SIGNED_LENGTH stands at +0x0C in every structure of the manual. -/
def signedBytes (b : Bytes) : Bytes := b.take (u32 b 0x0C)

/-- The active host manifest's bytes (R280). -/
def State.activeManifest (s : State) (n : Fin 8) : Option Bytes :=
  if (s.nvm.commit.lanes[n]).active then s.nvm.manifest1[n] else s.nvm.manifest0[n]

/-- A digest block, omitted where its content does not exist (R296). -/
def digestBlock (index : Nat) (b : Option Bytes) : List MeasBlock :=
  match b with
  | none => []
  | some x => [⟨BitVec.ofNat 8 index, sha384 (signedBytes x)⟩]

/-- The measurement blocks of R296, in index order, with their contents. -/
def measBlocks (s : State) : List MeasBlock :=
  let image := fun (i : Nat) (c : Fin 4) => (match s.runningManifest c with
    | none => []
    | some m => [(⟨BitVec.ofNat 8 i, m.digest⟩ : MeasBlock)])
  let versions := ((fins 4).flatMap fun c => leBytes 4 (s.runningVersion c))
    ++ ((List.range 4).flatMap fun c => leBytes 4 (s.counter c))
  [⟨1, romDigest⟩, ⟨2, s.keys.dRomext⟩] ++ image 3 1 ++ image 4 2 ++ image 5 3
    ++ [⟨6, versions⟩,
        ⟨7, [BitVec.ofNat 8 (lcCode s.lc), if s.keys.debugUnlocked then 1 else 0,
          BitVec.ofNat 8 s.nvm.commit.selectedTry] ++ zeros 5⟩]
    ++ ((fins 8).flatMap fun n => digestBlock (8 + n.val) (((s.lane n).manifest).bind fun _ => s.activeManifest n))
    ++ ((fins 8).flatMap fun n => digestBlock (16 + n.val) (if (s.lane n).denyNoPolicy then none else s.nvm.lanePolicy[n]))
    ++ digestBlock 24 (s.chuck.policy.map fun _ => s.chuck.policyBytes)
    ++ digestBlock 25 (s.adm.bind fun _ => s.nvm.admission)
    ++ [⟨26, (fins 8).map fun n => laneOutcomeByte (s.lane n)⟩]

/-- Headstock publishes a new snapshot (R297). -/
def publishSnap (s : State) : State := { s with snap := ⟨measBlocks s⟩ }

/-- A lane's outcome with its LANE_OUTCOME entry (R202, R207, R477), and the alert of R551. An operation of LANE_RESET ends
with it. -/
def setOutcome (n : Fin 8) (o : Outcome5) (caseRow : Nat) (s : State) : State :=
  let id := ((s.lane n).manifest.map (·.manifestId.toNat)).getD 0
  let s1 := publishSnap (logNow 0x0024 (originLane n)
    ([BitVec.ofNat 8 n.val, BitVec.ofNat 8 (outcomeCode (some o)), BitVec.ofNat 8 caseRow, 0] ++ leBytes 8 id)
    ((endOp? (s.lane n).resetOp .done 0 s).modLane n fun l => { l with outcome := some o, resetOp := none }))
  match o with
  | .failed => sendAlert 2 n.val s1
  | .repairing => sendAlert 2 n.val s1
  | _ => s1

/-! ### The start of an attestation (R299) -/

/-- The configured slot of an index (R308). -/
def State.slotCfg (s : State) (i : Fin 1024) : Option SlotCfg := s.adm.bind fun p => p.slots[i.val]?

/-- Virund sends a message to a slot's component (R298, R299). -/
def sendCtrl (i : Fin 1024) (m : CtrlMsg) (s : State) : State :=
  match s.slotCfg i with
  | none => s
  | some c => s.modBus (Fin.ofNat 16 c.bus) fun b => { b with ctrlOut := some (c.address, m) }

/-- An attestation of a present slot starts, at GET_VERSION (R299). -/
def startAttest (i : Fin 1024) (s : State) : State :=
  if (s.slot i).present && (s.slotCfg i).isSome then
    sendCtrl i .getVersion (s.modSlot i fun x => { x with phase := .negotiate, seenDigest := [] })
  else s

/-- The attestations in flight on some slots start again (R305). -/
def restartAttests (p : SlotCfg → Bool) (s : State) : State :=
  (fins 1024).foldl (fun s i =>
    match (s.slot i).phase with
    | .idle => s
    | .discovery => if (s.slotCfg i).any p then sendCtrl i (.setEndpointId (s.slot i).eid) s else s
    | _ => if (s.slotCfg i).any p then startAttest i s else s) s

/-- A job of Virund's own ends in a class (R338). -/
def jobDone (c : Fin 5) (s : State) : State :=
  s.modConf fun k => { k with counts := vmod k.counts c fun x => { x with jobsDone := inc48 x.jobsDone } }

end Sys2Proof.Machine
end

