-- ==== Sys2Proof/Machine/HostOps.lean ====
section
/-! DEFINITION. Shared operations of host transactions: opcode classes, the checks before a decision, poison, hit
counters, captures, staging and the mailbox (R29 to R71, R86 to R100, R119 to R124, R596, R599). -/
namespace Sys2Proof.Machine
open Sys2Proof

/-- What a meaning answers. -/
abbrev Out := Host.Outcome State Fault Refusal

/-! ### Opcode classes (R30, R35, R596) -/

inductive OpClass where
  | read | sfdp | ident | status | writeEnable | program | erase | eraseChip | config | addrMode | reset | suspend
  | resume | power | security | mbWrite | mbRead | mbStatus | unknown
deriving DecidableEq, Repr

/-- The command phase is 1S. -/
def oneS : Proto → Bool
  | .d444 => false
  | .s888 => false
  | .d888 => false
  | _ => true

/-- The two-byte modes (R30). -/
def octal : Proto → Bool
  | .s888 => true
  | .d888 => true
  | _ => false

/-- The READ opcodes of R35. -/
def readOps : List Byte := [0x03, 0x13, 0x0B, 0x0C, 0x3B, 0x3C, 0xBB, 0xBC, 0x6B, 0x6C, 0xEB, 0xEC, 0xED, 0xEE]

/-- The PROGRAM opcodes of R35. -/
def programOps : List Byte := [0x02, 0x12, 0x32, 0x34, 0x38]

/-- The opcodes that the tables of a host chip select's primary flash add (R35, R600). -/
def Lane.added (l : Lane) (cs : Fin 2) : List (Byte × Bool × Option Proto) := addedOps (l.tables cs).sfdp

/-- The mode of a READ or PROGRAM opcode in a transaction of mode m (R596): with a 1S command phase that of the table,
of which a row of the flash's tables counts where its mode has that phase; otherwise the transaction's own. none where
R29 does not support it. -/
def opMode (l : Lane) (cs : Fin 2) (m : Proto) (op : Byte) : Option Proto :=
  if !oneS m then some m
  else if op ∈ ([0x03, 0x13, 0x0B, 0x0C, 0x02, 0x12] : List Byte) then some .s111
  else if op ∈ ([0x3B, 0x3C] : List Byte) then some .s112
  else if op ∈ ([0xBB, 0xBC] : List Byte) then some .s122
  else if op ∈ ([0x6B, 0x6C, 0x32, 0x34] : List Byte) then some .s114
  else if op ∈ ([0xEB, 0xEC, 0x38] : List Byte) then some .s144
  else if op ∈ ([0xED, 0xEE] : List Byte) then none
  else ((l.added cs).find? fun a => a.1 == op && a.2.2.any oneS).bind fun a => a.2.2

/-- The opcode's mode is set in MODE_MASK (R596). -/
def opAdmitted (l : Lane) (cs : Fin 2) (m : Proto) (op : Byte) : Bool :=
  match opMode l cs m op with
  | none => false
  | some p => modeSet l.cfg p

/-- The class of an opcode by the table of R35 alone. -/
def baseClass (op : Byte) : OpClass :=
  if op ∈ readOps then .read
  else if op = 0x5A then .sfdp
  else if op = 0x9F then .ident
  else if op ∈ ([0x05, 0x35, 0x15, 0x70] : List Byte) then .status
  else if op ∈ ([0x06, 0x04] : List Byte) then .writeEnable
  else if op ∈ programOps then .program
  else if op ∈ ([0x20, 0x21, 0x52, 0x5C, 0xD8, 0xDC] : List Byte) then .erase
  else if op ∈ ([0x60, 0xC7] : List Byte) then .eraseChip
  else if op ∈ ([0x01, 0x31, 0x11, 0x71, 0x72, 0x81] : List Byte) then .config
  else if op ∈ ([0xB7, 0xE9] : List Byte) then .addrMode
  else if op ∈ ([0x66, 0x99] : List Byte) then .reset
  else if op ∈ ([0x75, 0xB0] : List Byte) then .suspend
  else if op ∈ ([0x7A, 0x30] : List Byte) then .resume
  else if op ∈ ([0xB9, 0xAB] : List Byte) then .power
  else if op ∈ ([0x42, 0x44, 0x48] : List Byte) then .security
  else .unknown

/-- The class of a command as the lane decodes it (R30, R35, R596). -/
def opClass (l : Lane) (cs : Fin 2) (op op2 : Byte) : OpClass :=
  let m := l.mode[cs]
  if octal m && op2 != ~~~ op then .unknown
  else if l.cfg.mailbox && op == l.cfg.opWrite then .mbWrite
  else if l.cfg.mailbox && op == l.cfg.opRead then .mbRead
  else if l.cfg.mailbox && op == l.cfg.opStatus then .mbStatus
  else
    let c : OpClass := match baseClass op, (l.added cs).find? fun a => a.1 == op with
      | .unknown, some a => if a.2.1 then .program else .read
      | c, _ => c
    match c with
    | .read => if opAdmitted l cs m op then .read else .unknown
    | .program => if opAdmitted l cs m op then .program else .unknown
    | c => c

/-- The opcodes that carry a 4-byte address in every mode, those that the flash's tables add among them. -/
def fourByteOps : List Byte := [0x13, 0x0C, 0x3C, 0xBC, 0x6C, 0xEC, 0xEE, 0x12, 0x34, 0x21, 0x5C, 0xDC]

/-- The transaction carries a 4-byte address (R31, R32). -/
def addr4 (l : Lane) (t : Txn) : Bool :=
  octal l.mode[t.cs] || l.addr4[t.cs] || fourByteOps.contains t.op
    || (baseClass t.op == .unknown && (l.added t.cs).any fun a => a.1 == t.op)

/-- The host address that the lane samples: 24 bits in 3-byte addressing (R31, R32). -/
def hostAddr (l : Lane) (t : Txn) (addr : Word) : Nat := if addr4 l t then addr.toNat else addr.toNat % 2 ^ 24

/-- The host units that the transaction can reach: HOST_SIZE, and in 3-byte addressing the first 16 MiB (R32, R50;
assumption 55 for a read that runs on past them). -/
def reachUnits (l : Lane) (t : Txn) : Nat := if addr4 l t then hostSize l.cfg t.cs else min (hostSize l.cfg t.cs) 4096

/-- The byte address in the lane's address space (the merge before R49). -/
def laneAddr (l : Lane) (cs : Fin 2) (h : Nat) : Nat := if cs = 0 then h else l.cfg.host0 * unitBytes + h

/-! ### Poison (R47, R48) -/

def rRuleDeny : Nat := 0x01
def rOpcode : Nat := 0x02
def rBeyond : Nat := 0x03
def rDenyAll : Nat := 0x04
def rDisagree : Nat := 0x05
def rBreak : Nat := 0x06
def rVerify : Nat := 0x07
def rFlashError : Nat := 0x08
def rBusy : Nat := 0x09
def rSck : Nat := 0x0A
def rCsHigh : Nat := 0x0B
def rTable : Nat := 0x0C

/-- The byte of the poison block at a lane address (R47). -/
def poisonByte (n : Fin 8) (reason x : Nat) : Byte :=
  let k := x % 16
  if k = 2 then BitVec.ofNat 8 reason
  else if k = 3 then BitVec.ofNat 8 (0xA0 + n.val)
  else if 4 ≤ k ∧ k < 8 then BitVec.ofNat 8 (x / 16 * 16 / 256 ^ (k - 4))
  else if k % 2 = 0 then 0xC3 else 0x3C

/-- len bytes of poison from a lane address on. -/
def poison (n : Fin 8) (reason x len : Nat) : Bytes := (List.range len).map fun i => poisonByte n reason (x + i)

/-! ### The checks before a decision (R33, R41, R49, R105) -/

/-- Whether a transaction is answered: not at all, refused with a reason, or decided. -/
inductive Gate where
  | silent
  | refuse (reason : Nat)
  | pass
deriving DecidableEq, Repr

/-- f_lim in kHz (R33). -/
def sckLimit (l : Lane) (t : Txn) : Nat :=
  min l.cfg.fmax (protoMax ((opMode l t.cs l.mode[t.cs] t.op).getD l.mode[t.cs])) * 1000

/-- The least and the greatest tail in ns that the last flash-side action left behind the HPn_CS_N rise (R37, R40, R41,
R45), none where no host transaction drove the flash side. The manual states no time for the end of a command cut at
its command or address, and a bound of 1 µs for one that was held back. -/
def lastTail (l : Lane) : Option (Nat × Nat) :=
  let owed := pLane l.cfg * 10
  match l.fp with
  | .forwarded .read _ _ _ _ => some (10, 10)
  | .forwarded .program _ _ _ _ => some (owed, owed)
  | .forwarded .erase _ _ _ _ => some (owed, 1000)
  | .broadcast op _ _ => some (owed, if baseClass op = .config then 1000 else owed)
  | .truncated _ .heldAddress => some (0, 1000)
  | .truncated _ .heldData => some (0, 1000)
  | .truncated _ _ => some (0, owed)
  | .own _ _ => none
  | .idle => none

/-- FP_CS_N has been high for a tail and t_SHSL,flash when it falls (R41). -/
def csHighFits (l : Lane) (t : Txn) (tail : Nat) : Bool :=
  let p := pLane l.cfg
  decide (tail * t.sckKHz * l.cfg.fmax + p * 1000 * t.sckKHz
    ≤ (t.highNs + 5) * t.sckKHz * l.cfg.fmax + p * 1000000 * l.cfg.fmax)

/-- The chip-select high time is too short (R41); between the two tails that the manual admits it may be or not. -/
def csHighShort (t : Txn) (s : State) : Bool × State :=
  let l := s.lane t.lane
  match lastTail l with
  | none => (false, s)
  | some (lo, hi) =>
    if csHighFits l t hi then (false, s)
    else if !csHighFits l t lo then (true, s)
    else drawBit s

/-- The class is one that the lane answers under DENY_ALL (R105). -/
def servedInDeny (l : Lane) (cs : Fin 2) (c : OpClass) : Bool :=
  match c with
  | .mbWrite => l.servesMailbox
  | .mbRead => l.servesMailbox
  | .mbStatus => l.servesMailbox
  | .ident => l.servesMailbox
  | .sfdp => l.servesSfdp cs
  | _ => false

/-- The class is one that a lane with ENABLE = 0 answers (R49). -/
def servedDisabled (c : OpClass) : Bool :=
  match c with
  | .mbWrite => true
  | .mbRead => true
  | .mbStatus => true
  | .ident => true
  | _ => false

/-- Lanes answer their hosts in RUN and IDLE (R216). -/
def State.lanesPowered (s : State) : Bool := s.chuck.power == .run || s.chuck.power == .idle

/-- The Spindles run: they are powered, out of their reset, and not halted (R191, R195, R446). A WARM reset does not stop
them (R508). -/
def State.spindlesRun (s : State) : Bool :=
  s.lanesPowered && (match s.mode with
    | .firmware => true
    | .paused => true
    | .rom => s.warm
    | _ => false)

/-- A step of the Spindles or of their lanes' hardware: nothing happens while they do not run. -/
def whileRunning (s : State) (o : Host.Outcome State Fault Refusal) : Host.Outcome State Fault Refusal :=
  if s.spindlesRun then o else .next s

/-- The Spindle of a lane runs, and is not in a BLOCK reset (R431). -/
def State.spindleServes (s : State) (n : Fin 8) : Bool := s.spindlesRun && !s.inBlockReset (Fin.ofNat 64 (10 + n.val)) 0

/-- A step that the lane's Spindle takes: fills, flash checks, scrub reads, repairs and step 5 of a takeover wait for its
restart (R431); platform verification and table rewrites, which it carries out too, are taken to wait as well (DEDUCED, log
63). -/
def whileServing (n : Fin 8) (s : State) (o : Host.Outcome State Fault Refusal) : Host.Outcome State Fault Refusal :=
  if s.spindleServes n then o else .next s

/-- The lane is one that R49 lets answer MAILBOX and READ_ID on chip select 0 alone, and refuse every other command
(ENABLE = 0; chip select 1 is refused whole, also where MAILBOX_EN is 0, assumption 55). -/
def refusedDisabled (l : Lane) (t : Txn) (c : OpClass) : Bool := !l.cfg.enable && (t.cs != 0 || !servedDisabled c)

/-- The order of the checks is that of assumption 9. want is the class that the command's row is of. -/
def gate (want : OpClass) (t : Txn) (s : State) : Gate × State :=
  let l := s.lane t.lane
  let c := opClass l t.cs t.op t.op2
  if !s.lanesPowered || !csAnswers l.cfg t.cs then (.silent, s)
  else if l.denyAll && !servedInDeny l t.cs c then (.refuse rDenyAll, s)
  else
    let lim := sckLimit l t
    let (fast, s1) :=
      if t.sckKHz ≤ lim then (false, s)
      else if lim * 105 < t.sckKHz * 100 then (true, s)
      else drawBit s
    if fast then (.refuse rSck, s1)
    else
      let (short, s2) := csHighShort t s1
      if short then (.refuse rCsHigh, s2)
      else if t.look.disagree || t.look.frontEnd.isSome then (.refuse rDisagree, s2)
      else if t.look.tableErr then (.refuse rTable, s2)
      else if refusedDisabled l t c || c != want || c == .unknown then (.refuse rOpcode, s2)
      else (.pass, s2)

/-- What the lane answered and drove (R43, R47). -/
def answer (n : Fin 8) (rsp : Option Bytes) (fp : FpAct) (s : State) : State :=
  s.modLane n fun l => { l with rsp := rsp, fp := fp, wait := 0 }

/-- The dummy cycles before the data of the answer (R27, R60, R68). -/
def setWait (n : Fin 8) (w : Nat) (s : State) : State := s.modLane n fun l => { l with wait := w }

/-- No chip select answered (R49). -/
def noAnswer (n : Fin 8) (s : State) : State := answer n none .idle s

/-- The lane drives its flash-side port: not with ENABLE = 0 (R49), nor where the configuration names no flash (R107). -/
def Lane.drives (l : Lane) : Bool := l.cfg.enable && decide (0 < l.cfg.flash0 + l.cfg.flash1)

/-- What a refusal leaves on the flash side (R43): FP_CS_N rises in the phase that carried the decision, and never falls
where CS_HIGH_SHORT kept it high (R41) or the lane drives nothing. -/
def cutAct (l : Lane) (t : Txn) (reason : Nat) (phase : CutPhase) : FpAct :=
  if !l.drives || reason == rCsHigh then .idle else .truncated t.op phase

/-- The phase that carries the decision on a command refused before its own rule lookup: the command's own for its class,
the address for a class with an address that is refused for another reason (R43, R597). -/
def cutPhase (l : Lane) (t : Txn) (reason : Nat) : CutPhase :=
  match opClass l t.cs t.op t.op2 with
  | .read => if reason = rOpcode then .command else .address
  | .program => if reason = rOpcode then .command else .address
  | .erase => if reason = rOpcode then .command else .address
  | .config => if reason = rOpcode then .command else .heldData
  | _ => .command

/-- A refused command whose data phase begins at a lane address, or at byte 0 where it has no address (R43, R47). -/
def refuseFrom (t : Txn) (reason from_ len : Nat) (s : State) : State :=
  let l := s.lane t.lane
  answer t.lane (some (poison t.lane reason from_ len)) (cutAct l t reason (cutPhase l t reason)) s

/-- A refused command without an address (R43, R47). -/
def refusePlain (t : Txn) (reason len : Nat) (s : State) : State := refuseFrom t reason 0 len s

/-- The bytes of two lists of chips without repeats. -/
def chipUnion (a b : List (Fin 2)) : List (Fin 2) := (fins 2).filter fun f => a.contains f || b.contains f

/-- R46: WEL is cleared in the shadows that the host chip select reaches, and a WRDI is owed to those chips, unless the
lane drives nothing on its flash-side port. -/
def refuseWrite (t : Txn) (reason : Nat) (phase : CutPhase) (s : State) : State :=
  let chips := s.reachList t.lane t.cs
  (answer t.lane (some []) (cutAct (s.lane t.lane) t reason phase) s).modLane t.lane fun l =>
    { l with
      chips := vmapI l.chips fun f c => if chips.contains f then { c with wel := false } else c
      wrdi := if l.drives then chipUnion l.wrdi chips else l.wrdi }

/-- A write refused before its own rule lookup (R43, R46). -/
def refuseWriteAt (t : Txn) (reason : Nat) (s : State) : State :=
  refuseWrite t reason (cutPhase (s.lane t.lane) t reason) s

/-! ### Hit counters and RULE_DENY entries (R95 to R100) -/

/-- One acted-on decision of a unit (R95, R98). -/
def countHit (u : Nat) (l : Lane) : Lane :=
  match winner l.rules u with
  | none => l.count fun c => { c with defaultHits := inc48 c.defaultHits }
  | some w => { l with hits := lmod l.hits w.1 inc48 }

/-- A decision refused with LOOKUP_DISAGREE or TABLE_ERROR (R98). -/
def countDisagree (l : Lane) : Lane := l.count fun c => { c with lookupDisagree := inc48 c.lookupDisagree }

/-- A refused decision on a unit at a lane address whose winner has LOG_DENY (R100). -/
def logDeny (n : Fin 8) (reason u addr : Nat) (s : State) : State :=
  match winner (s.lane n).rules u with
  | none => s
  | some w =>
    if !w.2.logDeny then s
    else
      let entry := fun (unlogged : Nat) (s : State) =>
        logNow 0x0020 (originLane n)
          ([BitVec.ofNat 8 n.val, BitVec.ofNat 8 reason] ++ leBytes 2 w.1 ++ leBytes 4 addr ++ leBytes 4 unlogged) s
      let keep := fun (l : Lane) => l.denyLog.filter fun d => d.rule != w.1
      match (s.lane n).denyLog.find? fun d => d.rule == w.1 with
      | none => entry 0 (s.modLane n fun l => { l with denyLog := ⟨w.1, s.tick, 0⟩ :: l.denyLog })
      | some d =>
        if d.lastTick + 65536 ≤ s.tick then
          entry d.unlogged (s.modLane n fun l => { l with denyLog := ⟨w.1, s.tick, 0⟩ :: keep l })
        else s.modLane n fun l => { l with denyLog := ⟨w.1, d.lastTick, d.unlogged + 1⟩ :: keep l }

/-! ### Engine faults of a lookup (R74 to R76) -/

/-- The Weir source of the engine that serves a lane. -/
def State.laneSource (s : State) (n : Fin 8) : Fin 64 := (s.lane n).engine.castLE (by decide)

/-- A disagreement of the pipelines, reported as a lane-engine fault, which starts takeover (R74, R76). -/
def lookupDisagree (n : Fin 8) (unit : Nat) (s : State) : State := weirReport (s.laneSource n) .fatal 1 0 unit s

/-- A front-end check that failed at a host SCK cycle, which starts takeover (R76). -/
def frontEndCheck (n : Fin 8) (cycle : Nat) (s : State) : State := weirReport (s.laneSource n) .fatal 2 0 cycle s

/-- A table word that cannot be read: reported, and the table waits for its rewrite (R75). The word's address is a free
value. -/
def tableError (n : Fin 8) (s : State) : State :=
  let d := drawNat s
  weirReport (d.2.laneSource n) .ucc 3 0 d.1 (d.2.modLane n fun l => { l with tableBad := true })

/-- The faults that the decision on a command met take effect at the end of the transaction, with the unit that the
command addresses, a free value where it has no address (R74 to R78). The command counts as one decision refused with
LOOKUP_DISAGREE or TABLE_ERROR (R98). -/
def lookFaults (t : Txn) (unit : Option Nat) (s : State) : State :=
  let e := t.look
  let s1 := if e.disagree || e.tableErr || e.frontEnd.isSome then s.modLane t.lane countDisagree else s
  let s2 := if e.tableErr then tableError t.lane s1 else s1
  let s3 := if e.disagree then
      (match unit with
      | some u => lookupDisagree t.lane u s2
      | none =>
        let d := drawNat s2
        lookupDisagree t.lane d.1 d.2)
    else s2
  match e.frontEnd with
  | none => s3
  | some c => frontEndCheck t.lane c s3

/-- A host transaction of a class: not answered, refused with a reason, or decided; the faults of its lookup follow
(R49, R74 to R78). -/
def guarded (want : OpClass) (t : Txn) (unit : Option Nat) (refuse : Nat → State → State) (go : State → State)
    (s : State) : Out :=
  let g := gate want t s
  match g.1 with
  | .silent => .next (noAnswer t.lane g.2)
  | .refuse r => .next (lookFaults t unit (refuse r g.2))
  | .pass => .next (go g.2)

/-! ### Captures (R119 to R124) -/

/-- The number of bytes of a string that differ from those already captured at an offset. -/
def redelivered (m : List Host.Cell) (off : Nat) : Bytes → Bool
  | [] => false
  | b :: bs =>
    (match cellGet m off with
      | none => false
      | some c => c != b) || redelivered m (off + 1) bs

/-- Bytes not yet covered, kept at their offsets. -/
def coverNew (m : List Host.Cell) (off : Nat) : Bytes → List Host.Cell
  | [] => m
  | b :: bs => coverNew (if (cellGet m off).isSome then m else cellSet m off b) (off + 1) bs

/-- The tracker passes to QUEUED where its coverage is complete (R124). -/
def complete? (size : Nat) (t : Fin 64) (l : Lane) : Lane :=
  if (l.trackers[t]).data.length = size ∧ ((l.trackers[t]).st = .capturing ∨ (l.trackers[t]).st = .filling) then
    { l.modTracker t (fun x => { x with st := .queued, order := l.nextOrder }) with
      nextOrder := l.nextOrder + 1
      counts := if (l.trackers[t]).filled then { l.counts with partialFills := inc48 l.counts.partialFills } else l.counts }
  else l

/-- The CAPTURING tracker with the oldest last capture (R121); of equals the lowest index. -/
def oldestCapturing (l : Lane) : Option (Fin 64) :=
  l.capturing.foldl (fun best t => match best with
    | none => some t
    | some b => if (l.trackers[t]).lastCapture < (l.trackers[b]).lastCapture then some t else best) none

/-- What a capture found. -/
structure Captured where
  lane : Lane
  refused : List LeafRef
  differs : List (LeafRef × Option Sel)

/-- Captures the bytes delivered of one unit of a leaf (R115, R119, R121, R122, R124). A byte that is delivered again and
differs is held against the source of the second delivery, and a tracker keeps the first Reservoir that served it: the
manual does not say which of two sources is to blame (assumption 57). -/
def captureUnit (m : HostManifest) (tick : Nat) (r : LeafRef) (off : Nat) (data : Bytes) (src : Option Sel) (c : Captured) :
    Captured :=
  if data = [] ∨ c.refused.contains r then c
  else if !c.lane.hashing then { c with lane := queueCheck r c.lane, refused := r :: c.refused }
  else
    let size := leafSize m r.region
    match c.lane.trackerOf r with
    | some t =>
      let k := c.lane.trackers[t]
      let bad := redelivered k.data off data
      let open_ := k.st == .capturing || k.st == .filling
      let l1 := c.lane.modTracker t fun x =>
        { x with
          data := if open_ then coverNew x.data off data else x.data
          lastCapture := tick
          res := if open_ then x.res.or src else x.res }
      { c with
        lane := complete? size t l1
        differs := if bad && !(c.differs.any fun d => d.1 == r) then c.differs ++ [(r, src)] else c.differs }
    | none =>
      match (fins 64).find? fun t => (c.lane.trackers[t]).st == .free with
      | some t =>
        let l1 := c.lane.modTracker t fun _ =>
          { Tracker.free with
            st := .capturing, region := r.region, leaf := r.leaf, data := coverNew [] off data
            res := src, lastCapture := tick }
        { c with lane := complete? size t (requestPage r l1) }
      | none =>
        let l1 := match oldestCapturing c.lane with
          | none => c.lane
          | some t => c.lane.modTracker t fun x => { x with st := .filling, filled := true }
        { c with lane := queueCheck r l1, refused := r :: c.refused }

/-! ### Staging (R91 to R94, R255, R256) -/

/-- Units that transfers have reserved and not yet used (R255). -/
def State.reservedUnits (s : State) : Nat := (s.stolik.targets.map (·.reserved)).sum

/-- A staging unit is free. -/
def State.stagingFree (s : State) : Bool := decide (s.staging.length + s.reservedUnits < 4096)

/-- The target code of a window (R250). -/
def windowCode (n w : Fin 8) : Byte := BitVec.ofNat 8 (0x10 + 8 * n.val + w.val)

/-- Some other port than the lane's own mailbox holds the window's update lock (R256). -/
def State.lockedAway (s : State) (n w : Fin 8) : Bool :=
  s.stolik.targets.any fun t => t.code == windowCode n w && (match t.holder with
    | none => false
    | some p => p != .hp n)

/-- The staged copy of a unit. -/
def State.staged (s : State) (n w : Fin 8) (k : Nat) : Option StagedUnit :=
  s.staging.find? fun u => u.lane == n && u.window == w && u.k == k

/-- Data combined by AND with a unit's bytes from an offset on, wrapping within the program page (R92). -/
def andPage (page base : Nat) : Nat → Bytes → Bytes → Bytes
  | _, [], u => u
  | i, b :: bs, u =>
    let o := base / page * page + (base + i) % page
    andPage page base (i + 1) bs (u.modify o fun x => x &&& b)

/-- The program of a staged unit (R92, steps 1 to 3). -/
def stageProgram (n w : Fin 8) (k page off : Nat) (data : Bytes) (s : State) : State :=
  match s.staged n w k with
  | some _ =>
    { s with staging := s.staging.map fun u =>
        if u.lane = n ∧ u.window = w ∧ u.k = k then { u with bytes := andPage page off 0 data u.bytes } else u }
  | none =>
    { s with staging := s.staging ++
        [⟨n, w, k, andPage page off 0 data (List.replicate unitBytes 0xFF), false⟩] }

/-! ### The claimed Reservoir (R140, R141) -/

/-- The shadow base of a host chip select on a Reservoir (R140, R270). -/
def State.shadowBase (s : State) (x : Sel) (n : Fin 8) (cs : Fin 2) : Nat :=
  match (s.res x).laneEntry n with
  | none => 0
  | some e => (if cs = 0 then e.shadow0 else e.shadow1).toNat

/-- The Reservoir flash takes the mode, address width and dummy cycles of a lane's host chip select, and in 3-byte addressing
the bank of its shadow (R141). -/
def setReservoir (n : Fin 8) (cs : Fin 2) (x : Sel) (s : State) : State :=
  let l := s.lane n
  let m := l.mode[cs]
  let wide := octal m || l.addr4[cs]
  s.modRes x fun r =>
    { r with
      mode := m
      addr4 := wide
      dummy := dFlash (l.tables cs).sfdp l.cfg m
      bankReg := if wide then r.bankReg else s.shadowBase x n cs / 2 ^ 24 }

/-- The claimed Reservoir follows a change of the lane's mode (R141), and of its address width alone (assumption 57). -/
def followMode (n : Fin 8) (cs : Fin 2) (s : State) : State :=
  match s.claimed n with
  | none => s
  | some x => setReservoir n cs x s

/-- A READ-class command is replayed to the claimed Reservoir, at the shadow base joined with the host address (R140). -/
def replayRead (t : Txn) (h : Nat) (s : State) : State :=
  match s.claimed t.lane with
  | none => s
  | some x => s.modRes x fun r => { r with replay := some (t.op, s.shadowBase x t.lane t.cs ||| h) }

/-! ### The mailbox (R68 to R71, R391, R392, R599) -/

/-- Requests of a port in flight or received and not yet served (R393). -/
def State.portLoad (s : State) (p : Port) : Nat :=
  (s.stolik.inFlight.filter fun x => x.1 == p).length + (s.stolik.waiting.filter fun x => x.port == p).length

/-- Requests of the whole device. -/
def State.deviceLoad (s : State) : Nat := s.stolik.inFlight.length + s.stolik.waiting.length

/-- The device and the port have room for one more request (R393). -/
def State.portRoom (s : State) (p : Port) : Bool := decide (s.portLoad p < 64) && decide (s.deviceLoad < 1024)

/-- A frame whose header cannot pass step 1 of R390. -/
def headerBad (b : Bytes) : Bool := decide (65536 < u32 b 8) || bit (u16 b 0) 15

/-- The CRC of a frame agrees (R388). -/
def crcOk (f : Bytes) : Bool :=
  u32 f 0x0C == (crc32c (f.take 0x0C ++ zeros 4 ++ f.drop 0x10)).toNat

/-- Zero bytes before a frame are skipped (R70). -/
def skipZeros (b : Bytes) : Bytes := b.dropWhile (· == 0)

/-- The bytes left after a port in DISCARD has looked for the resync run (R392): none while it stays in DISCARD. -/
def resync : Nat → Bytes → Nat × Option Bytes
  | z, [] => (z, none)
  | z, b :: bs => if b = 0 then (if z + 1 = 16 then (16, some bs) else resync (z + 1) bs) else resync 0 bs

/-- A port enters DISCARD with bytes behind the failed frame already in its buffer: they are discarded up to the end of a
resync run (R392). -/
def enterDiscard (rest : Bytes) (mb : Mailbox) : Mailbox :=
  let r := resync 0 rest
  match r.2 with
  | some b => { mb with inBuf := b, taken := b.length, discard := false, zeroRun := 0, lost := false }
  | none => { mb with inBuf := [], taken := 0, discard := true, zeroRun := r.1, lost := false }

/-- A failed frame: its response, with OPCODE and TAG as they arrived and zero in place of each missing byte, then DISCARD
over the bytes behind it (R391, R392). -/
def failFrame (n : Fin 8) (r : Res) (rest : Bytes) (s : State) : State :=
  let h := (s.lane n).mb.inBuf
  let s1 := respond (.hp n) (u16 h 0) (BitVec.ofNat 32 (u32 h 4)) r (failPayload 0 0) s
  s1.modLane n fun l => { l with mb := enterDiscard rest l.mb }

/-- The Spindle hands on the frames that stand complete in the buffer, while it serves the port and there is room, and
takes the bytes of an incomplete one as they arrive (R391, R599). Each round takes one frame. -/
def takeFrames (n : Fin 8) : Nat → State → State
  | 0, s => s
  | fuel + 1, s =>
    let mb := (s.lane n).mb
    if mb.paused ∨ mb.discard then s
    else
      let b := skipZeros mb.inBuf
      let s1 := s.modLane n fun l => { l with mb := { l.mb with inBuf := b, taken := b.length } }
      if b.length < 16 ∧ !mb.lost then s1
      else if 16 ≤ b.length ∧ headerBad b then takeFrames n fuel (failFrame n .badFrame (b.drop 16) s1)
      else
        let len := 16 + u32 b 8
        if b.length < len then (if mb.lost then failFrame n .badFrame [] s1 else s1)
        else if !crcOk (b.take len) then takeFrames n fuel (failFrame n .badFrame (b.drop len) s1)
        else if !s1.portRoom (.hp n) then s1.modLane n fun l => { l with mb := { l.mb with taken := 0 } }
        else
          let s2 := s1.modLane n fun l => { l with mb := { l.mb with inBuf := b.drop len } }
          takeFrames n fuel (s2.modStolik fun k => { k with waiting := k.waiting ++ [⟨.hp n, b.take len⟩] })

/-- The length up to which a complete frame stands in the buffer and waits for room (R599), none where none does. -/
def frameWaits (mb : Mailbox) : Option Nat :=
  let b := skipZeros mb.inBuf
  let len := 16 + u32 b 8
  if mb.paused ∨ mb.discard ∨ b.length < 16 ∨ b.length < len then none else some len

/-- IN_SPACE (R71, R599): what the Spindle has taken fills the buffer no more. -/
def inSpace (mb : Mailbox) : Nat := 4096 - min 4096 (mb.inBuf.length - mb.taken)

/-- The bytes after the last complete frame of the buffer begin a frame that is not complete. -/
def endsInFrame : Nat → Bytes → Bool
  | 0, b => !b.isEmpty
  | fuel + 1, b =>
    let b := skipZeros b
    let len := 16 + u32 b 8
    if b.length < 16 ∨ b.length < len then !b.isEmpty else endsInFrame fuel (b.drop len)

/-- Bytes that found no room are discarded and the write is counted (R69). The frame that they belong to has lost bytes
(R391), unless they only fill the space between frames (R70). -/
def discardBytes (dropped : Bytes) (mb : Mailbox) : Mailbox :=
  if dropped = [] then mb
  else
    { mb with
      discardCount := mb.discardCount + 1
      lost := mb.lost || !allZero dropped || endsInFrame mb.inBuf.length mb.inBuf }

/-- Bytes that a mailbox write appends (R68, R69, R392, R599). While the port is paused, or a frame waits, those beyond
IN_SPACE are discarded; a frame that comes to wait within the write limits the bytes behind it. -/
def appendInbound (n : Fin 8) (data : Bytes) (s : State) : State :=
  let s := if data = [] then s else wakeIdle s
  let mb := (s.lane n).mb
  let data1 := if mb.discard then resync mb.zeroRun data else (0, some data)
  match data1.2 with
  | none => s.modLane n fun l => { l with mb := { l.mb with zeroRun := data1.1 } }
  | some d =>
    let room := if mb.paused || (frameWaits mb).isSome then min (inSpace mb) d.length else d.length
    let s1 := s.modLane n fun l =>
      { l with mb := discardBytes (d.drop room) { l.mb with discard := false, zeroRun := 0, inBuf := l.mb.inBuf ++ d.take room } }
    let s2 := takeFrames n ((s1.lane n).mb.inBuf.length + 2) s1
    s2.modLane n fun l =>
      match frameWaits l.mb with
      | none => l
      | some len =>
        let keep := max len 4096
        { l with mb := discardBytes (l.mb.inBuf.drop keep) { l.mb with inBuf := l.mb.inBuf.take keep } }

/-- The mailbox status word (R71). -/
def mailboxStatus (l : Lane) : Nat :=
  inSpace l.mb + min 4096 l.mb.outBuf.length * 2 ^ 16 + l.mb.discardCount.toNat * 2 ^ 32 + b2n l.mb.paused * 2 ^ 40
    + b2n l.denyAll * 2 ^ 41 + b2n (decide (8 ≤ l.engine.val)) * 2 ^ 42 + l.engine.val * 2 ^ 44

end Sys2Proof.Machine
end

