-- ==== Sys2Proof/Machine/Host.lean ====
section
/-! DEFINITION. Host transactions: READ, READ_SFDP, READ_ID, READ_STATUS, WRITE_ENABLE, PROGRAM, ERASE and the other
opcode classes, and the mailbox (R26 to R71, R86 to R100, R597). -/
namespace Sys2Proof.Machine
open Sys2Proof



/-! ### READ -/

/-- A unit of a read with its decision: the lane unit (none at or beyond HOST_SIZE), the offset of its first byte in the
read, the offset within the unit, its bytes, and its source. -/
structure ReadUnit where
  unit : Option Nat
  first : Nat
  off : Nat
  len : Nat
  src : Source
deriving DecidableEq, Repr

/-- The pieces of a read by host unit, from a host address on: host unit, first byte, offset in the unit, bytes. -/
def readPieces : Nat → Nat → Nat → Nat → List (Nat × Nat × Nat × Nat)
  | 0, _, _, _ => []
  | fuel + 1, a, i, left =>
    if left = 0 then []
    else
      let n := min left (unitBytes - a % unitBytes)
      (a / unitBytes, i, a % unitBytes, n) :: readPieces fuel (a + n) (i + n) (left - n)

/-- The flash address space unit that a lane unit maps to, as chip select and unit; an address beyond both flashes goes
to chip select 1 (the split before R49). -/
def State.flashOf (s : State) (n : Fin 8) (u : Nat) : Fin 2 × Nat :=
  match s.mapUnit n u with
  | some x => x
  | none => (1, flashUnitSel (s.lane n).remap (s.sels n) u - (s.lane n).cfg.flash0)

/-- The stream is unbroken from one unit to the next (R57). -/
def streamOk (s : State) (n : Fin 8) (u v : Nat) : Bool := s.flashOf n v == ((s.flashOf n u).1, (s.flashOf n u).2 + 1)

/-- What the flash side of a read does: forwarded, or cut for a reason that reaches every unit: the chip's state, or a
table error on the addressed unit (R597). -/
inductive ReadCut where
  | forwarded
  | busy
  | virund
  | table
deriving DecidableEq, Repr

/-- The unit of a read from which on the engine's faults poison it: its pipelines disagree, or a front-end check fails
(R74, R76). -/
def readFaultUnit (e : ReadEnv) : Option Nat :=
  match e.disagreeUnit, e.frontEndUnit with
  | some a, some b => some (min a b.1)
  | some a, none => some a
  | none, some b => some b.1
  | none, none => none

/-- The faults of the addressed unit cut the flash side, so that no unit of the read comes from FLASH (R597). -/
def readCutsFirst (e : ReadEnv) : Bool := readFaultUnit e == some 0 || e.tableErrUnit == some 0

/-- The sources of the units in turn (R55, R57, R63, R65, R74, R75, R597): ix counts the units, broken says that the
stream has broken, dis that the engine has failed a check. A unit that would come from a stream that a table error cut is
served with that reason (assumption 55). -/
def readSources (s : State) (n : Fin 8) (cut : ReadCut) (e : ReadEnv) :
    Nat → Option Nat → Bool → Bool → List (Option Nat × Nat × Nat × Nat) → List ReadUnit
  | _, _, _, _, [] => []
  | ix, prev, broken, dis, (u, first, off, len) :: rest =>
    match u with
    | none => ⟨none, first, off, len, .poison rBeyond⟩ :: readSources s n cut e (ix + 1) prev true dis rest
    | some v =>
      let dis1 := dis || readFaultUnit e == some ix
      let broken1 := broken || (match prev with
        | none => false
        | some p => !streamOk s n p v)
      let src : Source :=
        if dis1 then .poison rDisagree
        else if e.tableErrUnit = some ix then .poison rTable
        else
          match cut, s.unitSource n v with
          | .busy, _ => .poison rBusy
          | .virund, .mirror => .mirror
          | .virund, .reservoir x => .reservoir x
          | .virund, _ => .poison rBusy
          | .table, .flash => .poison rTable
          | .forwarded, .flash => if broken1 then .poison rBreak else .flash
          | _, x => x
      ⟨some v, first, off, len, src⟩ :: readSources s n cut e (ix + 1) (some v) broken1 dis1 rest

/-- The leaf that governs a unit in a verified class. -/
def State.unitLeaf (s : State) (n : Fin 8) (u : Nat) : Option LeafRef :=
  match winner (s.lane n).rules u, (s.lane n).manifest with
  | some w, some m => if verifiedClass w.2.access then leafIn m w.2.region u else none
  | _, _ => none

/-- The bytes of a mirrored leaf at a lane unit and an offset within it. -/
def State.mirrorBytes (s : State) (n : Fin 8) (u off len : Nat) : Bytes :=
  match s.unitLeaf n u, (s.lane n).manifest with
  | some r, some m =>
    (match s.mirrorOf n r with
    | none => zeros len
    | some e => padTo (slice e.bytes ((u - leafBase m r) * unitBytes + off) len) len)
  | _, _ => zeros len

/-- A read fault or an uncorrectable mirror word that a unit meets (R130, R137): the byte of the transaction from which
it is served as POISON. -/
def mirrorFaultAt (e : ReadEnv) (x : ReadUnit) : Option Nat :=
  match e.mirrorUceByte with
  | none => none
  | some j =>
    if x.src = .mirror ∧ x.first ≤ j ∧ j < x.first + x.len then
      some (max x.first (j - (x.off + (j - x.first)) % 8)) else none

/-- The first byte poisoned by a data-strobe fault, in 8D-8D-8D at a byte of a unit served from FLASH (R130). -/
def strobeAt (octalD : Bool) (e : ReadEnv) (us : List ReadUnit) : Option (Nat × ReadUnit) :=
  match e.strobeFaultByte with
  | none => none
  | some j =>
    if !octalD then none
    else (us.find? fun x => x.src == .flash && decide (x.first ≤ j) && decide (j < x.first + x.len)).map fun x => (j / 2 * 2, x)

/-- The bytes of a unit as the host receives them, and how many of them come from its source. -/
def unitBytesOut (s : State) (t : Txn) (e : ReadEnv) (base : Nat) (strobe : Option Nat) (x : ReadUnit) : Bytes × Nat :=
  let from_ := base + x.first
  let stop := match strobe with
    | none => x.len
    | some j => min x.len (j - x.first)
  let mk := fun (data : Bytes) (good reason : Nat) =>
    let g := min good stop
    (data.take g ++ (if g < x.len then
        (if g < good ∨ good = x.len then poison t.lane rFlashError (from_ + g) (x.len - g)
         else poison t.lane reason (from_ + g) (min stop x.len - g)
           ++ poison t.lane rFlashError (from_ + min stop x.len) (x.len - min stop x.len)) else []), g)
  match x.src with
  | .flash => mk (padTo (slice e.flash x.first x.len) x.len) x.len rFlashError
  | .reservoir _ => mk (padTo (slice e.reservoir x.first x.len) x.len) x.len rFlashError
  | .mirror =>
    match x.unit with
    | none => mk [] 0 rVerify
    | some u =>
      mk (s.mirrorBytes t.lane u x.off x.len) (match mirrorFaultAt e x with
        | none => x.len
        | some j => j - x.first) rVerify
  | .poison r => mk [] 0 r

/-- Captures of the units of a read, in order (R119). -/
def captureRead (s : State) (t : Txn) (e : ReadEnv) (strobe : Option Nat) (us : List ReadUnit) (c : Captured) : Captured :=
  us.foldl (fun c x =>
    match x.unit, (s.lane t.lane).manifest with
    | some u, some m =>
      (match s.unitLeaf t.lane u with
      | none => c
      | some r =>
        let got := (unitBytesOut s t e 0 strobe x)
        let data := match x.src with
          | .flash => (slice e.flash x.first x.len).take got.2
          | .reservoir _ => (slice e.reservoir x.first x.len).take got.2
          | _ => []
        let src := match x.src with
          | .reservoir y => some y
          | _ => none
        captureUnit m s.tick r ((u - leafBase m r) * unitBytes + x.off) data src c)
    | _, _ => c) c

/-- The lane address that a RULE_DENY entry of a unit names: the first byte of it that the read asked for. -/
def logReadDenies (t : Txn) (base : Nat) (us : List ReadUnit) (s : State) : State :=
  us.foldl (fun s x =>
    match x.unit with
    | none => s
    | some u => if x.src = .poison rRuleDeny then logDeny t.lane rRuleDeny u (base + x.first) s else s) s

/-- The decisions of a read that are acted on (R73, R95): those of units on which the pipelines agree. Every unit served
as POISON for a disagreement, a front-end check or a table error is one decision refused with that reason (R98: the manual
does not say whether the units behind the first count, assumption 55). -/
def countRead (us : List ReadUnit) (l : Lane) : Lane :=
  us.foldl (fun l x =>
    match x.unit with
    | none => l
    | some u =>
      if x.src = .poison rDisagree ∨ x.src = .poison rTable then countDisagree l
      else
        let l1 := countHit u l
        match x.src with
        | .reservoir _ => l1.count fun c => { c with redirectUnits := inc48 c.redirectUnits }
        | _ => l1) l

/-- The engine's faults in a read are reported when the read ends: a table error, a disagreement, a front-end check, each
with the lane address unit that was looked up (R74 to R78). base is the first unit of the read. -/
def readFaults (t : Txn) (e : ReadEnv) (base units : Nat) (s : State) : State :=
  let s1 := match e.tableErrUnit with
    | some k => if k ≤ units then tableError t.lane s else s
    | none => s
  let s2 := match e.disagreeUnit with
    | some k => if k ≤ units then lookupDisagree t.lane (base + k) s1 else s1
    | none => s1
  match e.frontEndUnit with
  | some (k, cycle) => if k < units then frontEndCheck t.lane cycle s2 else s2
  | none => s2

/-- The byte address within its chip of a lane unit and an offset in it (R52). -/
def State.flashByte (s : State) (n : Fin 8) (u off : Nat) : Fin 2 × Nat :=
  ((s.flashOf n u).1, (s.flashOf n u).2 * unitBytes + off)

/-- A READ past the gate (R36, R54 to R57, R88, R119 to R137, R140, R597). -/
def readDecided (t : Txn) (addr : Word) (len : Nat) (e : ReadEnv) (s : State) : State :=
  let l := s.lane t.lane
  let h := hostAddr l t addr
  let base := laneAddr l t.cs h
  let pieces := (readPieces (len / unitBytes + 2) h 0 len).map fun p =>
    (if p.1 < reachUnits l t then some (mergeUnit l.cfg t.cs p.1) else none, p.2.1, p.2.2.1, p.2.2.2)
  let chip := match pieces with
    | (some u, _) :: _ => some (s.flashOf t.lane u).1
    | _ => none
  let cut : ReadCut := match chip with
    | none => ReadCut.forwarded
    | some f => (match (l.chips[f]).st with
      | .host => if e.tableErrUnit = some 0 then .table else .forwarded
      | .hostBusy => .busy
      | .virund => .virund)
  let us := readSources s t.lane cut e 0 none false false pieces
  let strobe := strobeAt (l.mode[t.cs] == .d888) e us
  let data := (us.map fun x => (unitBytesOut s t e base (strobe.map Prod.fst) x).1).flatten
  let fp := match pieces.head?.bind fun p => p.1, cut, readCutsFirst e with
    | some u, .forwarded, false =>
      if l.drives then FpAct.forwarded .read t.op (some (s.flashByte t.lane u (h % unitBytes))) (some 0xFF) [] else .idle
    | _, _, _ => cutAct l t rBeyond .address
  let s1 := (setWait t.lane (l.readWait t.cs ((opMode l t.cs l.mode[t.cs] t.op).getD .s111) t.op)
    (answer t.lane (some data) fp (replayRead t h s))).modLane t.lane fun l => countRead us l
  let cap := captureRead s t e (strobe.map Prod.fst) us ⟨s1.lane t.lane, [], []⟩
  -- the first byte captured in IDLE starts a wake (R217)
  let s2 := (if cap.lane.trackersFree then s1 else wakeIdle s1).modLane t.lane fun _ => startHash cap.lane
  let s3 := logReadDenies t base us s2
  -- re-deliveries that differ (R122)
  let s4 := cap.differs.foldl (fun s d =>
    match d.2 with
    | none => flashMismatch t.lane d.1 6 false none s
    | some x => reservoirMismatch t.lane d.1 x 6 s) s3
  -- a data-strobe fault sends its leaf to confirmation (R130)
  let s5 := match strobe.bind fun x => x.2.unit.bind (s.unitLeaf t.lane) with
    | none => s4
    | some r => flashMismatch t.lane r 7 true none s4
  -- an uncorrectable mirror word (R137)
  let s6 := match us.find? fun x => (mirrorFaultAt e x).isSome with
    | none => s5
    | some x =>
      (match x.unit.bind (s.unitLeaf t.lane), l.manifest, mirrorFaultAt e x with
      | some r, some m, some j =>
        let ext := s.mirrorOf t.lane r
        let bank := (ext.map (·.bank)).getD 0
        let byte := ((x.unit.getD 0) - leafBase m r) * unitBytes + x.off + (j - x.first)
        loseMirror t.lane r (weirReport 41 .ucc 0x11 bank (((ext.map (·.offset)).getD 0 + byte) / 8) s5)
      | _, _, _ => s5)
  readFaults t e (mergeUnit l.cfg t.cs (h / unitBytes)) us.length s6

/-- The lane unit that a command with an address addresses, for the report of a fault (R425). -/
def unitOf (s : State) (t : Txn) (addr : Word) : Option Nat :=
  let l := s.lane t.lane
  some (mergeUnit l.cfg t.cs (hostAddr l t addr / unitBytes))

/-- Where the poison of a refused READ begins: the lane address, or byte 0 where the lane decodes a command without an
address (R47). -/
def readFrom (s : State) (t : Txn) (addr : Word) : Nat :=
  let l := s.lane t.lane
  if opClass l t.cs t.op t.op2 = .read then laneAddr l t.cs (hostAddr l t addr) else 0

/-- READ (R597): each unit is served from FLASH, MIRROR, RESERVOIR or POISON. -/
def execRead (t : Txn) (addr : Word) (len : Nat) (e : ReadEnv) (s : State) : Out :=
  guarded .read t (unitOf s t addr) (fun r => refuseFrom t r (readFrom s t addr) len) (readDecided t addr len e) s

/-! ### The lane's own answers -/

/-- A READ_SFDP past the gate (R59, R60): bytes of the synthesised image, after the eight dummy cycles of JESD216
(PRESUMED, assumption 54). Without an image the lane has none to give, and refuses. -/
def sfdpDecided (t : Txn) (addr : Word) (len : Nat) (s : State) : State :=
  let l := s.lane t.lane
  if l.hasImage t.cs then
    setWait t.lane 8 (answer t.lane (some (sfdpRead (sfdpImage (l.tables t.cs) l.cfg t.cs) addr.toNat len)) .idle s)
  else refuseFrom t rOpcode addr.toNat len s

/-- READ_SFDP (R59, R60). Poison carries the SFDP address where R47 asks for a lane address: the manual does not say which
address it is (assumption 55). -/
def execReadSfdp (t : Txn) (addr : Word) (len : Nat) (s : State) : Out :=
  guarded .sfdp t none (fun r => refuseFrom t r addr.toNat len) (sfdpDecided t addr len) s

/-- The first three bytes that READ_ID returns: JEDEC_ID, of which all zeros stands for the flash's own, which the manual
does not give (R34), but not under the configuration of R107, which names no flash. -/
def idBytes (l : Lane) (s : State) : Bytes × State :=
  if allZero l.cfg.jedec ∧ 0 < l.cfg.flash0 then drawBytes 3 s else (l.cfg.jedec, s)

/-- READ_ID (R34, R35): JEDEC_ID, then bytes of 0x00. -/
def execReadId (t : Txn) (len : Nat) (s : State) : Out :=
  guarded .ident t none (fun r => refusePlain t r len) (fun s =>
    let d := idBytes (s.lane t.lane) s
    answer t.lane (some (padTo (d.1.take len) len)) .idle d.2) s

/-! ### Commands without an address (R66, R600) -/

/-- The chips that a host chip select reaches and that are in a state. -/
def State.reachIn (s : State) (n : Fin 8) (k : Fin 2) (st : ChipState) : List (Fin 2) :=
  (s.reachList n k).filter fun f => ((s.lane n).chips[f]).st == st

/-- The chips that a host chip select reaches, changed by f. -/
def Lane.modChips (l : Lane) (fs : List (Fin 2)) (f : FlashChip → FlashChip) : Lane :=
  { l with chips := vmapI l.chips fun i c => if fs.contains i then f c else c }

/-- A status read shows what the flash reports (R63): with WIP = 0 the chip leaves HOST_BUSY, once R38 has completed. It
holds a suspended operation from then on where a suspend was forwarded, and still holds one that it held before. -/
def statusSeen (sr : Byte) (c : FlashChip) : FlashChip :=
  match c.st with
  | .virund => c
  | _ =>
    let c1 := { c with wip := sr.getLsbD 0, wel := sr.getLsbD 1 }
    if c.st = .hostBusy ∧ !sr.getLsbD 0 ∧ !c.restorePending then
      { c1 with st := .host, suspended := c.suspended || c.suspendSent, suspendSent := false } else c1

/-- The chips that a command without an address is sent to: those that the host chip select reaches, but for one in
VIRUND (R600). -/
def State.sendList (s : State) (t : Txn) : List (Fin 2) :=
  (s.reachList t.lane t.cs).filter fun f => ((s.lane t.lane).chips[f]).st != .virund

/-- What the flash side shows of a command without an address (R600). -/
def castAct (l : Lane) (op : Byte) (chips : List (Fin 2)) (data : Bytes) : FpAct :=
  if !l.drives || chips.isEmpty then .idle else .broadcast op chips data

/-- A READ_STATUS past the gate (R65, R66, R600): the primary flash's register with bits [1:0] from the shadows. Opcode
0x05 names status register 1, which the shadow follows. -/
def statusDecided (t : Txn) (len : Nat) (sr0 sr1 : Byte) (s : State) : State :=
  let l := s.lane t.lane
  let p := primaryFlash l.cfg t.cs
  let reach := s.reachList t.lane t.cs
  let sr := if p = 0 then sr0 else sr1
  let virund := (l.chips[p]).st == .virund
  let l1 := if t.op = 0x05 ∧ !virund then l.modChips [p] (statusSeen sr) else l
  let wip := reach.any fun f => (l1.chips[f]).wip
  let wel := !reach.isEmpty && reach.all fun f => (l1.chips[f]).wel
  let low : Byte := BitVec.ofNat 8 (b2n wip + 2 * b2n wel)
  let v := if virund then low else (sr &&& 0xFC) ||| low
  answer t.lane (some (List.replicate len v)) (if virund || !l.drives then .idle else .forwarded .read t.op none none [])
    (s.modLane t.lane fun _ => l1)

/-- READ_STATUS (R66). -/
def execReadStatus (t : Txn) (len : Nat) (sr0 sr1 : Byte) (s : State) : Out :=
  guarded .status t none (fun r => refusePlain t r len) (statusDecided t len sr0 sr1) s

/-- A WRITE_ENABLE past the gate (R63, R65, R66, R600): every reached chip, a chip in VIRUND in its shadow alone. -/
def writeEnableDecided (t : Txn) (s : State) : State :=
  if (s.reachIn t.lane t.cs .hostBusy) ≠ [] then refusePlain t rBusy 0 s
  else
    (answer t.lane (some []) (castAct (s.lane t.lane) t.op (s.sendList t) []) s).modLane t.lane fun l =>
      l.modChips (s.reachList t.lane t.cs) fun c => { c with wel := t.op == 0x06 }

/-- WRITE_ENABLE (R65, R66, R600). -/
def execWriteEnable (t : Txn) (s : State) : Out :=
  guarded .writeEnable t none (fun r => refusePlain t r 0) (writeEnableDecided t) s

/-! ### PROGRAM and ERASE -/

/-- The reason of a PROGRAM or ERASE that the lane refuses at a chip (R48, R63): FLASH_BUSY on a chip that is not in HOST,
otherwise RULE_DENY. -/
def writeReason (c : FlashChip) : Nat := if c.st = .host then rRuleDeny else rBusy

/-- A PROGRAM past the gate (R58, R63, R65, R88, R92, R93, R256). Its entry's refusal is logged with the reason that stands
for it (R100; assumption 55). -/
def programDecided (t : Txn) (addr : Word) (data : Bytes) (s : State) : State :=
  let l := s.lane t.lane
  let h := hostAddr l t addr
  let base := laneAddr l t.cs h
  let hu := h / unitBytes
  let u := mergeUnit l.cfg t.cs hu
  if reachUnits l t ≤ hu then refuseWrite t rBeyond .address s
  else
    let f := s.flashOf t.lane u
    let c := l.chips[f.1]
    let s1 := s.modLane t.lane (countHit u)
    let refuse := fun (reason : Nat) (s : State) => logDeny t.lane reason u base (refuseWrite t reason .address s)
    match winner l.rules u with
    | none => refuseWrite t (writeReason c) .address s1
    | some w =>
      match w.2.access with
      | .openFlash =>
        if c.st ≠ .host then refuse rBusy s1
        else
          (answer t.lane (some [])
            (.forwarded .program t.op (some (s.flashByte t.lane u (h % unitBytes))) none data) s1).modLane t.lane fun l =>
              l.modChips [f.1] fun c => { c with st := .hostBusy, wip := true }
      | .stageWrite =>
        let win := w.2.window
        let k := u - w.2.base
        if c.st = .hostBusy then refuse rBusy s1
        else if !c.wel then refuse rRuleDeny s1
        else if s1.lockedAway t.lane win ∨ ((s1.staged t.lane win k).isNone ∧ !s1.stagingFree) then
          refuse rRuleDeny (s1.modLane t.lane fun l => l.count fun c => { c with stageRefusedFull := inc48 c.stageRefusedFull })
        else
          let s2 := stageProgram t.lane win k (flashPage (l.flash[f.1]).sfdp) (h % unitBytes) data s1
          refuseWrite t rRuleDeny .address (s2.modLane t.lane fun l => l.count fun c => { c with stageCaptured := inc48 c.stageCaptured })
      | _ => refuse (writeReason c) s1

/-- PROGRAM (R88): forwarded in OPEN, captured in STAGE_WRITE, otherwise refused by truncation. -/
def execProgram (t : Txn) (addr : Word) (data : Bytes) (s : State) : Out :=
  guarded .program t (unitOf s t addr) (refuseWriteAt t) (programDecided t addr data) s

/-- The lane unit of a host chip select that decides a flash unit, under the selects in force (R45): a window's unit
where some window's target holds it, else the unit of the identity map. -/
def State.unitOfFlash (s : State) (n : Fin 8) (k : Fin 2) (f : Nat) : Option Nat :=
  let l := s.lane n
  let lo := mergeUnit l.cfg k 0
  let inCs := fun u => decide (lo ≤ u ∧ u < lo + hostSize l.cfg k)
  let byWin := (fins 8).filterMap fun w =>
    let r := l.remap[w]
    let tgt := targetUnit r (s.sels n w) r.base
    if tgt ≤ f ∧ f < tgt + r.len ∧ inCs (r.base + (f - tgt)) then some (r.base + (f - tgt)) else none
  match byWin.head? with
  | some u => some u
  | none => if inCs f && (windowOf l.remap f).isNone then some f else none

/-- The flash units that an ERASE covers, as units of flash address space (R45). -/
def eraseUnits (l : Lane) (f : Fin 2 × Nat) (size : Nat) : List Nat :=
  let b := max 1 size
  (List.range b).map fun i => (if f.1 = 0 then 0 else l.cfg.flash0) + f.2 / b * b + i

/-- A covered unit admits an ERASE under R88; one that no lane address reaches does not (R90). -/
def eraseAdmits (l : Lane) (v : Option Nat) : Bool :=
  match v with
  | none => false
  | some v => (match winner l.rules v with
    | none => false
    | some w => w.2.access == .openFlash || (w.2.access == .stageWrite && w.2.stageErase))

/-- What R90 decides over the covered units: every unit open, every unit staged under one winner, or refused, with the
lane units whose decisions refuse. -/
inductive EraseVerdict where
  | forwarded
  | captured (w : RuleEntry)
  | refused (units : List Nat)
deriving DecidableEq, Repr

/-- The first row of R90 that applies. -/
def eraseVerdict (l : Lane) (units : List (Option Nat)) : EraseVerdict :=
  let known := units.filterMap id
  let wins := known.filterMap (winner l.rules)
  if units.any fun v => !eraseAdmits l v then .refused (known.filter fun v => !eraseAdmits l (some v))
  else if wins.all fun w => w.2.access == .openFlash then .forwarded
  else
    match wins with
    | [] => .refused known
    | w :: ws => if ws.all (fun x => x.1 == w.1) && w.2.access == .stageWrite then .captured w.2 else .refused known

/-- The refused decisions of an ERASE, each logged under its own winner (R100). A unit's lane address is its first byte,
but for the addressed unit, which has the command's address. -/
def logErase (t : Txn) (reason u base : Nat) (vs : List Nat) (s : State) : State :=
  vs.foldl (fun s v => logDeny t.lane reason v (if v = u then base else v * unitBytes) s) s

/-- An ERASE past the gate (R45, R63, R65, R90, R94). -/
def eraseDecided (t : Txn) (addr : Word) (size : Nat) (s : State) : State :=
  let l := s.lane t.lane
  let h := hostAddr l t addr
  let base := laneAddr l t.cs h
  let hu := h / unitBytes
  let u := mergeUnit l.cfg t.cs hu
  if reachUnits l t ≤ hu then refuseWrite t rBeyond .address s
  else
    let f := s.flashOf t.lane u
    let c := l.chips[f.1]
    let units := (eraseUnits l f size).map (s.unitOfFlash t.lane t.cs)
    let known := units.filterMap id
    let s1 := s.modLane t.lane fun l => known.foldl (fun l v => countHit v l) l
    let refuse := fun (reason : Nat) (vs : List Nat) => logErase t reason u base vs (refuseWrite t reason .heldAddress s1)
    match eraseVerdict l units with
    | .refused vs => refuse (writeReason c) vs
    | .forwarded =>
      if c.st ≠ .host then refuse rBusy known
      else
        (answer t.lane (some [])
          (.forwarded .erase t.op (some (s.flashByte t.lane u (h % unitBytes))) none []) s1).modLane t.lane fun l =>
            l.modChips [f.1] fun c => { c with st := .hostBusy, wip := true }
    | .captured w =>
      if c.st = .hostBusy then refuse rBusy known
      else if !c.wel ∨ s1.lockedAway t.lane w.window then refuse rRuleDeny known
      else
        let ks := known.map fun v => v - w.base
        let s2 := { s1 with staging := s1.staging.filter fun x =>
          !(x.lane == t.lane && x.window == w.window && ks.contains x.k) }
        refuseWrite t rRuleDeny .heldAddress
          (s2.modLane t.lane fun l => l.count fun c => { c with stageCaptured := inc48 c.stageCaptured })

/-- ERASE (R90): decided once over every flash unit that it covers. -/
def execErase (t : Txn) (addr : Word) (blockUnits : Nat) (s : State) : Out :=
  guarded .erase t (unitOf s t addr) (refuseWriteAt t) (eraseDecided t addr blockUnits) s

/-! ### Classes that are refused, or forwarded whole -/

/-- A class that is always refused (R35), its data phase from a lane address on where the class has an address (R47). -/
def alwaysRefused (want : OpClass) (t : Txn) (from_ len : Nat) (s : State) : Out :=
  guarded want t none (fun r => refuseFrom t r from_ len) (refuseFrom t rOpcode from_ len) s

/-- ERASE_CHIP (R35): always refused. -/
def execEraseChip (t : Txn) (s : State) : Out := alwaysRefused .eraseChip t 0 0 s

/-- POWER (R35): refused. -/
def execPower (t : Txn) (len : Nat) (s : State) : Out := alwaysRefused .power t 0 len s

/-- SECURITY_REGISTER (R35), a class with an address: refused. -/
def execSecurityRegister (t : Txn) (addr : Word) (len : Nat) (s : State) : Out :=
  let l := s.lane t.lane
  alwaysRefused .security t (if opClass l t.cs t.op t.op2 = .security then laneAddr l t.cs (hostAddr l t addr) else 0) len s

/-- UNKNOWN (R30, R35, R596): refused. -/
def execUnknown (t : Txn) (len : Nat) (s : State) : Out := alwaysRefused .unknown t 0 len s

/-- The WRITE_CONFIG commands of a sequence (R37). -/
def configCmds (q : List Bytes) : List Bytes := q.filter fun c => match c with
  | [] => false
  | b :: _ => baseClass b == .config

/-- The command continues a sequence, or begins it. -/
def continues (seen : List Bytes) (cmd : Bytes) (q : List Bytes) : Bool :=
  (seen ++ [cmd]).isPrefixOf q || [cmd].isPrefixOf q

/-- The sequence that a WRITE_CONFIG command continues: out of 8D-8D-8D in that mode, or into it where MODE_MASK sets it
(R37). The sequences are those of the chip select's primary flash (R59, R600). -/
def configMatch (l : Lane) (k : Fin 2) (cmd : Bytes) : Option (List Bytes × Proto) :=
  let seen := l.switchSeen[k]
  let into := configCmds (l.tables k).octalIn
  let back := configCmds (l.tables k).octalOut
  if l.mode[k] = .d888 ∧ continues seen cmd back then some (back, .s111)
  else if modeSet l.cfg .d888 ∧ continues seen cmd into then some (into, .d888)
  else none

/-- A forwarded WRITE_CONFIG: every reached chip is HOST_BUSY, and the last command of the sequence switches both ports
to the new mode (R37, R63). The manual does not say what the switch does to the address width: 8D-8D-8D has 4-byte
addresses (R29), which the chip select keeps after the switch back (assumption 55). -/
def configForward (t : Txn) (cmd : Bytes) (q : List Bytes) (m : Proto) (s : State) : State :=
  let reach := s.reachList t.lane t.cs
  (answer t.lane (some []) (castAct (s.lane t.lane) t.op reach (cmd.drop 1)) s).modLane t.lane fun l =>
    let old := l.switchSeen[t.cs]
    let seen := if (old ++ [cmd]).isPrefixOf q then old ++ [cmd] else [cmd]
    let done := decide (seen.length = q.length)
    let l1 := l.modChips reach fun c => { c with st := .hostBusy, wip := true }
    { l1 with
      switchSeen := l1.switchSeen.set t.cs.val (if done then [] else seen)
      mode := if done then l1.mode.set t.cs.val m else l1.mode
      addr4 := if done ∧ m = .d888 then l1.addr4.set t.cs.val true else l1.addr4 }

/-- Every reached chip is in HOST, so a command to all of them may be forwarded (R63, R65, R600). -/
def allHost (t : Txn) (s : State) : Bool :=
  (s.reachIn t.lane t.cs .host).length == (s.reachList t.lane t.cs).length

/-- A WRITE_CONFIG past the gate (R37). -/
def configDecided (t : Txn) (data : Bytes) (s : State) : State :=
  if !allHost t s then refuseWrite t rBusy .heldData s
  else
    match configMatch (s.lane t.lane) t.cs (t.op :: data) with
    | some (q, m) => followMode t.lane t.cs (configForward t (t.op :: data) q m s)
    | none =>
      refuseWrite t rOpcode .heldData
        (s.modLane t.lane fun l => { l with switchSeen := l.switchSeen.set t.cs.val [] })

/-- WRITE_CONFIG (R37): forwarded when it is a command of a recognised mode-switch sequence, refused otherwise. -/
def execWriteConfig (t : Txn) (data : Bytes) (s : State) : Out :=
  guarded .config t none (refuseWriteAt t) (configDecided t data) s

/-- An ADDRESS_MODE past the gate (R35, R600). -/
def addressModeDecided (t : Txn) (s : State) : State :=
  if !allHost t s then refusePlain t rBusy 0 s
  else
    followMode t.lane t.cs
      ((answer t.lane (some []) (castAct (s.lane t.lane) t.op (s.reachList t.lane t.cs) []) s).modLane t.lane fun l =>
        { l with addr4 := l.addr4.set t.cs.val (t.op == 0xB7) })

/-- ADDRESS_MODE (R35): forwarded to every reached chip; the lane switches its address width. -/
def execAddressMode (t : Txn) (s : State) : Out :=
  guarded .addrMode t none (fun r => refusePlain t r 0) (addressModeDecided t) s

/-- A RESET past the gate (R38, R63): both ports return to the power-on mode, and every chip that received it is HOST_BUSY
until the lane has restored its configuration. A chip that holds a suspended operation holds it until a resume is
forwarded, as R63 words it. -/
def resetDecided (t : Txn) (s : State) : State :=
  let reach := s.reachList t.lane t.cs
  if !allHost t s then refusePlain t rBusy 0 s
  else
    followMode t.lane t.cs ((answer t.lane (some []) (castAct (s.lane t.lane) t.op reach []) s).modLane t.lane fun l =>
      let p := l.powerOn[primaryFlash l.cfg t.cs]
      let l1 := l.modChips reach fun c => { c with st := .hostBusy, restorePending := true, wel := false, wip := true }
      { l1 with
        mode := l1.mode.set t.cs.val p.1
        addr4 := l1.addr4.set t.cs.val p.2
        switchSeen := l1.switchSeen.set t.cs.val [] })

/-- RESET (R38, R63): 0x66 and 0x99 alike, the two opcodes of the class. -/
def execReset (t : Txn) (s : State) : Out :=
  guarded .reset t none (fun r => refusePlain t r 0) (resetDecided t) s

/-- The lane has written its dummy-cycle configuration back to a flash that was reset (R38). The chip leaves HOST_BUSY at
the next status read with WIP = 0 (R63). -/
def execResetConfigRestore (lane : Fin 8) (chip : Fin 2) (s : State) : Out :=
  .next (s.modLane lane fun l => l.modChips [chip] fun c => { c with restorePending := false })

/-- A SUSPEND past the gate (R35, R38, R63, R65, R600): forwarded while a reached chip is HOST_BUSY, refused where none
is. -/
def suspendDecided (t : Txn) (s : State) : State :=
  let l := s.lane t.lane
  let busy := s.reachIn t.lane t.cs .hostBusy
  if busy.any fun f => (l.chips[f]).restorePending then refusePlain t rBusy 0 s
  else if busy = [] then refusePlain t (if (s.reachIn t.lane t.cs .virund) = [] then rOpcode else rBusy) 0 s
  else
    (answer t.lane (some []) (castAct l t.op (s.sendList t) []) s).modLane t.lane fun l =>
      l.modChips busy fun c => { c with suspendSent := true }

/-- SUSPEND (R35, R63). -/
def execSuspend (t : Txn) (s : State) : Out :=
  guarded .suspend t none (fun r => refusePlain t r 0) (suspendDecided t) s

/-- A RESUME past the gate (R35, R38, R63, R65, R600): forwarded while a reached chip holds a suspended host operation,
which returns it to HOST_BUSY; refused where none does. -/
def resumeDecided (t : Txn) (s : State) : State :=
  let l := s.lane t.lane
  let held := (s.sendList t).filter fun f => (l.chips[f]).suspended
  if (s.sendList t).any fun f => (l.chips[f]).restorePending then refusePlain t rBusy 0 s
  else if held = [] then refusePlain t (if (s.reachIn t.lane t.cs .virund) = [] then rOpcode else rBusy) 0 s
  else
    (answer t.lane (some []) (castAct l t.op (s.sendList t) []) s).modLane t.lane fun l =>
      l.modChips held fun c => { c with st := .hostBusy, suspended := false, wip := true }

/-- RESUME (R35, R63). -/
def execResume (t : Txn) (s : State) : Out :=
  guarded .resume t none (fun r => refusePlain t r 0) (resumeDecided t) s

/-! ### The mailbox (R68 to R71, R391, R396, R599) -/

/-- MB_OP_WRITE (R68, R69, R599). -/
def execMbOpWrite (t : Txn) (data : Bytes) (s : State) : Out :=
  guarded .mbWrite t none (fun r => refusePlain t r 0) (fun s => appendInbound t.lane data (answer t.lane (some []) .idle s)) s

/-- The dummy cycles of the two mailbox reads (R68). -/
def mbDummy : Nat := 8

/-- MB_OP_READ (R68, R396): bytes leave the outbound buffer; beyond OUT_COUNT the lane returns 0x00. Responses stream
into the buffer as it empties. -/
def execMbOpRead (t : Txn) (len : Nat) (s : State) : Out :=
  guarded .mbRead t none (fun r => refusePlain t r len) (fun s =>
    let out := (s.lane t.lane).mb.outBuf
    (setWait t.lane mbDummy (answer t.lane (some (padTo (out.take len) len)) .idle s)).modLane t.lane fun l =>
      { l with mb := { l.mb with outBuf := l.mb.outBuf.drop len } }) s

/-- MB_OP_STATUS (R68, R71): the status word, then bytes of 0x00. -/
def execMbOpStatus (t : Txn) (len : Nat) (s : State) : Out :=
  guarded .mbStatus t none (fun r => refusePlain t r len) (fun s =>
    setWait t.lane mbDummy
      (answer t.lane (some (padTo ((leBytes 8 (mailboxStatus (s.lane t.lane))).take len) len)) .idle s)) s

/-- A complete frame that waited in the buffer is taken, where the port and the device now have room (R599). -/
def execMailboxFrameRelease (lane : Fin 8) (s : State) : Out :=
  .next (takeFrames lane ((s.lane lane).mb.inBuf.length + 2) s)

/-- T_gap has passed with a frame incomplete (R391): LENGTH_SHORT, or BAD_FRAME where bytes of it were lost, then
DISCARD. -/
def execMailboxGapTimeout (lane : Fin 8) (s : State) : Out :=
  let mb := (s.lane lane).mb
  let b := skipZeros mb.inBuf
  if mb.paused ∨ mb.discard ∨ b.length < 16 ∨ 16 + u32 b 8 ≤ b.length then .next s
  else
    .next (failFrame lane (if mb.lost then .badFrame else .lengthShort) []
      (s.modLane lane fun l => { l with mb := { l.mb with inBuf := b } }))

end Sys2Proof.Machine
end

