-- ==== Sys2Proof/Machine/LaneEvents.lean ====
section
/-! DEFINITION. The lane's own events: WRDI, the status poll of a busy chip, table rewrites, the steps of a spare
takeover, the swap of a rule set, Virund's ownership of a flash chip, and the drains that changes wait for (R46, R63 to
R67, R75 to R83, R99, R101 to R106, R145, R146, R156). -/
namespace Sys2Proof.Machine
open Sys2Proof

/-- WRDI_SEND (R46): the WRDI that a refused write owes is sent in a gap, to no chip in VIRUND. -/
def execWrdiSend (lane : Fin 8) (s : State) : Out := whileRunning s <|
  let l := s.lane lane
  let chips := l.wrdi.filter fun f => (l.chips[f]).st != .virund
  if l.wrdi = [] then .next s
  else
    .next (s.modLane lane fun l =>
      { l.modChips chips (fun c => { c with wel := false }) with
        wrdi := []
        fp := if chips = [] then l.fp else .own 0x04 chips })

/-- FLASH_STATUS_POLL (R63): Virund's status read of a HOST_BUSY chip, which leaves the state on WIP = 0. -/
def execFlashStatusPoll (lane : Fin 8) (chip : Fin 2) (sr : Byte) (s : State) : Out := whileRunning s <|
  if ((s.lane lane).chips[chip]).st = .hostBusy then
    .next (s.modLane lane fun l => l.modChips [chip] (statusSeen sr))
  else .next s

/-- TABLE_REWRITE (R75). -/
def execTableRewrite (lane : Fin 8) (s : State) : Out := whileServing lane s <|
  .next (s.modLane lane fun l => { l with tableBad := false })

/-! ### Spare takeover (R78 to R82, R104) -/

/-- The Weir record names the bound Riffle of a lane (R79, R425). -/
def recordNamesRiffle (n : Fin 8) (w : Weir) : Bool :=
  w.record.valid && w.record.source.val == n.val && w.record.syndrome.toNat / 2 ^ 16 % 2 ^ 16 == 1

/-- The Riffle that a spare binds for a lane: one that the lane has claimed before, Riffle[n] in service that the Weir
record does not name, or a pooled Riffle claimed now (R79). -/
def bindRiffle (n : Fin 8) (s : State) : State :=
  let own : Fin 32 := n.castLE (by decide)
  match (fins 32).find? fun i => (s.riffle i).boundTo == some n && (s.riffle i).inService with
  | some i => s.modLane n fun l => { l with riffle := some i }
  | none =>
    if (s.riffle own).inService && !recordNamesRiffle n s.weir then s.modLane n fun l => { l with riffle := some own }
    else claimRiffle n s

/-- SHADOW_HASH_RESUME (R79, R80): step 4 of a takeover. -/
def execShadowHashResume (lane : Fin 8) (s : State) : Out := whileRunning s <|
  match (s.lane lane).takeover with
  | none => .next s
  | some t =>
    if t.hashing then .next s
    else .next ((bindRiffle lane s).modLane lane fun l => startHash { l with takeover := some { t with hashing := true } })

/-- SPARE_TAKEOVER_COMPLETE (R78, R81): step 5, with the TAKEOVER entry and the BLOCK reset of the engine replaced. -/
def execSpareTakeoverComplete (lane : Fin 8) (s : State) : Out := whileServing lane s <|
  match (s.lane lane).takeover with
  | none => .next s
  | some t =>
    if !t.hashing then .next s
    else
      let s1 := s.modLane lane fun l => { l with takeover := none, tableBad := false }
      .next (blockReset (t.replaced.castLE (by decide)) 0 true (logTakeover lane (some t.spare) (s1.lane lane).riffle s1))

/-! ### A manifest replaces another (R111, R156) -/

/-- The slot of a lane that holds its active host manifest (R280). -/
def State.manifestBytes (s : State) (n : Fin 8) (active : Bool) : Option Bytes :=
  if (s.nvm.commit.lanes[n]).active == active then s.nvm.manifest1[n] else s.nvm.manifest0[n]

/-- Stores a manifest in the active slot of a lane, or in the other one. -/
def storeManifest (n : Fin 8) (active : Bool) (b : Bytes) (s : State) : State :=
  s.modNvm fun v =>
    if (v.commit.lanes[n]).active == active then { v with manifest1 := vmod v.manifest1 n fun _ => some b }
    else { v with manifest0 := vmod v.manifest0 n fun _ => some b }

/-- The region indices of a manifest that count as replaced (R156). -/
def replacedRegions (old : Option HostManifest) (new : HostManifest) : List Nat :=
  (List.range new.regions.length).filter fun i =>
    match old.bind fun m => m.regions[i]?, new.regions[i]? with
    | some a, some b => a.base != b.base || a.len != b.len || a.leafUnits != b.leafUnits || a.root != b.root
    | _, _ => true

/-- The lane works with a manifest: its replaced regions lose their leaf states, digests and mirror copies (R111, R156);
the other regions keep theirs. A scrub period begins with the new leaves (assumption 57). -/
def replaceManifest (n : Fin 8) (m : HostManifest) (s : State) : State :=
  let l := s.lane n
  let rep := replacedRegions l.manifest m
  let keepOr := fun {α : Type} (old : List α) (fresh : Region → α) =>
    m.regions.zipIdx.map fun x => if rep.contains x.2 then fresh x.1 else (old[x.2]?).getD (fresh x.1)
  let gone := fun (r : LeafRef) => rep.contains r.region || decide (m.regions.length ≤ r.region)
  let s1 := s.modLane n fun l =>
    { l with
      manifest := some m
      leaves := keepOr l.leaves fun g => List.replicate g.leafCount .fresh
      digests := keepOr l.digests fun g => List.replicate g.leafCount none
      level1 := keepOr l.level1 fun _ => []
      flashChecks := drop? l.flashChecks gone
      confirms := drop? l.confirms fun c => gone c.leaf
      fills := drop? l.fills gone
      pageReqs := drop? l.pageReqs fun q => gone ⟨q.1, 0⟩
      scrubFirst := 0, scrubAt := 0, scrubStart := s.tick, scrubbed := [], skipNext := []
      leafLog := drop? l.leafLog fun x => gone x.1 }
  let drop := fun (r : Reservoir) =>
    { r with defects := drop? r.defects fun d => d.1 == n && gone d.2 }
  let s2 := { s1 with resA := drop s1.resA, resB := drop s1.resB }
  settleCache { s2 with mirror := drop? s2.mirror fun e => e.lane == n && gone e.leaf }

/-- The extents of the leaves that the rules in force mirror are allocated, and their fills are queued (R601, R135). -/
def mirrorNew (n : Fin 8) (rules : List RuleEntry) (m : HostManifest) (s : State) : State :=
  let want := mirroredLeaves rules m
  let s1 := want.foldl (fun s r => allocMirror n m s r) s
  s1.modLane n fun l =>
    { l with fills := l.fills ++ want.filter fun r => !(l.leafState r).mirrorValid && !l.fills.contains r }

/-- A manifest replacement that nothing holds back takes effect (R156, R409). -/
def applyManifest (n : Fin 8) (b : Bytes) (m : HostManifest) (op : Option Word) (s : State) : State :=
  let rep := replacedRegions (s.lane n).manifest m
  let s1 := storeManifest n true b (replaceManifest n m s)
  let s2 := raiseCounter m.counter s1
  let left := (s2.lane n).proving.filter fun i => !rep.contains i && decide (i < m.regions.length)
  let s3 := (endOp? (s2.lane n).provingOp .aborted 0 s2).modLane n fun l =>
    { l with nextManifest := none, proving := rep ++ left, provingOp := op }
  let s4 := freeMirrors n (mirroredLeaves (s3.lane n).rules m) s3
  let s5 := requestClaims n (mirrorNew n (s4.lane n).rules m s4)
  publishSnap <| if (s5.lane n).proving = [] then endOp? op .done 0 (s5.modLane n fun l => { l with provingOp := none }) else s5

/-- The checks that R178 repeats for a host manifest against the policy that is to be active with it. -/
def recheckManifest (s : State) (n : Fin 8) (b : Bytes) (p : Option LanePolicy) : Option Failed :=
  match readHostManifest b with
  | none => some ⟨.deniedPolicy, 1⟩
  | some (m, blks) =>
    match recheckBlks s blks with
    | some f => some f
    | none =>
      if m.secVersion < s.counter m.counter then some ⟨.rollback, 9⟩
      else
        let q := p.getD (s.policyInForce n)
        if spanFits n q.cfg m && rulesOk s n q (some m) then none else some ⟨.deniedPolicy, 11⟩

/-- A manifest replacement becomes active, or fails what R178 repeats (R156, R178). -/
def tryManifest (n : Fin 8) (x : Bytes × HostManifest × Word) (s : State) : State :=
  match recheckManifest s n x.1 none with
  | some f => endOp x.2.2 f.res 0 (s.modLane n fun l => { l with nextManifest := none })
  | none => applyManifest n x.1 x.2.1 (some x.2.2) s

/-! ### The swap of a rule set (R99 to R106) -/

/-- Some unit of the lane leaves the verified classes under new rules, or the manifest changes, so trackers must drain
(R146). -/
def swapDrains (l : Lane) (p : PendingSet) : Bool :=
  p.manifest.isSome ||
    (List.range (laneUnits l.cfg)).any fun u =>
      verifiedClass (accessOf l.rules u) && !verifiedClass (accessOf p.policy.rules u)

/-- A queued fill that can still complete: its flash is not BAD, or a Reservoir supplies it. -/
def State.fillable (s : State) (n : Fin 8) (r : LeafRef) : Bool := !(s.lane n).leafBad r || (s.repairSource n r).isSome

/-- Steps 2 and 3 are done and nothing else holds the swap back: no takeover in progress (R104), no fill of the new set
that can still complete (R101), and the host held where the geometry changes (R102). -/
def State.swapReady (s : State) (n : Fin 8) (p : PendingSet) : Bool :=
  let l := s.lane n
  let filling := match l.manifest, p.manifest with
    | some m, none => (mirroredLeaves p.policy.rules m).any fun r => l.fills.contains r && s.fillable n r
    | _, _ => false
  l.takeover.isNone && !filling && (!p.geometry || s.hostHeld n)

/-- The swap (R99, R101, R102, R105, R106, R111, R214, R601). A leaf that loses its mirror copy while it is BAD or ERROR has its
action take effect (R132). -/
def swapSet (n : Fin 8) (p : PendingSet) (s : State) : State :=
  let s1 := s.modLane n fun l =>
    { l with
      cfg := p.policy.cfg
      verify := p.policy.verify
      remap := p.policy.remap
      rules := p.policy.rules
      prevHits := l.hits
      hits := List.replicate p.policy.rules.length 0
      denyLog := []
      denyReset := false
      denyNoPolicy := false
      sfdp := true
      pending := none
      tableBad := false }
  let s2 := s1.modNvm fun v => { v with lanePolicy := vmod v.lanePolicy n fun _ => some p.policyBytes }
  let s3 := match p.manifest with
    | none => s2
    | some x => applyManifest n x.1 x.2 p.manifestOp s2
  let mirrored := ((s3.lane n).manifest.map (mirroredLeaves p.policy.rules)).getD []
  let s4 := freeMirrors n mirrored s3
  let bare := (((s4.lane n).manifest.map allLeaves).getD []).filter fun r =>
    ((s4.lane n).leafState r).mirrorValid && !mirrored.contains r
  let s5 := s4.modLane n fun l =>
    { l with
      leaves := l.leaves.zipIdx.map fun x => x.1.zipIdx.map fun y =>
        if mirrored.contains ⟨x.2, y.2⟩ then y.1 else { y.1 with mirrorValid := false }
      fills := l.fills.filter mirrored.contains }
  let s6 := (bare.filter (s5.lane n).leafBad).foldl (fun s r => takeAction n r s) s5
  publishSnap (endOp? p.opId .done 0 (raiseCounter p.policy.counter (powerBanks (settleDemand s6))))

/-- The checks that R178 repeats for a pending rule set and a manifest that comes with it. -/
def recheckSwap (s : State) (n : Fin 8) (p : PendingSet) : Option Failed :=
  let m := match p.manifest with
    | some x => some x.2
    | none => (s.lane n).manifest
  match readLanePolicy p.policyBytes with
  | none => some ⟨.deniedPolicy, 1⟩
  | some (q, known, blks) =>
    match recheckBlks s blks with
    | some f => some f
    | none =>
      if q.secVersion < s.counter q.counter then some ⟨.rollback, 9⟩
      else if !policyStep11 s n q known m then some ⟨.deniedPolicy, 11⟩
      else (p.manifest.bind fun x => recheckManifest s n x.1 (some q))

/-- The fills and extents of leaves that the rules in force do not mirror are given up (R103, R601). -/
def dropNewMirrors (n : Fin 8) (s : State) : State :=
  let keep := ((s.lane n).manifest.map (mirroredLeaves (s.lane n).rules)).getD []
  freeMirrors n keep (s.modLane n fun l => { l with fills := l.fills.filter keep.contains })

/-- A pending rule set that fails them is given up, and its requests complete with the result (R178). -/
def dropPending (n : Fin 8) (p : PendingSet) (r : Res) (s : State) : State :=
  endOp? p.manifestOp r 0 (endOp? p.opId r 0 (dropNewMirrors n (s.modLane n fun l => { l with pending := none })))

/-- A pending rule set swaps where it is ready; where trackers must drain first, each CAPTURING tracker is sent to
FILLING and the swap waits (R146). -/
def trySwap (n : Fin 8) (s : State) : State :=
  match (s.lane n).pending with
  | none => s
  | some p =>
    if !s.swapReady n p then s
    else if !swapDrains (s.lane n) p || (s.lane n).trackersFree then
      (match recheckSwap s n p with
      | some f => dropPending n p f.res s
      | none => swapSet n p s)
    else s.modLane n fun l => { drainTrackers l with pending := some { p with drained := true } }

/-- RULE_SET_SWAP (R101). -/
def execRuleSetSwap (lane : Fin 8) (s : State) : Out := whileRunning s <|
  .next (trySwap lane s)

/-! ### The flip of a window's select (R53, R260 steps 5 and 6) -/

/-- The leaves of a manifest that lie in a window. -/
def windowLeaves (m : HostManifest) (r : Remap) : List LeafRef :=
  (allLeaves m).filter fun x =>
    match m.regions[x.region]? with
    | none => false
    | some g => decide (r.base ≤ g.base) && decide (g.base + g.len ≤ r.base + r.len)

/-- The bytes of a leaf within the bytes of its window. -/
def leafInWindow (m : HostManifest) (r : Remap) (x : LeafRef) (image : Bytes) : Bytes :=
  slice image ((leafBase m x - r.base) * unitBytes) (leafSize m x.region)

/-- The leaf digests and level-1 nodes of a region from its leaves' bytes (R157). -/
def proveLeaves (leaves : List Bytes) : List Bytes × List Bytes :=
  let ds := leaves.map leafDigest
  (ds, levelAbove ds)

/-- The flip: one commit-record write, then the leaves of the window's regions are GOOD, proved by step 2 (R260). For
NOW the new mirrored leaves were filled at step 4; for PENDING the lane completes again once they have been filled. -/
def flipWindow (a : Activation) (m : HostManifest) (s : State) : State :=
  let n := a.lane
  let w := a.window
  let win := (s.lane n).remap[w]
  let s1 := s.modWin n w fun x =>
    { x with
      select := otherSel x.select
      phase := .flipped
      inactive := .previous
      pendingId := BitVec.ofNat 32 (((s.lane n).manifest.map (·.manifestId.toNat)).getD 0) }
  let s2 := s1.modCommit fun c =>
    { c with
      seq := c.seq + 1
      lanes := vmod c.lanes n fun x => { x with active := !x.active } }
  let s3 := replaceManifest n m s2
  let ls := windowLeaves m win
  let s4 := (List.range m.regions.length).foldl (fun s i =>
    let mine := ls.filter fun x => x.region == i
    if mine = [] then s
    else
      let pr := proveLeaves (mine.map fun x => leafInWindow m win x a.image)
      setDigests n i pr.1 pr.2 s) s3
  let s5 := s4.modLane n fun l => ls.foldl (fun l r => l.modLeaf r fun st => { st with flash := .good }) l
  let s6 := (mirrorNew n (s5.lane n).rules m (freeMirrors n (mirroredLeaves (s5.lane n).rules m) s5)).modLane n fun l =>
    { l with refill := !a.now }
  let s7 := if a.now then
      (ls.filter fun r => (s6.lane n).leafMirrored r).foldl (fun s r =>
        (storeMirror n r (leafInWindow m win r a.image) s).modLane n fun l =>
          { l.modLeaf r (fun st => { st with mirrorValid := true }) with fills := drop? l.fills fun x => x == r }) s6
    else s6
  publishSnap <| (requestClaims n s7).modStolik fun k =>
    { k with activations := k.activations.map fun x => if x.lane = n ∧ x.window = w then { x with step := 7 } else x }

/-- The manifest that an activation makes active: the one in the lane's other slot. -/
def State.incoming (s : State) (n : Fin 8) : Option (Bytes × HostManifest) :=
  (s.manifestBytes n false).bind fun b => (readHostManifest b).map fun x => (b, x.1)

/-- An activation of the lane is between its acceptance and phase IDLE (R252, R260, R272). -/
def State.laneActivating (s : State) (n : Fin 8) : Bool :=
  (s.stolik.activations.any fun a => a.lane == n)
    || (fins 8).any fun w => (s.win n w).phase == .prestaging || (s.win n w).phase == .flipped || (s.win n w).phase == .following

/-- The activation of a lane's window that waits at a step (R260). -/
def State.activationAt (s : State) (n w : Fin 8) (step : Nat) : Option Activation :=
  s.stolik.activations.find? fun a => a.lane == n && a.window == w && a.step == step

/-- What the pre-flip check proved still stands on the inactive target (R249). -/
def State.flipProved (s : State) (a : Activation) : Bool :=
  let e := s.win a.lane a.window
  e.phase == .prestaging && e.inactive == (if a.previous then Inactive.previous else Inactive.landed)

/-- Step 5 where step 4 is done: the host held for PENDING, and the trackers drained (R146, R260). Nothing becomes active
that step 2 has not proved (R249). -/
def tryFlip (a : Activation) (s : State) : State :=
  match s.incoming a.lane with
  | none => s
  | some m =>
    if !s.flipProved a then s
    else if !a.now && !s.hostHeld a.lane then s
    else if !(s.lane a.lane).trackersFree then s.modLane a.lane drainTrackers
    else flipWindow a m.2 s

/-- ACTIVATION_FLIP (R53, R260). -/
def execActivationFlip (lane window : Fin 8) (s : State) : Out := whileRunning s <|
  match s.activationAt lane window 5 with
  | none => .next s
  | some a => .next (tryFlip a s)

/-- TRACKER_DRAIN_COMPLETE (R53, R146): with every tracker FREE, the select change, the manifest replacement and the rule
set that waited take effect. -/
def execTrackerDrainComplete (lane : Fin 8) (s : State) : Out := whileRunning s <|
  if !(s.lane lane).trackersFree then .next s
  else
    let s1 := match s.stolik.activations.find? fun a => a.lane == lane && a.step == 5 with
      | none => s
      | some a => tryFlip a s
    let s2 := match (s1.lane lane).nextManifest with
      | none => s1
      | some x => tryManifest lane x s1
    .next (match (s2.lane lane).pending with
      | none => s2
      | some p => if p.drained then trySwap lane s2 else s2)

/-! ### Virund's ownership of a chip (R64 to R67, R145) -/

/-- A lane unit that maps to a chip counts under the second condition of R64 (R145), with a given claim in effect. -/
def State.unitAllows (s : State) (n : Fin 8) (claim : Option Sel) (u : Nat) : Bool :=
  match winner (s.lane n).rules u with
  | none => true
  | some w =>
    match w.2.access with
    | .mirrored => true
    | .deny => true
    | .stageWrite => true
    | .readVerified => claim.any fun x => s.redirectReady x n w.2.region
    | .read => false
    | .openFlash => false

/-- The second condition of R64 with a given claim in effect. -/
def State.servedUnder (s : State) (n : Fin 8) (chip : Fin 2) (claim : Option Sel) : Bool :=
  (List.range (laneUnits (s.lane n).cfg)).all fun u =>
    (match s.mapUnit n u with
      | none => true
      | some f => f.1 != chip) || s.unitAllows n claim u

/-- The second condition of R64. -/
def State.chipServedElsewhere (s : State) (n : Fin 8) (chip : Fin 2) : Bool := s.servedUnder n chip (s.claimed n)

/-- The inactive target of a window lies on a chip, at least in part (R258). -/
def State.inactiveOn (s : State) (n w : Fin 8) (chip : Fin 2) : Bool :=
  let l := s.lane n
  let r := l.remap[w]
  let at_ := fun (u : Nat) => (splitUnit l.cfg (targetUnit r (otherSel (s.win n w).select) u)).map Prod.fst == some chip
  decide (0 < r.len) && (at_ r.base || at_ (r.base + r.len - 1))

/-- Virund has a write to make on a chip: a landing, or the repair of a leaf (R259, R275). -/
def State.writeWanted (s : State) (n : Fin 8) (chip : Fin 2) : Bool :=
  ((fins 8).any fun w => (s.win n w).phase == .landing && s.inactiveOn n w chip)
    || (s.repairable n).any fun r => (s.leafChips n r).contains chip

/-- The chip answers and no host operation occupies it. -/
def State.chipFree (s : State) (n : Fin 8) (chip : Fin 2) : Bool :=
  let c := (s.lane n).chips[chip]
  c.st == .host && !c.suspended && flashEnabled (s.lane n).cfg chip && !(s.lane n).chipAbsent[chip]

/-- Either condition of R64, on a chip that no host operation occupies. -/
def State.mayEnter (s : State) (n : Fin 8) (chip : Fin 2) : Bool :=
  s.chipFree n chip && (s.hostHeld n || s.chipServedElsewhere n chip)

/-- A Reservoir whose claim would let Virund enter the chip, the one of RES_PREF first (R139, R145). -/
def State.virundGround (s : State) (n : Fin 8) (chip : Fin 2) : Option Sel :=
  let p := (s.lane n).verify.resPref
  if s.hostHeld n || s.servedUnder n chip none then none
  else [p, otherSel p].find? fun x => s.servedUnder n chip (some x)

/-- The lane needs its claim: a leaf needs a Reservoir (R139), or a chip that Virund owns or wants for a write is served
from it (R145). -/
def claimNeeded (n : Fin 8) (s : State) : Bool :=
  !((s.lane n).needy).isEmpty || (fins 2).any fun f =>
    ((((s.lane n).chips[f]).st == .virund || s.writeWanted n f)) && (s.virundGround n f).isSome

/-- The claim that an entry on R145's ground waits for is requested. -/
def requestGround (n : Fin 8) (chip : Fin 2) (s : State) : State :=
  match s.virundGround n chip, s.claimOf n with
  | some x, none => if (s.res x).claim.isNone then takeClaim n x s else s
  | _, _ => s

/-- VIRUND_ENTER (R64): the shadow then holds WIP = 0 and the host's last WEL (R66). Where a claim would serve the chip's
verified units, the claim is requested, and the entry waits for it to take effect (R145). -/
def execVirundEnter (lane : Fin 8) (chip : Fin 2) (s : State) : Out := whileRunning s <|
  if !s.chipFree lane chip || !s.writeWanted lane chip then .next s
  else if s.mayEnter lane chip then
    .next (s.modLane lane fun l => l.modChips [chip] fun c => { c with st := .virund, wip := false })
  else .next (requestGround lane chip s)

/-- VIRUND_EXIT (R67): the flash's WEL is set to the shadow's by WREN or WRDI. -/
def execVirundExit (lane : Fin 8) (chip : Fin 2) (s : State) : Out := whileRunning s <|
  let c := (s.lane lane).chips[chip]
  if c.st = .virund then
    .next (s.modLane lane fun l =>
      { l.modChips [chip] (fun c => { c with st := .host, wip := false }) with
        fp := .own (if c.wel then 0x06 else 0x04) [chip] })
  else .next s

end Sys2Proof.Machine
end

