-- ==== Sys2Proof/Machine/Verify.lean ====
section
/-! DEFINITION. Read-time verification: shadow hashing, page-ins, fills, flash checks, confirmation reads, claims, mirror
fills, automatic release and scrubbing (R108 to R149). -/
namespace Sys2Proof.Machine
open Sys2Proof

/-! ### Shared parts -/

/-- A digest job on a leaf ends with a result (R338); a length result that it met before is settled (R347). -/
def leafJobDone (c : Fin 5) (n : Fin 8) (k : LeafJob) (s : State) : State :=
  (jobDone c s).modConf fun x => { x with lengths := drop? x.lengths fun y => y.1 == .leaf n k }

/-- Every chip that a leaf lies on is in HOST and answers, so that Virund may read the leaf (R63, R144). -/
def State.leafReadable (s : State) (n : Fin 8) (r : LeafRef) : Bool :=
  s.lanesPowered && (s.leafChips n r).all fun f => ((s.lane n).chips[f]).st == .host

/-- A leaf counts as scrubbed in this period (R147). -/
def noteScrubbed (r : LeafRef) (l : Lane) : Lane :=
  { l with scrubbed := if l.scrubbed.contains r then l.scrubbed else r :: l.scrubbed }

/-- A leaf that shadow hashing or a flash check verifies counts as scrubbed, and its next scheduled scrub is skipped
(R148). -/
def noteVerified (r : LeafRef) (l : Lane) : Lane :=
  noteScrubbed r { l with skipNext := if l.skipNext.contains r then l.skipNext else r :: l.skipNext }

/-- FOUND_BY of a tracker's compare (R477): 0 shadow hash, 1 fill. -/
def Tracker.foundBy (t : Tracker) : Nat := if t.filled then 1 else 0

/-- The compare at the end of a tracker's hash, after which it is FREE (R120, R124, R130, R131, R148). Bytes that a
Reservoir served are held against that Reservoir. -/
def compareTracker (n : Fin 8) (t : Fin 64) (m : HostManifest) (digest : Bytes) (s : State) : State :=
  let k := (s.lane n).trackers[t]
  let got := leafDigest (cellRead k.data 0 (leafSize m k.region))
  let s1 := s.modLane n fun l => l.modTracker t fun _ => Tracker.free
  if got = digest then
    s1.modLane n fun l => noteVerified k.ref (l.count fun c => { c with leavesVerified := inc48 c.leavesVerified })
  else match k.res with
    | some x => reservoirMismatch n k.ref x k.foundBy s1
    | none => flashMismatch n k.ref k.foundBy k.fault none s1

/-- LEAF_HASH_COMPLETE (R116, R120, R124 to R126, R131, R132): the bound Riffle ends the hash of its leaf, which is compared
where its page is resident and waits for the page otherwise. The engine then takes the next complete leaf. -/
def execLeafHashComplete (lane : Fin 8) (s : State) : Out := whileRunning s <|
  let l := s.lane lane
  match l.nextHash, l.manifest with
  | some t, some m =>
    if !l.hashing then .next s
    else
      let k := l.trackers[t]
      let s1 := leafJobDone 0 lane .hash s
      let s2 := match l.leafDigest? k.ref with
        | none => s1.modLane lane fun l => requestPage k.ref (l.modTracker t fun x => { x with st := .pageWait })
        | some d => touchPage lane k.ref (compareTracker lane t m d s1)
      .next (s2.modLane lane startHash)
  | _, _ => .next s

/-- A page's bytes prove against its level-1 node (R114, R159). -/
def pageProves (l : Lane) (region page count : Nat) (b : Bytes) : Bool :=
  b.length == 32 * count && (match (l.level1[region]?).bind fun x => x[page]? with
    | none => false
    | some node => hH (0x01 :: b) == node)

/-- The trackers that wait for a page. -/
def Lane.waitingFor (l : Lane) (region page : Nat) : List (Fin 64) :=
  (fins 64).filter fun t =>
    l.trackers[t].st == .pageWait && l.trackers[t].region == region && l.trackers[t].leaf / 16 == page

/-- The leaf-digest file of a lane on a Reservoir can be read: the flash is there and the lane's entry is COMPLETE (R114,
R271). -/
def State.fileReadable (s : State) (x : Sel) (n : Fin 8) : Bool :=
  (s.res x).present && !(s.res x).held && ((s.res x).laneEntry n).any fun e => e.state == .complete

/-- A page has been read: it is requested no more and becomes resident, and the trackers that waited for it are compared
(R114, R120). -/
def pageRead (n : Fin 8) (m : HostManifest) (region page : Nat) (b : Bytes) (s : State) : State :=
  let waits := (s.lane n).waitingFor region page
  let s1 := s.modLane n fun l => { l with pageReqs := drop? l.pageReqs fun q => q == (region, page) }
  let s2 := loadPage n region page b s1
  waits.foldl (fun s t =>
    compareTracker n t m (slice b (32 * (((s.lane n).trackers[t]).leaf % 16)) 32) s) s2

/-- No copy of a page proves, nor do its leaves in flash: they are mismatched, each with the read fault that its read met
(R114, R130). -/
def pageFails (n : Fin 8) (region page count : Nat) (faultLeaves : List Nat) (s : State) : State :=
  let waits := (s.lane n).waitingFor region page
  let s1 := s.modLane n fun l =>
    waits.foldl (fun l t => l.modTracker t fun _ => Tracker.free)
      { l with pageReqs := drop? l.pageReqs fun q => q == (region, page) }
  (List.range count).foldl (fun s i =>
    flashMismatch n ⟨region, 16 * page + i⟩ 2 (faultLeaves.contains (16 * page + i)) none s) s1

/-- PAGE_IN_COMPLETE (R114, R115, R118, R179): a requested page is read from its place in the leaf-digest file of one
Reservoir, else of the other, else rebuilt from its leaves in the guarded flash. fileA and fileB are the files as the two
Reservoirs hold them. -/
def execPageInComplete (lane : Fin 8) (region : Fin 256) (page : Nat) (fileA fileB : Bytes) (leaves : List Bytes)
    (faultLeaves : List Nat) (s : State) : Out := whileRunning s <|
  let l := s.lane lane
  match l.manifest, l.pageReqs.contains (region.val, page) with
  | some m, true =>
    match m.regions[region.val]? with
    | none => .next s
    | some g =>
      let count := min 16 (g.leafCount - 16 * page)
      let on := fun (x : Sel) (f : Bytes) =>
        if s.fileReadable x lane then [slice f (pageOffset m region.val page) (32 * count)] else []
      let refs : List LeafRef := (List.range count).map fun i => ⟨region.val, 16 * page + i⟩
      (match (on .a fileA ++ on .b fileB).find? fun b => pageProves l region.val page count b with
      | some b => .next (pageRead lane m region.val page b s)
      | none =>
        if !refs.all (s.leafReadable lane) then .next s
        else
          let built := (leaves.map leafDigest).flatten
          .next (if pageProves l region.val page count built then pageRead lane m region.val page built s
            else pageFails lane region.val page count faultLeaves s))
  | _, _ => .next s

/-- PARTIAL_TIMEOUT (R120, R128): a CAPTURING tracker with no capture for PARTIAL_TIMEOUT slow ticks goes to FILLING. -/
def execPartialTimeout (lane : Fin 8) (tracker : Fin 64) (s : State) : Out := whileRunning s <|
  let l := s.lane lane
  let t := l.trackers[tracker]
  if t.st = .capturing ∧ t.lastCapture + l.verify.partialTimeout ≤ s.tick then
    .next (s.modLane lane fun l => l.modTracker tracker fun x => { x with st := .filling, filled := true })
  else .next s

/-- A Reservoir from which a fill may read: the lane's claimed one or one that nobody has claimed (R127). -/
def State.fillSource (s : State) (n : Fin 8) (region : Nat) : Option Sel :=
  [Sel.a, Sel.b].find? fun x =>
    s.redirectReady x n region && (match (s.res x).claim with
      | none => true
      | some c => c.lane == n)

/-- TRACKER_FILL_COMPLETE (R127, R130): the uncovered bytes are read from a Reservoir where one serves, else from the guarded
flash while its chip is in HOST; the captured bytes stay as they are. -/
def execTrackerFillComplete (lane : Fin 8) (tracker : Fin 64) (leafBytes : Bytes) (readFault : Bool) (s : State) : Out := whileServing lane s <|
  let l := s.lane lane
  let t := l.trackers[tracker]
  match l.manifest with
  | none => .next s
  | some m =>
    if t.st = .filling ∧ leafBytes.length = leafSize m t.region
        ∧ ((s.fillSource lane t.region).isSome ∨ s.leafReadable lane t.ref) then
      .next ((leafJobDone 0 lane (.fill tracker) s).modLane lane fun l =>
        startHash (complete? (leafSize m t.region) tracker
          (l.modTracker tracker fun x => { x with data := coverNew x.data 0 leafBytes, fault := x.fault || readFault })))
    else .next s

/-- A whole read of a leaf by Virund is compared with its digest (R111, R116, R130). -/
def judgeRead (n : Fin 8) (r : LeafRef) (foundBy : Nat) (b : Bytes) (fault : Bool) (digest : Bytes) (good : Lane → Lane)
    (s : State) : State :=
  let s1 := touchPage n r s
  if fault then flashMismatch n r foundBy true (some b) s1
  else if leafDigest b = digest then s1.modLane n fun l => good (leafMatched r l)
  else flashMismatch n r foundBy false (some b) s1

/-- FLASH_CHECK (R115, R129): the oldest queued check, whose page is requested where it is not resident. -/
def execFlashCheck (lane : Fin 8) (leafBytes : Bytes) (readFault : Bool) (s : State) : Out := whileServing lane s <|
  match (s.lane lane).flashChecks with
  | [] => .next s
  | r :: rest =>
    if !s.leafReadable lane r then .next s
    else
      match (s.lane lane).leafDigest? r with
      | none => .next (s.modLane lane (requestPage r))
      | some d =>
        .next (judgeRead lane r 2 leafBytes readFault d (noteVerified r) (leafJobDone 0 lane .check (s.modLane lane fun l =>
          { l with flashChecks := rest, counts := { l.counts with flashChecks := inc48 l.counts.flashChecks } })))

/-- The cause and FLASH_STATE of a mismatch by the first row of R130 that applies. -/
def classify (fault : Bool) (r1 r2 : Bytes) (digest : Option Bytes) : Nat × FlashState :=
  if fault then (4, .error)
  else if r1 ≠ r2 then (3, .error)
  else if some (leafDigest r1) = digest then (1, .bad)
  else (2, .bad)

/-- The first bytes of a LEAF_MISMATCH entry whose cause is still to come. -/
def openMismatch (n : Fin 8) (r : LeafRef) (q : LogReq) : Bool :=
  q.type == 0x0021 && (q.data.take 3 == [BitVec.ofNat 8 n.val, 0, BitVec.ofNat 8 r.region])
    && slice q.data 4 4 == leBytes 4 r.leaf

/-- The classification sets the cause in the entry that waits for it (R130). -/
def setCause : List LogReq → Fin 8 → LeafRef → Nat → List LogReq
  | [], _, _, _ => []
  | q :: qs, n, r, cause =>
    if openMismatch n r q then { q with data := q.data.set 1 (BitVec.ofNat 8 cause) } :: qs else q :: setCause qs n r cause

/-- CONFIRMATION_READS (R115, R130): the two reads of the oldest leaf that waits end. A mismatch that Virund's own read found
uses that read as the first, and read2 is the further one. A digest that is not resident is requested. -/
def execConfirmationReads (lane : Fin 8) (read1 read2 : Bytes) (readFault : Bool) (s : State) : Out := whileServing lane s <|
  match (s.lane lane).confirms with
  | [] => .next s
  | c :: rest =>
    let x := classify (c.fault || readFault) (c.firstRead.getD read1) read2 ((s.lane lane).leafDigest? c.leaf)
    let ask := x.2 == .bad && ((s.lane lane).leafDigest? c.leaf).isNone
    if !s.leafReadable lane c.leaf then .next s
    else if ask && decide (leafPage c.leaf < (((s.lane lane).level1[c.leaf.region]?).map List.length).getD 0) then
      .next (s.modLane lane (requestPage c.leaf))
    else
      let s1 := (leafJobDone 0 lane .confirm s).modLane lane fun l =>
        { (if c.fresh then l.modLeaf c.leaf fun st => { st with flash := if st.flash = .good then .good else x.2 } else l) with
          confirms := rest }
      .next (if c.logged then s1.modLog fun g => { g with queue := setCause g.queue lane c.leaf x.1 } else s1)

/-! ### Claims (R139, R141, R203) -/

/-- Some leaf of the lane would be served as POISON under R133 (R202). -/
def State.leafPoisoned (s : State) (n : Fin 8) (r : LeafRef) : Bool :=
  match (s.lane n).manifest with
  | none => false
  | some m => (leafUnitList m r).any fun u =>
      verifiedClass (accessOf (s.lane n).ruleSet u) && (match s.sourceUnder (s.lane n).ruleSet n u with
        | .poison _ => true
        | _ => false)

def State.anyPoisoned (s : State) (n : Fin 8) : Bool :=
  match (s.lane n).manifest with
  | none => false
  | some m => (allLeaves m).any fun r => s.leafPoisoned n r

/-- The Reservoir's bank cannot carry the lane's active mode (R562). -/
def State.resAt33 (s : State) (x : Sel) (n : Fin 8) : Bool :=
  s.chuck.vsel[match x with
    | .a => (16 : Fin 22)
    | .b => 17] == .vsb && (fins 2).any fun k => octal (s.lane n).mode[k]

/-- CLAIM_EFFECT (R139, R141, R562): the claim takes effect, and the Reservoir flash is set to the lane's mode, or it is
refused where the flash or its bank cannot meet R142. A lane whose outcome rested on the claim then repairs instead
(R203). -/
def execClaimEffect (res : Sel) (capable : Bool) (s : State) : Out := whileRunning s <|
  match (s.res res).claim with
  | none => .next s
  | some c =>
    if c.inEffect then .next s
    else if capable && !s.resAt33 res c.lane then
      .next (setReservoir c.lane 0 res (s.modRes res fun r => { r with claim := some { c with inEffect := true } }))
    else
      let s1 := s.modRes res fun r => { r with claim := none, suspended := false }
      .next (if (s1.lane c.lane).outcome = some .verifiedReservoir ∧ s1.anyPoisoned c.lane then
          setOutcome c.lane .repairing 11 s1 else s1)

/-- CLAIM_RELEASE (R139, R273). -/
def execClaimRelease (res : Sel) (s : State) : Out := whileRunning s <|
  match (s.res res).claim with
  | none => .next s
  | some c => .next (if claimNeeded c.lane s then s else endClaim res s)

/-! ### Mirror fills (R135 to R137) -/

/-- A filled leaf has a verified mirror copy (R111, R135). -/
def mirrorFilled (n : Fin 8) (r : LeafRef) (b : Bytes) (s : State) : State :=
  (storeMirror n r b s).modLane n fun l =>
    { l.modLeaf r (fun st => { st with mirrorValid := true }) with
      fills := drop? l.fills fun x => x == r
      refill := l.refill && drop? l.fills (fun x => x == r) != [] }

/-- The leaf that the lane's mirror fills come to next: the first that can be filled now, in leaf order (R136, R144). -/
def State.nextFill (s : State) (n : Fin 8) : Option LeafRef :=
  ((((s.lane n).manifest.map allLeaves).getD []).find? fun r =>
    (s.lane n).fills.contains r && (if (s.lane n).leafBad r then (s.repairSource n r).isSome else s.leafReadable n r))

/-- MIRROR_FILL (R115, R135, R136): the next leaf is filled, from the guarded flash while the leaf is GOOD or UNVERIFIED, from a Reservoir while it is BAD or
ERROR. A flash read that mismatches is classified under R130, and the fill then reads a Reservoir. -/
def execMirrorFill (lane : Fin 8) (region : Fin 256) (leaf : Nat) (leafBytes : Bytes) (fromReservoir readFault : Bool)
    (s : State) : Out := whileServing lane s <|
  let r : LeafRef := ⟨region.val, leaf⟩
  let l := s.lane lane
  let bad := l.leafBad r
  match decide (s.nextFill lane = some r), l.leafDigest? r with
  | false, _ => .next s
  | true, none => .next (s.modLane lane (requestPage r))
  | true, some d =>
    if fromReservoir then
      (match bad, s.repairSource lane r with
      | true, some x =>
        let s1 := leafJobDone 0 lane (.mirror region leaf) s
        if leafDigest leafBytes = d ∧ !readFault then
          .next ((mirrorFilled lane r leafBytes s1).modLane lane fun l =>
            { l with pv := { l.pv with fillsFromReservoir := l.pv.active || l.pv.fillsFromReservoir } })
        else
          let s2 := reservoirMismatch lane r x 4 s1
          .next (if (s2.repairSource lane r).isSome then s2
            else s2.modLane lane fun l => { l with fills := drop? l.fills fun y => y == r })
      | _, _ => .next s)
    else if bad || !s.leafReadable lane r then .next s
    else
      let s1 := leafJobDone 0 lane (.mirror region leaf) s
      if leafDigest leafBytes = d ∧ !readFault then
        .next (mirrorFilled lane r leafBytes (s1.modLane lane (leafMatched r)))
      else .next (flashMismatch lane r 4 readFault (some leafBytes) s1)

/-! ### Automatic release (R134) -/

/-- A leaf is served from a source other than POISON on every unit that verification covers. -/
def State.leafServed (s : State) (n : Fin 8) (r : LeafRef) : Bool := !s.leafPoisoned n r

/-- MISMATCH is cleared; a host that nothing else holds is re-sequenced (R134, R242). -/
def releaseMismatch (h : Fin 16) (s : State) : State :=
  let s1 := (s.modHold h fun w => { w with mismatch := false }).modHost h fun x => { x with causes := [] }
  if (s1.host h).hold.any then s1 else resequence h s1

/-- HOLD_AUTO_RELEASE (R134): every leaf that caused the hold is served, and its lane's policy releases of itself. -/
def execHoldAutoRelease (host : Fin 16) (s : State) : Out := whileRunning s <|
  let x := s.host host
  if x.hold.mismatch ∧ x.causes.all (fun c => (s.lane c.1).verify.autoRelease && s.leafServed c.1 c.2) then
    .next (releaseMismatch host s)
  else .next s

/-! ### Scrubbing (R147 to R149) -/

/-- Slow ticks of a lane's SCRUB_PERIOD. -/
def Lane.scrubTicks (l : Lane) : Nat := l.verify.scrubPeriod * 60 * ticksPerSec

/-- The slow tick at which visit k of n of a period is due: the visits are evenly spread over the period (R147). -/
def Lane.scrubDue (l : Lane) (n k : Nat) : Nat := l.scrubStart + k * l.scrubTicks / n

/-- The leaf of visit k (R147, R149). -/
def Lane.scrubLeaf (l : Lane) (ls : List LeafRef) (k : Nat) : Option LeafRef := ls[(l.scrubFirst + k) % ls.length]?

/-- The visits that are due and skipped are passed (R148): a leaf that shadow hashing or a flash check has verified counts
as scrubbed; a leaf that is BAD or ERROR, or on a chip that is not in HOST, does not (assumption 57). The leaf that the
scrub reads next, where a visit is due. -/
def scrubPass (s : State) (n : Fin 8) (ls : List LeafRef) : Nat → Lane → Option LeafRef × Lane
  | 0, l => (none, l)
  | fuel + 1, l =>
    if ls.length ≤ l.scrubAt ∨ s.tick < l.scrubDue ls.length l.scrubAt then (none, l)
    else
      match l.scrubLeaf ls l.scrubAt with
      | none => (none, l)
      | some r =>
        if l.skipNext.contains r then
          scrubPass s n ls fuel
            (noteScrubbed r { l with scrubAt := l.scrubAt + 1, skipNext := drop? l.skipNext fun x => x == r })
        else if l.leafBad r || !s.leafReadable n r then scrubPass s n ls fuel { l with scrubAt := l.scrubAt + 1 }
        else (some r, l)

/-- A scrub period begins with the visit at a position of the leaves (R147, R149). -/
def scrubRestart (first tick : Nat) (l : Lane) : Lane :=
  { l with scrubFirst := first, scrubAt := 0, scrubStart := tick, scrubbed := [] }

/-- The first leaf of the visit that a period left unscrubbed, with its position; a leaf that stays BAD or ERROR is not one
(assumption 57). -/
def Lane.unscrubbed (l : Lane) (ls : List LeafRef) : Option (Nat × LeafRef) :=
  ((List.range ls.length).filterMap fun k =>
    (l.scrubLeaf ls k).map fun r => ((l.scrubFirst + k) % ls.length, r)).find? fun x =>
      !l.scrubbed.contains x.2 && !l.leafBad x.2

/-- SCRUB (R115, R147, R148): the leaf of the next visit that is due is read whole and compared; its page is requested where
it is not resident. Once a period has run out with every leaf scrubbed, the next one begins at the same leaf; with a leaf left,
SCRUB_OVERRUN comes first.
SCRUB_LEAVES counts every leaf read here (assumption 57). -/
def execScrub (lane : Fin 8) (leafBytes : Bytes) (readFault : Bool) (s : State) : Out := whileServing lane s <|
  match (s.lane lane).manifest with
  | none => .next s
  | some m =>
    let l := s.lane lane
    let ls := allLeaves m
    let over_ := decide (l.scrubStart + l.scrubTicks ≤ s.tick)
    if over_ && (l.unscrubbed ls).isSome then .next s
    else
      let l1 := if over_ then scrubRestart l.scrubFirst (l.scrubStart + l.scrubTicks) l else l
      let p := scrubPass s lane ls (ls.length + 1) l1
      let s1 := s.modLane lane fun _ => p.2
      (match p.1 with
      | none => .next s1
      | some r =>
        match (s1.lane lane).leafDigest? r with
        | none => .next (s1.modLane lane (requestPage r))
        | some d =>
          .next (judgeRead lane r 3 leafBytes readFault d (noteScrubbed r) (leafJobDone 4 lane .scrub (s1.modLane lane fun l =>
            { l with scrubAt := l.scrubAt + 1, counts := { l.counts with scrubLeaves := inc48 l.counts.scrubLeaves } }))))

/-- SCRUB_OVERRUN (R149): the period ends with a leaf not scrubbed, and the next one continues from that leaf. -/
def execScrubOverrun (lane : Fin 8) (s : State) : Out := whileRunning s <|
  match (s.lane lane).manifest with
  | none => .next s
  | some m =>
    let l := s.lane lane
    match l.unscrubbed (allLeaves m) with
    | none => .next s
    | some (i, r) =>
      if s.tick < l.scrubStart + l.scrubTicks then .next s
      else
        let v := inc48 l.counts.scrubOverruns
        .next (logNow 0x0022 (originLane lane)
          ([BitVec.ofNat 8 lane.val, 0, 0, 0] ++ leBytes 4 r.leaf ++ leBytes 4 v)
          (s.modLane lane fun l =>
            { scrubRestart i (l.scrubStart + l.scrubTicks) l with counts := { l.counts with scrubOverruns := v } }))

end Sys2Proof.Machine
end

