-- ==== Sys2Proof/Machine/Startup.lean ====
section
/-! DEFINITION. Firmware start: the configuration records, the tests, what a cut-off update leaves to do, the backup log
buffer, the release of the lanes and of Chuck's program, and FW_STARTED (R195, R196, R261, R268, R282, R283, R323, R355,
R361, R430, R434, R445, R448, R454, R468, R469, R475, R512, R513, R535, R559, R563). -/
namespace Sys2Proof.Machine
open Sys2Proof

/-! ### Configuration records (R283, R512, R513) -/

/-- The SCHEMA of the present firmware, its only one (R512). -/
def schemaCur : Nat := 1

/-- The record in use, none where the defaults apply (R283). -/
def State.record (s : State) (i : Fin 4) : Option Bytes :=
  match s.nvm.records[i] with
  | none => none
  | some r => if r.schema.toNat = schemaCur ∧ !s.stolik.keptUnused.contains i then some r.data else none

/-- A CONFIG_RECORD entry (R477): STATE 1 defaulted, 2 kept unused. -/
def logRecord (i : Fin 4) (schema : Half) (state : Nat) (s : State) : State :=
  logNow 0x0042 0x01 (leBytes 2 (i.val + 1) ++ leBytes 2 schema.toNat ++ [BitVec.ofNat 8 state]) s

/-- The level of a bank from its strap (R557, R559). -/
def State.bank (s : State) (k : Nat) : Strap := (s.chuck.vsel[k]?).getD .gnd

/-- A management bus's bank carries the protocol (R563). -/
def State.busCarries (s : State) (b : Fin 16) (i3c : Bool) : Bool :=
  match s.bank (18 + b.val / 4), i3c with
  | .vsb, true => false
  | .open_, false => false
  | _, _ => true

/-- The four bytes of a bus in a BUSES record. -/
def busWord (data : Bytes) (b : Fin 16) : Nat := u32 data (4 * b.val)

/-- A BUSES record keeps R512's encodings and R563 (I3C with SPEED 3 alone, the other protocols with 0 to 2). -/
def busesOk (s : State) (data : Bytes) : Bool :=
  data.length == 64 && (fins 16).all fun b =>
    let w := busWord data b
    bits w 1 0 != 3 && bits w 7 6 == 0 && bits w 31 15 == 0 && decide (bits w 5 3 ≤ 3)
      && (bit w 2 == (bits w 5 3 == 3)) && (bits w 1 0 == 0 || s.busCarries b (bit w 2))

/-- The strap address (R559). -/
def State.strapAddress (s : State) : Nat :=
  let d := fun (x : Strap) => (match x with
    | .gnd => 0
    | .vsb => 1
    | .open_ => 2)
  0x40 + 3 * d s.chuck.mbAddr[1] + d s.chuck.mbAddr[0]

/-- BUSES and LINKS records take effect (R513, R535, R559, R563). A bus whose bank cannot carry its default is
disabled. -/
def applyBuses (s : State) : State :=
  let bus := fun (b : Fin 16) (x : Bus) =>
    match s.record 2 with
    | some d =>
      let w := busWord d b
      let a := bits w 14 8
      { x with role := BitVec.ofNat 2 (bits w 1 0), i3c := bit w 2, speed := bits w 5 3
               address := if a = 0 then s.strapAddress else a }
    | none =>
      { x with role := if s.busCarries b false then 0b01 else 0b00, i3c := false, speed := 0, address := s.strapAddress }
  { s with buses := vmapI s.buses bus }

/-- A LINKS record's form (R535). -/
def linksOk (data : Bytes) : Bool :=
  let count := u8 data 5
  let base := u8 data 4
  data.length == 144 && bits (u16 data 0) 14 12 == 0 && decide (u8 data 2 < 16) && decide (u8 data 3 < 2)
    && (base == 0 || decide (0x10 ≤ base ∧ base ≤ 0xFE)) && decide (count ≤ 64) && decide (base + count ≤ 0xFF)
    && allZero (slice data 6 10) && (List.range 64).all fun i =>
      let v := u16 data (0x10 + 2 * i)
      decide (v < 4096) && (decide (i < count) || v == 0)

def applyLinks (s : State) : State :=
  match s.record 3 with
  | none => { s with node := 0, assigned := false, linkEn := 0xF, timeRoot := false, eidBase := 0, bridge := [] }
  | some d =>
    { s with
      node := BitVec.ofNat 12 (u16 d 0)
      assigned := bit (u16 d 0) 15
      linkEn := BitVec.ofNat 4 (u8 d 2)
      timeRoot := bit (u8 d 3) 0
      eidBase := BitVec.ofNat 8 (u8 d 4)
      bridge := (List.range (u8 d 5)).map fun i => BitVec.ofNat 12 (u16 d (0x10 + 2 * i)) }

/-- A configuration word of a WEIR record: the written sets joined with the floors, WIN_N and WIN_W at least 1, locked
(R434, R435, R436). -/
def weirCfgOf (s : Nat) (v : Nat) : WeirCfg :=
  { ceSet := BitVec.ofNat 5 (bits v 4 0)
    uccSet := BitVec.ofNat 5 (bits v 12 8) ||| weirFloor s .ucc
    fatalSet := BitVec.ofNat 5 (bits v 20 16) ||| weirFloor s .fatal
    lastingSet := BitVec.ofNat 5 (bits v 28 24)
    winN := max 1 (bits v 39 32)
    winW := max 1 (bits v 55 40)
    locked := true }

/-- A WEIR record's form (R434, R512). -/
def weirRecordOk (data : Bytes) : Bool :=
  data.length == 520 && allZero (slice data 0x202 6) && (List.range 64).all fun s =>
    let v := u64 data (8 * s)
    bits v 7 5 == 0 && bits v 15 13 == 0 && bits v 23 21 == 0 && bits v 31 29 == 0 && bits v 63 56 == 0

/-- A two's-complement 16-bit field. -/
def s16 (n : Nat) : Int := if n < 2 ^ 15 then n else (n : Int) - 2 ^ 16

/-- Firmware writes every configuration word once after a POR or CHIP reset (R434, R512, R591). -/
def applyWeir (s : State) : State :=
  let dflt : Int := if s.fuses.gradeE then 1150 else 900
  let cfg := fun (i : Fin 64) (c : WeirCfg) =>
    if c.locked then c
    else if i = 63 then { c with locked := true }
    else match s.record 0 with
      | some d => weirCfgOf i.val (u64 d (8 * i.val))
      | none => { c with locked := true }
  { s with
    weir := { s.weir with cfg := vmapI s.weir.cfg cfg }
    tempWarning := match s.record 0 with
      | some d => s16 (u16 d 0x200)
      | none => dflt }

/-- The kinds whose scope the record sets (R454). -/
def scopeConfigurable (k : Fin 12) : Bool := k.val != 2 && k.val != 8 && k.val != 9 && k.val != 11

/-- A LEVEE record's form (R455). -/
def leveeRecordOk (data : Bytes) : Bool :=
  data.length == 16 && allZero (slice data 4 12) && decide (1 ≤ u8 data 3 ∧ u8 data 3 ≤ 15)
    && (fins 12).all (fun k => scopeConfigurable k || !bit (u16 data 0) k.val) && bits (u16 data 0) 15 12 == 0

/-- Firmware sets the scopes and the enclosure word (R454, R456, R471). -/
def applyLevee (s : State) : State :=
  let d := s.record 1
  let mask := (d.map fun b => u16 b 0).getD 0
  let s1 := s.modLevee fun l =>
    { l with kinds := vmapI l.kinds fun k x =>
        if scopeConfigurable k && !x.scopeLocked then { x with scope := if bit mask k.val then 0b10 else 0b01, scopeLocked := true }
        else { x with scopeLocked := true } }
  s1.modBackup fun b =>
    { b with
      encEnable := BitVec.ofNat 8 ((d.map fun x => u8 x 2).getD 0)
      encDebounce := BitVec.ofNat 4 ((d.map fun x => u8 x 3).getD 2) }

/-- A record's form by its number. -/
def recordOk (s : State) (i : Fin 4) (data : Bytes) : Bool :=
  match i with
  | 0 => weirRecordOk data
  | 1 => leveeRecordOk data
  | 2 => busesOk s data
  | 3 => linksOk data

/-- Records are read: one below SCHEMA_MIN gives way to the defaults, one above SCHEMA_CUR or a BUSES record that breaks
R563 is kept unused (R283, R563). -/
def readRecords (s : State) : State :=
  (fins 4).foldl (fun s i =>
    match s.nvm.records[i] with
    | none => s
    | some r =>
      if r.schema.toNat < schemaCur then
        logRecord i r.schema 1 ((s.modNvm fun v => { v with records := vmod v.records i fun _ => none }).modStolik fun k =>
          { k with defaulted := if k.defaulted.contains i then k.defaulted else k.defaulted ++ [i] })
      else if schemaCur < r.schema.toNat ∨ (i = 2 ∧ !busesOk s r.data) then
        logRecord i r.schema 2 (s.modStolik fun k => { k with keptUnused := k.keptUnused ++ [i] })
      else s) (s.modStolik fun k => { k with keptUnused := [] })

/-! ### The log at firmware start (R445, R448, R468, R469, R475) -/

/-- A WEIR_RECORD entry (R429, R477). -/
def logErrRecord (r : ErrRecord) (s : State) : State :=
  logAt r.time.toNat 0x0001 0x01
    ([BitVec.ofNat 8 r.source.val, BitVec.ofNat 8 r.cls.toNat, BitVec.ofNat 8 r.reactions.toNat,
      BitVec.ofNat 8 (b2n r.overflow + 2 * b2n r.lasting + 4 * b2n r.injected)] ++ leBytes 8 r.syndrome.toNat) s

/-- The collector test (R445): one masked UCC on each source 0 to 62 with CODE 0x0080. The test counts and the injected
status word are cleared afterwards, and a record that held the first injection alone is logged and cleared (R429,
R443). -/
def collectorTest (s : State) : State :=
  let s1 := s.modWeir fun w =>
    { w with injected := 0, st := vmap w.st fun x => { x with testCount := 0, testLasting := false } }
  if s.weir.record.valid then s1
  else
    logErrRecord { ErrRecord.empty with
      source := 0, cls := 2, valid := true, injected := true
      lasting := (weirTestCount s.tick32 s.weir.cfg[(0 : Fin 64)] s.weir.st[(0 : Fin 64)]).testLasting
      syndrome := syndrome 0x0080 0xFFFF 0, time := BitVec.ofNat 64 s.time } s1

/-- A write that power cut off is logged as lost (R475): ANCHOR_NUMBER is then head − 65,536, and the write was of the entry that
the head would have become (DEDUCED, log 63). -/
def findHead (s : State) : State :=
  let l := s.nvm.log
  let torn := l.writing.isNone && l.anchor.any fun a => a.1 + logSlots == l.count
  if torn then logNow 0x00F1 0x01 (leBytes 8 l.count) s else s

/-- The Levee alarm record is logged, with the time of its first alarm (R457, R477). -/
def logAlarm (s : State) : State :=
  let a := s.levee.alarm
  if !a.valid then s
  else logAt a.time.toNat 0x0010 0x01 (leBytes 2 a.kinds.toNat ++ leBytes 2 a.d1Fired.toNat ++ leBytes 2 a.d2Fired.toNat
    ++ [BitVec.ofNat 8 a.scope.toNat, 0, a.encPairs, 0] ++ leBytes 2 a.meshTraces.toNat) s

/-- RESET_CAUSE and SAFE_RECORD are logged, the latter once (R448). -/
def logCauses (s : State) : State :=
  let entry := fun (type trigger : Nat) (r : ErrRecord) (s : State) =>
    logNow type 0x01 ([BitVec.ofNat 8 trigger, BitVec.ofNat 8 r.source.val, BitVec.ofNat 8 r.cls.toNat, 0]
      ++ leBytes 8 r.syndrome.toNat) s
  let s1 := if s.weir.cause = 0 then s else entry 0x0003 s.weir.cause.toNat s.weir.causeRecord s
  if s1.nvm.safeTrigger = 0 then s1
  else (entry 0x0004 s1.nvm.safeTrigger.toNat s1.nvm.safeRecord s1).modNvm fun v => { v with safeTrigger := 0 }

/-- Bytes +0x08 to +0x11 of a backup log entry (R465). -/
def backupEntryData (e : BackupEntry) : Bytes :=
  [BitVec.ofNat 8 e.kind.val, BitVec.ofNat 8 e.detectors.toNat] ++ leBytes 2 e.repeats ++ leBytes 4 e.detail.toNat
    ++ leBytes 2 e.vbakMv.toNat

/-- The backup log buffer moves into the ring log (R469). -/
def moveBackup (s : State) : State :=
  let drop := fun (n : Nat) (s : State) => logNow 0x00F0 0x01 ([0x22, 0, 0, 0] ++ leBytes 4 n) s
  let s1 := s.backup.buffer.foldl (fun s e =>
    if e.checkOk then logAt e.time.toNat 0x0011 0x01 (backupEntryData e) s else drop 1 s) s
  let s2 := if s1.backup.lost = 0 then s1 else drop s1.backup.lost s1
  s2.modBackup fun b => { b with buffer := [], lost := 0 }

/-- A new backup key after a loss of continuity (R468): cause 0 for a zero key, 1 for a mismatch. -/
def renewKey (s : State) : State :=
  if !s.backup.continuityLost then s
  else
    let zero := allZero s.backup.key
    let d := drawBytes 32 s
    logNow 0x0012 0x01 [if zero then 0 else 1]
      ((d.2.modBackup fun b => { b with key := d.1 }).modNvm fun v => { v with bkCheck := hH (0x06 :: d.1) })

/-! ### What an interrupted update leaves to do (R279, R282) -/

/-- A window at a firmware start (R282): a landing or prestage is undone, a flip is finished, a follow is repeated. -/
def resumeWindow (n w : Fin 8) (s : State) : State :=
  let e := s.win n w
  let note := fun (phase : Nat) (s : State) =>
    logNow 0x0040 0x01 ([windowCode n w, BitVec.ofNat 8 phase] ++ leBytes 2 (resCode .done)
      ++ leBytes 8 (manifestIdOf (s.activeManifest n))) s
  match e.phase with
  | .flipped =>
    let c := (((s.activeManifest n).bind readHostManifest).map (·.1.counter)).getD 0
    note 3 ((raiseCounter c s).modWin n w fun x => { x with phase := .following })
  | .following => note 4 s
  | _ => cutWindow n w s

/-- A component copy in WRITING becomes EMPTY (R282). -/
def emptyCopies (s : State) : State :=
  (fins 4).foldl (fun s c =>
    let e := s.nvm.commit.comps[c]
    if e.stateA = .writing ∨ e.stateB = .writing then
      logNow 0x0040 0x01 ([BitVec.ofNat 8 (c.val + 1), 0] ++ leBytes 2 (resCode .aborted))
        (s.modCommit fun k =>
          { k with
            seq := k.seq + 1
            comps := vmod k.comps c fun e =>
              { e with
                stateA := if e.stateA = .writing then .empty else e.stateA
                stateB := if e.stateB = .writing then .empty else e.stateB } })
    else s) s

/-- FW_STARTED (R186, R196, R261, R268): the attempt count returns to zero and the counters of RAISE_PENDING are
raised. -/
def fwStarted (s : State) : State :=
  let pend := s.nvm.commit.raisePending
  let s1 := s.modCommit fun k => { k with fwStarted := true, attempts := 0, raisePending := 0, seq := k.seq + 1 }
  (fins 4).foldl (fun s c => if pend.getLsbD c.val then raiseCounter c.val s else s) s1

/-! ### Engines (R361, R362, R384) -/

/-- The known-answer tests of step 1 of R195, of which the named engines fail; the number of the failed test is a free
value. Tests before the next firmware start find the same engines (assumption 58). -/
def startTests (failing : List Engine) (s : State) : State :=
  let s1 := { s.modConf (fun c => { c with lastKat := Vector.replicate 24 s.tick }) with
    defects := { s.defects with engines := failing } }
  failing.foldl (fun s e =>
    let d := drawNat s
    weirEvents [katEvent e d.1] d.2) s1

/-! ### Lanes and Chuck's program (R195 steps 3 to 5) -/

/-- The stored policy's configuration record is the lane's while it may verify: in OWNED, and past the checks that R178
repeats (R107, R195). -/
def State.storedLaneCfg (s : State) (n : Fin 8) : Option LanePolicy :=
  if s.lc ≠ .owned then none
  else
    match (s.nvm.lanePolicy[n]).bind readLanePolicy with
    | none => none
    | some (p, _, blks) =>
      if (recheckBlks s blks).isNone ∧ s.counter p.counter ≤ p.secVersion ∧ laneCfgOk p.cfg then some p else none

/-- The default configuration of R107: no rule, no window, no synthesised image (R59), DENY_ALL for want of a policy. The
mirror extents of the rules are released (R601). The host manifest stays as it is. -/
def underDefault (n : Fin 8) (s : State) : State :=
  freeMirrors n [] (s.modLane n fun l =>
    { l with
      cfg := .default
      rules := [], hits := [], remap := Vector.replicate 8 .unused
      denyNoPolicy := true
      sfdp := false
      leaves := l.leaves.map fun x => x.map fun y => { y with mirrorValid := false }
      fills := [] })

/-- A running lane whose stored policy has been removed, or no longer verifies, works under the default configuration until
a policy is swapped in (R105, R107). -/
def lapseLane (n : Fin 8) (s : State) : State :=
  if (s.lane n).denyNoPolicy || s.mode != .firmware || (s.storedLaneCfg n).isSome then s else underDefault n s

def lapseLanes (s : State) : State := (fins 8).foldl (fun s n => lapseLane n s) s

/-- The Spindle of a lane is released (R195, R208): a lane that has completed keeps its outcome, every other enabled
lane begins platform verification. -/
def releaseSpindle (warm : Bool) (n : Fin 8) (s : State) : State :=
  let done := warm && s.laneCompleted n
  let s1 := if done then s else s.modLane n fun l =>
    { l with
      cfg := ((s.storedLaneCfg n).map (·.cfg)).getD .default
      denyNoPolicy := (s.storedLaneCfg n).isNone }
  let l := s1.lane n
  if done || !l.cfg.enable then s1 else startVerification n s1

/-- Every port of a released Spindle is served (R71, R397), and the frames that wait are taken. -/
def serveLanes (s : State) : State :=
  let s1 := s.modLanes fun _ l => { l with mb := { l.mb with paused := !(l.cfg.enable || l.cfg.mailbox) } }
  (fins 8).foldl (fun s n => takeFrames n ((s.lane n).mb.inBuf.length + 2) s) s1

/-- Step 5 of R195 (R244, R245): HARD held for a start-up clears; the program starts at once after a POR, after
OFF_TIME where a safe state, a Levee alarm or Headwater had taken the platform down, for a START input that woke Virund
from DEEP (R216), and otherwise resumes. -/
def startProgram (s : State) : State :=
  let por := s.chuck.hardBy.contains (.startUp true)
  let other := s.chuck.hardBy.contains (.startUp false)
  let s1 := clearHardCause (.startUp false) (clearHardCause (.startUp true) s)
  if other then
    s1.modChuck fun c =>
      { c with main := match c.main with
          | .down outs _ => .down outs true
          | _ => .offTime }
  else if por then (if s1.chuck.hardBy = [] then programStart s1 else s1)
  else if s1.chuck.startWanted then
    let s2 := s1.modChuck fun c => { c with startWanted := false }
    if s2.platformOff && s2.startable then programStart s2 else s2
  else s1

/-- The stored admission policy, where the checks of R178 still pass. -/
def storedAdmission (s : State) : Option AdmPolicy :=
  match s.nvm.admission.bind readAdmission with
  | none => none
  | some (p, blks) =>
    if s.lc = .owned ∧ (recheckBlks s blks).isNone ∧ s.counter p.counter ≤ p.secVersion ∧ admissionOk s p then some p
    else none

/-- The device time of a slot's first attestation after a firmware start or a policy swap (R317). -/
def firstAttest (now period i : Nat) : Nat := now + i * period * nsPerSec / 1024

/-- At firmware start every present slot is attested again, in the schedule of R317 (R306). Claims in flight are gone and
are made again; attestations in flight start again after an activation pause (R305). -/
def restartSlots (s : State) : State :=
  let a := storedAdmission s
  { s with
    adm := a
    nvm := { s.nvm with slots := vmapI s.nvm.slots fun i x =>
      { x with
        phase := if s.planned then x.phase else .idle
        claimOut := false
        claimTries := 0
        claimAt := s.time
        op := none
        nextAttest := match a with
          | none => x.nextAttest
          | some p => firstAttest s.time p.reattest i.val } } }

/-- The Levee pending flag clears once every enabled lane has completed and the pending entries have moved (R187). -/
def clearPending (s : State) : State :=
  let lanesDone := (fins 8).all fun n => !(s.lane n).cfg.enable || s.laneCompleted n
  if s.mode = .firmware ∧ lanesDone ∧ s.backup.buffer = [] ∧ !(s.nvm.log.waiting.any fun q => q.type == 0x0011) then
    s.modBackup fun b => { b with pending := false }
  else s

/-- Step 1 of R195 before the tests. -/
def firmwareReads (warm : Bool) (s : State) : State :=
  let s1 := applyLinks (readRecords s)
  let s2 := if warm then s1 else logCauses (applyLevee (applyWeir s1))
  let s3 := renewKey (moveBackup (collectorTest (logAlarm (findHead s2))))
  let k := drawBytes 96 s3
  k.2.modKeys fun x => { x with kSeal := some k.1, sealSerial := 0 }

/-- VALID of the alarm record is cleared (R457, R460). -/
def clearAlarm (s : State) : State := s.modLevee fun l => { l with alarm := .empty }

/-- The alerts of a firmware start: after a CHIP reset, and for a recorded Levee alarm (R551), whose record is cleared
(R457). -/
def startAlerts (warm : Bool) (s : State) : State :=
  let s1 := if warm ∨ s.weir.cause = 0 then s else sendAlert 1 s.weir.cause.toNat s
  if !s1.levee.alarm.valid then s1
  else match (fins 12).find? fun k => s1.levee.alarm.kinds.getLsbD k.val with
    | none => clearAlarm s1
    | some k => clearAlarm (sendAlert 3 k.val s1)

/-- FIRMWARE_START (R195): failing names the engines whose tests fail; reachesStarted tells whether firmware gets to
writing FW_STARTED, without which the start watchdog acts (R196). A restart for a component activation stays paused until
the pause ends (R268). -/
def execFirmwareStart (failing : List Engine) (reachesStarted : Bool) (s : State) : Out :=
  if s.mode ≠ .rom then .next s
  else
    let warm := s.warm
    let s0 := { s with mode := .firmware, warm := false, t1 := s.time
                       stolik := { s.stolik with bootCount := s.stolik.bootCount + 1, opSeq := 0 } }
    let s1 := startTests failing (firmwareReads warm s0)
    if s1.mode ≠ .firmware then .next s1
    else
      let s2 := emptyCopies ((fins 8).foldl (fun s n => (fins 8).foldl (fun s w => resumeWindow n w s) s) s1)
      let s3 := (fins 8).foldl (fun s n => releaseSpindle warm n s) s2
      let s4 := startAlerts warm (restartSlots (trimBanks (applyBuses s3)))
      let s5 := startProgram s4
      let s6 := if reachesStarted then fwStarted s5 else s5
      let s7 := publishSnap s6
      .next (if s7.planned then { s7 with mode := .paused } else clearPending (serveLanes s7))

/-- ACTIVATION_PAUSE_END (R268): SERVICE_PAUSED is cleared and service resumes. -/
def execActivationPauseEnd (s : State) : Out :=
  if s.mode = .paused ∧ s.nvm.commit.fwStarted then
    .next (restartAttests (fun _ => true) (clearPending (serveLanes { s with mode := .firmware, planned := false })))
  else .next s

/-- START_WATCHDOG (R196): FW_STARTED has not been written within 2 s of t1. -/
def execStartWatchdog (s : State) : Out :=
  if (s.mode = .firmware ∨ s.mode = .paused) ∧ !s.nvm.commit.fwStarted ∧ s.t1 + 2 * nsPerSec ≤ s.time then
    .next (chipReset .startWatchdog s)
  else .next s

/-- A set that runs without the ROM extension after its overrun: the START entry is written again. -/
def startWithout (t : Nat) (restored : Bool) (s : State) : State :=
  let pick := tryPick s t
  let s1 := { s with running := Vector.ofFn fun c => if c = 0 then false else pick c }
  deriveIdentity (logStart true (unusableMask s1)
    (s1.modCommit fun k => { k with selectedTry := if restored then 4 else t, seq := k.seq + 1 }))

/-- ROMEXT_OVERRUN (R188): the ROM extension that ran at this start counts as unusable. The selected set stays where it
is compatible without it; otherwise the tries and the restore that the attempt count allowed are made again (R186), and
Headwater follows where none succeeds. The START entry is written again with the overrun. -/
def execRomextOverrun (s : State) : Out :=
  if s.mode ≠ .rom ∨ s.warm ∨ !s.romextRan then .next s
  else
    let s1 := ({ s with romextRan := false }).modCommit fun k => { k with romextOverrun := true, seq := k.seq + 1 }
    let n := s1.nvm.commit.attempts - 1
    let was := s1.nvm.commit.selectedTry = 4
    if setOk s1 false (fun c => s1.running[c]) then .next (deriveIdentity (logStart true (unusableMask s1) s1))
    else
      match firstTry s1 false (triesAllowed n) with
      | some t => .next (startWithout t was s1)
      | none =>
        let r := if n ≤ 5 ∧ !was then restoreSet (some 0) s1 else (s1, false)
        if r.1.mode = .fault then .next r.1
        else match r.2, firstTry r.1 false (triesAllowed n) with
          | true, some t => .next (startWithout t true r.1)
          | _, _ => .next (enterHeadwater 1 (logStart true (unusableMask r.1)
              (r.1.modCommit fun k => { k with selectedTry := 0, seq := k.seq + 1 })))

/-- POR (R182, R503, R504): start-up from the first step. In BACKUP and before VSB has come it is the end of that
state. The backup marker is written, and RST_IN_N low holds Virund before the ROM (R505). -/
def execPor (vsel : Vector Strap 22) (mbAddr : Vector Strap 2) (pullMaster : Strap) (s : State) : Out :=
  let s1 := porAssert vsel mbAddr pullMaster s
  let s2 := if s.backup.marker = bootMarker then s1
    else { s1 with
      backup := { Backup.reset with marker := bootMarker }
      levee := { s1.levee with kinds := vmap s1.levee.kinds fun k => { k with alarms := 0, disagrees := 0 } } }
  if s2.chuck.rstLow then .next s2 else .next (romRun s2)

end Sys2Proof.Machine
end

