-- ==== Sys2Proof/Machine/PlatformVerify.lean ====
section
/-! DEFINITION. Platform verification of a lane and the repair of its leaves (R198 to R207, R275, R276). -/
namespace Sys2Proof.Machine
open Sys2Proof

/-! ### Step 2: acceptance (R198, R207) -/

/-- The stored active manifest, accepted for the lane's span; its bytes and its fields. -/
def storedManifest (s : State) (n : Fin 8) : Option (Bytes × HostManifest) :=
  match s.activeManifest n with
  | none => none
  | some b => match acceptManifest s n b none with
    | .ok m => some (b, m)
    | .error _ => none

/-- The accepted copy that a Reservoir directory records for the lane (third row of R207). -/
def reservoirManifest (s : State) (n : Fin 8) : Option (Bytes × HostManifest) :=
  ([Sel.a, Sel.b].filterMap fun x =>
    let r := s.res x
    if !r.present || r.held then none
    else
      match r.laneEntry n with
      | none => none
      | some e =>
        if e.state ≠ .complete then none
        else match acceptManifest s n e.manifest none with
          | .ok m => some (e.manifest, m)
          | .error _ => none).head?

/-- The manifest that acceptance makes active, with whether it came from a Reservoir directory, which rewrites it into
the policy store (R207). -/
def manifestForStart (s : State) (n : Fin 8) : Option (Bytes × HostManifest × Bool) :=
  match storedManifest s n with
  | some x => some (x.1, x.2, false)
  | none => (reservoirManifest s n).map fun x => (x.1, x.2, true)

/-- The case that decides, by the first row of R207 that applies: a manifest taken from a Reservoir directory, a takeover
during the verification, a lost engine, an unproved region, else the row given. -/
def decidingRow (l : Lane) (k : Nat) : Nat :=
  if l.pv.caseRow = 3 then 3
  else if l.pv.tookOver then 4
  else if l.denyEngine then 5
  else if l.pv.unproved then 6
  else k

/-- The lane's verification ends FAILED: it keeps its cause of DENY_ALL, and the provisional rule set is given up. -/
def verifyFailed (n : Fin 8) (caseRow : Nat) (s : State) : State :=
  setOutcome n .failed caseRow (s.modLane n fun l => { l with pv := { l.pv with active := false, rules := none } })

/-- The provisional contents of mirror memory and the leaf states are discarded (R198). -/
def discardContents (n : Fin 8) (s : State) : State :=
  settleCache ((freeMirrors n [] s).modLane n fun l =>
    { l with manifest := none, leaves := [], digests := [], level1 := [], fills := [], pageReqs := [] })

/-- They are discarded, and the lane works under the default configuration (R107, R198). -/
def discardProvisional (n : Fin 8) (s : State) : State := discardContents n (underDefault n s)

/-- The accepted policy and manifest are the lane's, every leaf UNVERIFIED, with the extents of its mirrored leaves
(R110, R198, R601). The rule set is in use provisionally until step 6 swaps it in. After a wake from RETAIN the leaves
with a valid mirror copy stay (R220). -/
def takeAccepted (n : Fin 8) (p : LanePolicy) (m : HostManifest) (s : State) : State :=
  let keep := (s.lane n).pv.keepMirrored && replacedRegions (s.lane n).manifest m == []
  let s1 := s.modLane n fun l =>
    { l with
      cfg := p.cfg, verify := p.verify, remap := p.remap
      manifest := some m
      leaves := if keep then l.leaves.map fun x => x.map fun y => if y.mirrorValid then y else .fresh else freshLeaves m
      digests := if keep then l.digests else m.regions.map fun g => List.replicate g.leafCount none
      level1 := if keep then l.level1 else m.regions.map fun _ => []
      pv := { l.pv with keepMirrored := keep, rules := some p.rules }
      trackers := Vector.replicate 64 .free
      flashChecks := [], confirms := [], fills := [], pageReqs := []
      scrubbed := [], scrubAt := 0, scrubFirst := 0, skipNext := [] }
  (mirroredLeaves p.rules m).foldl (fun s r => allocMirror n m s r)
    (settleDemand (powerBanks (if keep then s1 else freeMirrors n [] s1)))

/-- The lane's flash-side bank is at 3.3 V (R557, R562). -/
def State.flashAt33 (s : State) (n : Fin 8) : Bool := s.bank (8 + n.val) == .vsb

/-- The acceptances of a start proceed in ascending order of the lanes, in which the mirror extents are allocated
(R601). -/
def State.acceptanceWaits (s : State) (n : Fin 8) : Bool :=
  (fins 8).any fun k => decide (k < n) && (s.lane k).pv.active && !(s.lane k).pv.accepted

/-- PLATFORM_VERIFY_ACCEPTANCE (R59, R197, R198 steps 1 and 2, R207): the Spindle has read the flashes' SFDP, from which
the synthesised images are built and the verification modes chosen; then the first three rows of R207 in the order R207
gives. -/
def execPlatformVerifyAcceptance (lane : Fin 8) (chipAbsent0 chipAbsent1 : Bool) (flash0 flash1 : FlashTables) (s : State) :
    Out :=
  let pv := (s.lane lane).pv
  if !s.spindleServes lane || !pv.active || pv.accepted || s.acceptanceWaits lane then .next s
  else
    let modes := Vector.ofFn fun f : Fin 2 => verifyMode (if f = 0 then flash0.sfdp else flash1.sfdp) (s.flashAt33 lane)
    let s1 := s.modLane lane fun l =>
      { l with
        pv := { l.pv with modes := modes }
        chipAbsent := Vector.ofFn fun f : Fin 2 => if f = 0 then chipAbsent0 else chipAbsent1
        flash := Vector.ofFn fun f : Fin 2 => if f = 0 then flash0 else flash1
        sfdp := true }
    if s1.lc ≠ .owned then .next (verifyFailed lane 1 (discardProvisional lane s1))
    else
      let s1 := openRes .b (openRes .a s1)
      let found := manifestForStart s1 lane
      let s2 := match found with
        | some (b, _, true) => storeManifest lane true b s1
        | _ => s1
      match s2.nvm.lanePolicy[lane] with
      | none => .next (verifyFailed lane 2 (discardProvisional lane s2))
      | some b =>
        match acceptPolicy s2 lane b (found.map fun x => x.2.1), found with
        | .error _, _ => .next (verifyFailed lane 2 (discardProvisional lane s2))
        | .ok _, none =>
          .next (verifyFailed lane 3 (discardContents lane s2))
        | .ok p, some (_, m, fromRes) =>
          let s3 := takeAccepted lane p m s2
          .next (s3.modLane lane fun l =>
            { l with pv := { l.pv with accepted := true, done := [], caseRow := if fromRes then 3 else 0 } })

/-! ### Step 5: a region's root (R198, R200) -/

/-- The leaf digests of a region's bytes. -/
def digestsOf (g : Region) (b : Bytes) : List Bytes := (chunksOf (g.leafUnits * unitBytes) b).map leafDigest

/-- A set of leaf digests proves (R200). -/
def provesRoot (g : Region) (ds : List Bytes) : Bool := ds.length == g.leafCount && treeRoot ds == g.root

/-- The first source of R200 that proves. -/
def provedSource (s : State) (m : HostManifest) (region : Nat) (g : Region) (e : RegionEnv) : Option (List Bytes) :=
  let on := fun (x : Sel) (ds : List Bytes) => if (s.res x).present && !(s.res x).held then [ds] else []
  (on .a (regionDigests m region e.fileA) ++ on .b (regionDigests m region e.fileB) ++ on .a (digestsOf g e.shadowA) ++ on .b (digestsOf g e.shadowB)).find? (provesRoot g)

/-- Some unit of the leaf lies on a chip select that does not answer (R207). -/
def State.leafAbsent (s : State) (n : Fin 8) (r : LeafRef) : Bool :=
  (s.leafChips n r).any fun f => (s.lane n).chipAbsent[f]

/-- The bytes of a leaf within its region. -/
def leafBytesOf (g : Region) (i : Nat) (b : Bytes) : Bytes := slice b (i * (g.leafUnits * unitBytes)) (g.leafUnits * unitBytes)

/-- A leaf that verified, with its mirror copy where its region mirrors it (R198, R199). -/
def leafProved (n : Fin 8) (r : LeafRef) (b : Bytes) (s : State) : State :=
  let s1 := s.modLane n fun l => l.modLeaf r fun st => { st with flash := .good }
  if (s1.lane n).leafMirrored r then mirrorFilled n r b s1 else s1

/-- A mirrored leaf that is BAD or ERROR waits for its fill from a Reservoir (R200, R135). -/
def queueFill (r : LeafRef) (l : Lane) : Lane :=
  if l.leafMirrored r && !l.fills.contains r then { l with fills := l.fills ++ [r] } else l

/-- A leaf that did not verify becomes BAD or ERROR (R130, R200). Claims are requested at once (R203); the rule's hold
applies to a lane that has already been released. -/
def leafFailed (n : Fin 8) (r : LeafRef) (st : FlashState) (s : State) : State :=
  let s1 := s.modLane n fun l => queueFill r (l.modLeaf r fun x => { x with flash := st })
  if (s1.lane n).pv.active then (if (s1.lane n).leafNeeds r then requestClaim n r.region s1 else s1)
  else if ((s1.lane n).leafState r).mirrorValid then s1 else takeAction n r s1

/-- A leaf that verification neither reads nor changes (R220). -/
def leafKept (l : Lane) (r : LeafRef) : Bool := l.pv.keepMirrored && (l.leafState r).mirrorValid

/-- One leaf of a region whose root differed, against its proved digest (R130, R200). A leaf on a chip that does not answer
counts in no MISMATCHES (assumption 57). -/
def judgeLeaf (n : Fin 8) (g : Region) (e : RegionEnv) (s : State) (x : Bytes × LeafRef) : State :=
  let r := x.2
  let b := leafBytesOf g r.leaf e.image
  if leafKept (s.lane n) r then s
  else if s.leafAbsent n r then leafFailed n r .error s
  else if leafDigest b = x.1 ∧ !e.faultLeaves.contains r.leaf then leafProved n r b s
  else
    let c := classify (e.faultLeaves.contains r.leaf) b (leafBytesOf g r.leaf e.secondRead) (some x.1)
    let s1 := s.modLane n fun l => l.count fun k => { k with mismatches := inc48 k.mismatches }
    leafFailed n r c.2 (logLeaf n c.1 r 5 none s1)

/-- The leaves of a region. -/
def regionLeaves (region : Nat) (g : Region) : List LeafRef := (List.range g.leafCount).map fun i => ⟨region, i⟩

/-- The resident digests of a region, where every page is resident (R113). -/
def residentDigests (l : Lane) (region : Nat) : Option (List Bytes) := (l.digests[region]?).bind fun x => x.mapM id

/-- A region's root is compared, and R200 applied where it differs. Leaves that are kept count with their proved
digests (R220). Leaves of a region that no source proves count in no MISMATCHES (assumption 57). -/
def compareRegion (n : Fin 8) (m : HostManifest) (region : Nat) (g : Region) (e : RegionEnv) (s : State) : State :=
  let l := s.lane n
  let ls := regionLeaves region g
  let ds := ((digestsOf g e.image).zip ls).map fun x => if leafKept l x.2 then (l.leafDigest? x.2).getD x.1 else x.1
  let absent := ls.any fun r => s.leafAbsent n r && !leafKept l r
  if provesRoot g ds && !absent && e.faultLeaves = [] then
    let s1 := setDigests n region ds (levelAbove ds) s
    ls.foldl (fun s r => if leafKept l r then s else leafProved n r (leafBytesOf g r.leaf e.image) s) s1
  else
    let resident := if l.pv.keepMirrored then ((residentDigests l region).filter (provesRoot g)) else none
    match resident.or (provedSource s m region g e) with
    | some pd =>
      let s1 := setDigests n region pd (levelAbove pd) s
      (pd.zip ls).foldl (judgeLeaf n g e) s1
    | none =>
      let s1 := ls.foldl (fun s r => if leafKept l r then s else leafFailed n r .bad s) s
      s1.modLane n fun l =>
        { l with
          fills := drop? l.fills fun r => r.region == region
          pv := { l.pv with unproved := l.pv.unproved || l.pv.active } }

/-- REGION_ROOT_COMPARE (R198 step 5, R200), in platform verification or for a region of a manifest that has replaced
another (R156, R409). -/
def execRegionRootCompare (lane : Fin 8) (region : Fin 256) (e0 : RegionEnv) (s : State) : Out :=
  let l := s.lane lane
  let e := { e0 with faultLeaves := e0.faultLeaves ++ (l.pv.unread.filter fun r => r.region == region.val).map (·.leaf) }
  let noted := fun (l : Lane) => { l with pv := { l.pv with unread := drop? l.pv.unread fun r => r.region == region.val } }
  match l.manifest, (l.manifest.bind fun m => m.regions[region.val]?) with
  | some m, some g =>
    if !s.spindleServes lane then .next s
    else if l.pv.active then
      if !l.pv.accepted || l.pv.done.contains region.val then .next s
      else
        let s1 := compareRegion lane m region.val g e (jobDone 1 s)
        .next (s1.modLane lane fun l => noted { l with pv := { l.pv with done := l.pv.done ++ [region.val] } })
    else if l.proving.contains region.val then
      let s1 := (compareRegion lane m region.val g e (jobDone 1 s)).modLane lane fun l =>
        noted { l with proving := drop? l.proving fun x => x == region.val }
      if (s1.lane lane).proving = [] then
        .next (publishSnap (endOp? (s1.lane lane).provingOp .done 0 (s1.modLane lane fun l => { l with provingOp := none })))
      else .next s1
    else .next s
  | _, _ => .next s

/-! ### Step 6: the outcome (R202, R207) -/

/-- A claim counts for the outcome once its port has been granted; the claim is in effect within µs (R139, R203). -/
def claimsInEffect (s : State) : State :=
  let f := fun (r : Reservoir) => { r with claim := r.claim.map fun c => { c with inEffect := true } }
  { s with resA := f s.resA, resB := f s.resB }

/-- The outcome of a lane by the first row of R202, and the row of R207 that it is recorded under (0 where none
applies). Where a row of R207 names an outcome that an earlier row of R202 excludes, R202 decides (assumption 57). -/
def verifyOutcome (s0 : State) (n : Fin 8) : Outcome5 × Nat :=
  let s := claimsInEffect s0
  let l := s.lane n
  let ls := (l.manifest.map allLeaves).getD []
  let bad := ls.filter l.leafBad
  let absent := ls.filter fun r => s.leafAbsent n r
  let row := decidingRow l
  if l.denyEngine then (.failed, row 5)
  else if l.pv.unproved then (.failed, row 6)
  else if absent.any fun r => s.leafPoisoned n r || l.leafAction r == .log && !l.leafMirrored r then (.failed, row 8)
  else if ls.any fun r => s.leafPoisoned n r then (.repairing, row 11)
  else if bad.any fun r => l.leafAction r == .log then (.verifiedLogged, row 10)
  else if absent ≠ [] then (.verifiedReservoir, row 8)
  else if bad.any fun r => redirects (l.leafAction r) && !l.leafMirrored r then (.verifiedReservoir, row 9)
  else if l.pv.fillsFromReservoir then (.verifiedReservoir, row 12)
  else (.verified, row 0)

/-- Step 6 of R198: the accepted rule set is swapped in, and the lane leaves DENY_ALL for the causes that its verification
answers (R97, R99, R105). The first scrub period begins here (assumption 57). -/
def endVerification (s : State) (l : Lane) : Lane :=
  { scrubRestart 0 s.tick l with
    rules := l.ruleSet
    prevHits := l.hits
    hits := List.replicate l.ruleSet.length 0
    denyLog := []
    denyReset := false
    denyNoPolicy := false
    sfdp := true
    tableBad := false
    pv := { l.pv with active := false, rules := none } }

/-- PLATFORM_VERIFY_END (R198 step 6, R202): after every region, outside a takeover (R104), with no mirror fill left that
can complete; a lane whose engine has failed with no free spare ends FAILED (R83). -/
def execPlatformVerifyEnd (lane : Fin 8) (s : State) : Out :=
  let l := s.lane lane
  match l.manifest with
  | none => .next s
  | some m =>
    if !s.spindleServes lane then .next s
    else if l.pv.active && l.denyEngine then .next (verifyFailed lane (decidingRow l 5) s)
    else if !l.pv.active || !l.pv.accepted || l.takeover.isSome || !(List.range m.regions.length).all l.pv.done.contains
        || l.fills.any (fun r => s.fillable lane r) then .next s
    else
      let o := verifyOutcome s lane
      .next (clearPending (setOutcome lane o.1 o.2 (s.modLane lane (endVerification s))))

/-- N_l: the units in the lane's manifest regions (R201). -/
def regionUnits (l : Lane) : Nat := ((l.manifest.map fun m => (m.regions.map (·.len)).sum)).getD 0

/-- B_pv of a lane in kB/s: that of its slowest flash (R197, assumption 57). -/
def streamRate (l : Lane) : Nat :=
  let used := (fins 2).filter fun f => flashEnabled l.cfg f
  let rates := (used.map fun f => (l.pv.modes[f]).2).filter fun r => r != 0
  match rates with
  | [] => 0
  | r :: rs => rs.foldl min r

/-- The bound of R201 in slow ticks: 2 × N_l × 4,096 / B_pv + 1 s, the stream's term rounded up, and absent while no
rate is known. -/
def verifyBound (l : Lane) : Nat :=
  let d := 1000 * streamRate l
  ticksPerSec + (if d = 0 then 0 else (2 * regionUnits l * unitBytes * ticksPerSec + d - 1) / d)

/-- PLATFORM_VERIFY_TIMEOUT (R201). -/
def execPlatformVerifyTimeout (lane : Fin 8) (s : State) : Out :=
  let l := s.lane lane
  if s.spindlesRun && l.pv.active && decide (l.pv.startTick + verifyBound l ≤ s.tick) then
    .next (verifyFailed lane (decidingRow l 7) s)
  else .next s

/-! ### Repair of a leaf (R203, R275, R276) -/

/-- A REPAIR entry (R477): RESULT 0 GOOD, 1 REPAIR_FAILED. -/
def logRepair (n : Fin 8) (r : LeafRef) (result : Nat) (s : State) : State :=
  logNow 0x0023 (originLane n) ([BitVec.ofNat 8 n.val, BitVec.ofNat 8 result, BitVec.ofNat 8 r.region, 0] ++ leBytes 4 r.leaf) s

/-- A leaf has been attempted: it leaves the lists that wait for it, and a REPAIR_LANE operation ends with its last leaf
(R276, R404). -/
def repairAttempted (n : Fin 8) (r : LeafRef) (s : State) : State :=
  let s1 := s.modHosts fun _ h => { h with repairs := drop? h.repairs fun x => x == (n, r) }
  let s2 := s1.modLane n fun l => { l with repairLeft := drop? l.repairLeft fun x => x == r }
  match (s2.lane n).repairOp with
  | none => s2
  | some op =>
    if (s2.lane n).repairLeft = [] then endOp op .done 0 (s2.modLane n fun l => { l with repairOp := none }) else s2

/-- A REPAIRING lane becomes VERIFIED with its last leaf GOOD, and FAILED where a leaf stays (R203). -/
def repairOutcome (n : Fin 8) (ok : Bool) (s : State) : State :=
  let l := s.lane n
  if l.outcome ≠ some .repairing then s
  else if !ok then setOutcome n .failed 11 s
  else if ((l.manifest.map allLeaves).getD []).any l.leafBad then s
  else clearPending (setOutcome n .verified 11 s)

/-- A leaf that could not be repaired: REPAIR_FAILED is recorded (R275). -/
def repairFailed (n : Fin 8) (r : LeafRef) (s : State) : State :=
  repairOutcome n false (repairAttempted n r (logRepair n r 1 s))

/-- A repaired leaf: GOOD, with its claim and its fill no longer needed for it (R111, R275). -/
def repairDone (n : Fin 8) (r : LeafRef) (s : State) : State :=
  let s1 := s.modLane n fun l => l.modLeaf r fun st => { st with flash := .good }
  repairOutcome n true (repairAttempted n r (logRepair n r 0 s1))

/-- A release or an operation waits for the leaf's repair (R276). -/
def State.repairWaits (s : State) (n : Fin 8) (r : LeafRef) : Bool :=
  (s.lane n).repairLeft.contains r || (fins 16).any fun h => (s.host h).repairs.contains (n, r)

/-- LEAF_REPAIR (R275): a BAD or ERROR leaf in VIRUND, from a Reservoir whose copy proves. readBack and readBack2 are the
two read-backs; erase4k tells whether the Sector Map gives a 4 KiB erase over the leaf. A leaf that no Reservoir can
supply any more fails (R203). A read-back that differs counts in no MISMATCHES (assumption 57). -/
def execLeafRepair (lane : Fin 8) (region : Fin 256) (leaf : Nat) (source readBack readBack2 : Bytes) (erase4k : Bool)
    (s : State) : Out := whileServing lane s <|
  let r : LeafRef := ⟨region.val, leaf⟩
  let l := s.lane lane
  let owned := (s.leafChips lane r).all fun f => (l.chips[f]).st == .virund
  match l.leafBad r && owned, s.repairSource lane r, l.leafDigest? r with
  | true, some x, some d =>
    if leafDigest source ≠ d then
      let s1 := reservoirMismatch lane r x 4 s
      .next (if (s1.repairSource lane r).isSome then s1 else repairFailed lane r s1)
    else if !erase4k then .next (repairFailed lane r s)
    else if leafDigest readBack = d ∨ leafDigest readBack2 = d then .next (repairDone lane r s)
    else .next (repairFailed lane r s)
  | _, none, _ =>
    if l.leafBad r && (l.outcome == some .repairing || s.repairWaits lane r) then .next (repairFailed lane r s) else .next s
  | _, _, _ => .next s

end Sys2Proof.Machine
end

