-- ==== Sys2Proof/Machine/Program.lean ====
section
/-! DEFINITION. Chuck's sequencing program and its supervision, as commands (R205, R224, R225, R227 to R238, R247, R248). -/
namespace Sys2Proof.Machine
open Sys2Proof

/-! ### Failures (R230, R234, R235, R238) -/

/-- PG_FAIL as R223 codes it. -/
def scopeCode : Scope → Nat
  | .log => 0
  | .cycle => 1
  | .host => 2
  | .platform => 3

/-- A SUPERVISION entry (R477) and the event of source 54 (R234), with the alert of R551. -/
def reportFailure (index : Nat) (scope : Scope) (host : Option (Fin 16)) (channel : Bool) (sample : Nat) (s : State) : State :=
  let s1 := logNow 0x0030 0x20 ([BitVec.ofNat 8 index, BitVec.ofNat 8 (scopeCode scope),
    (match host with
      | none => 0xFF
      | some h => BitVec.ofNat 8 h.val), if channel then 1 else 0] ++ leBytes 2 sample) s
  let s2 := if scope = .host ∨ scope = .platform then sendAlert 4 (scopeCode scope) s1 else s1
  weirReport 54 (if scope = .log then .ce else .ucc) (index + 256 * scopeCode scope) 0 sample s2

/-- A host is held with POWER set where it is not already (R238). -/
def holdPower (h : Fin 16) (s : State) : State :=
  if (s.host h).hold.power then s else holdHost (fun w => { w with power := true }) h s

/-- One CYCLE or HOST action on a host has ended (R241). -/
def countAction (h : Fin 16) (s : State) : State := s.modHold h fun w => { w with reseqCount := w.reseqCount + 1 }

/-- A CYCLE action in progress on an output ends, and its host counts it (R241). -/
def endCycle (k : Fin 64) (host : Option (Fin 16)) (s : State) : State :=
  match host with
  | none => s
  | some h => if s.chuck.cycling.contains k then countAction h s else s

/-- A CYCLE action on an output, at most three in 600 s on it or on its host (R235, R238). -/
def cycleAction (k : Fin 64) (host : Option (Fin 16)) (s : State) : State :=
  let s1 := cycleOff k (endCycle k host s)
  match host with
  | none =>
    let mine := s1.chuck.outActions.filter fun x => x.1 == k && decide (s.time < x.2 + 600 * nsPerSec)
    if 3 ≤ mine.length then s1
    else s1.modChuck fun c => { c with outActions := (k, s.time) :: c.outActions, cycling := c.cycling ++ [k] }
  | some h =>
    let recent := recentActions s.time (s.host h).actions
    if 3 ≤ recent.length then holdPower h s1
    else (s1.modHost h fun x => { x with actions := s.time :: recent }).modChuck fun c => { c with cycling := c.cycling ++ [k] }

/-- The host is already taken down by its own action (R246). -/
def State.hostIsDown (s : State) (h : Fin 16) : Bool :=
  match (s.host h).run with
  | .down _ _ => true
  | .off => true
  | _ => false

/-- A HOST action, at most three in 600 s (R235, R238). -/
def hostAction (h : Fin 16) (s : State) : State :=
  if s.hostIsDown h then s
  else
    let recent := recentActions s.time (s.host h).actions
    -- an action whose replay fails has ended
    let s1 := if (s.host h).acting then countAction h s else s
    if 3 ≤ recent.length then hostDown false h s1
    else (hostDown true h (s1.modHost h fun x => { x with actions := s.time :: recent })).modHost h fun x => { x with acting := true }

/-- The action of a failure of an output by its scope (R235). While the hard path holds every host, CYCLE and HOST actions
are abandoned and none begins (R243, R246). -/
def failureAction (scope : Scope) (k : Option (Fin 64)) (host : Option (Fin 16)) (s : State) : State :=
  let held := s.chuck.hardBy != []
  match scope, (if held then none else k), (if held then none else host) with
  | .log, _, _ => s
  | .cycle, some k, h => (match h with
    | some h => if s.hostIsDown h then s else cycleAction k (some h) s
    | none => cycleAction k none s)
  | .cycle, none, _ => s
  | .host, _, some h => hostAction h s
  | .host, _, none => s
  | .platform, _, _ => platformReset .platform true s

/-! ### The operations (R227 to R230) -/

/-- SEQ_STEP_START (R205, R227). -/
def execSeqStepStart (c : SeqCtx) (s : State) : Out :=
  match s.stepAt c with
  | none => .next s
  | some (pos, st) => if s.lanesCompleted st.laneMask then .next (setPos c { pos with started := true } s) else .next s

/-- ASSERT. -/
def execAssert (c : SeqCtx) (s : State) : Out :=
  match s.opIs c .assert false with
  | none => .next s
  | some (pos, o) =>
    .next (advance c pos (match (fin? o.pin : Option (Fin 64)) with
      | none => s
      | some k => assertOut k s))

/-- DEASSERT. -/
def execDeassert (c : SeqCtx) (s : State) : Out :=
  match s.opIs c .deassert false with
  | none => .next s
  | some (pos, o) =>
    .next (advance c pos (match (fin? o.pin : Option (Fin 64)) with
      | none => s
      | some k => deassertOut k s))

/-- PULSE: the button is asserted for the width, and the program goes on. -/
def execPulse (c : SeqCtx) (s : State) : Out :=
  match s.opIs c .pulse false with
  | none => .next s
  | some (pos, o) =>
    .next (advance c pos (match (fin? o.pin : Option (Fin 64)) with
      | none => s
      | some k => s.modChuck fun x =>
        { x with asserted := x.asserted.set k.val true, pulsing := if x.pulsing.contains k then x.pulsing else x.pulsing ++ [k] }))

/-- PULSE_END. -/
def execPulseEnd (pin : Fin 64) (s : State) : Out :=
  if s.chuck.pulsing.contains pin then .next (deassertOut pin s) else .next s

/-- DELAY. -/
def execDelay (c : SeqCtx) (s : State) : Out :=
  match s.opIs c .delay false with
  | none => .next s
  | some (pos, _) => .next (waitHere c pos s)

/-- DELAY_END. -/
def execDelayEnd (c : SeqCtx) (s : State) : Out :=
  match s.opIs c .delay true with
  | none => .next s
  | some (pos, _) => .next (advance c pos s)

/-- WAIT_PG. -/
def execWaitPg (c : SeqCtx) (s : State) : Out :=
  match s.opIs c .waitPg false with
  | none => .next s
  | some (pos, o) =>
    .next (waitHere c pos (match (fin? o.pin : Option (Fin 64)) with
      | none => s
      | some k => s.modChuck fun x => { x with pgWait := x.pgWait.set k.val o.value }))

/-- An output is supervised from now on (R232). -/
def supervise (k : Fin 64) (s : State) : State :=
  s.modChuck fun c => { c with supervised := if c.supervised.contains k then c.supervised else c.supervised ++ [k] }

/-- A power-good source of an output reports good. -/
def pgReportsGood (k : Fin 64) (s : State) : State :=
  match s.pgSrcOf k with
  | none => s
  | some x => setPg x true s

/-- What Chuck sees makes the source of an output report good. -/
def State.pgMet (s : State) (k : Fin 64) (seen : PgSight) : Bool := (s.pgSrcOf k).any fun x => s.pgSeen true x seen

/-- WAIT_PG_MET (R224, R225, R232): the output's source reports good after its debounce or filter. -/
def execWaitPgMet (c : SeqCtx) (seen : PgSight) (s : State) : Out :=
  match s.opIs c .waitPg true with
  | none => .next s
  | some (pos, o) =>
    match (fin? o.pin : Option (Fin 64)) with
    | none => .next (advance c pos s)
    | some k => if s.pgMet k seen then .next (advance c pos (supervise k (pgReportsGood k s))) else .next s

/-- After a timeout the step's other operations with the same host are skipped, and the run goes on where the failure's
action has left it (R230). -/
def skipAfterTimeout (c : SeqCtx) (host : Option (Fin 16)) (s : State) : State :=
  match s.opAt c with
  | none => s
  | some (pos, _) =>
    advance c { pos with skipHosts := match host with
      | none => pos.skipHosts
      | some h => pos.skipHosts ++ [h] } s

/-- WAIT_PG_TIMEOUT (R230, R234, R235). -/
def execWaitPgTimeout (c : SeqCtx) (s : State) : Out :=
  match s.opIs c .waitPg true, s.chuck.policy with
  | some (_, o), some p =>
    match (fin? o.pin : Option (Fin 64)) with
    | none => .next s
    | some k =>
      let cfg := p.outs[k]
      let channel := match cfg.pgSrc with
        | some (.chan _) => true
        | _ => false
      let s1 := skipAfterTimeout c o.host (failureAction cfg.pgFail (some k) cfg.host (pgOff k s))
      .next (reportFailure k.val cfg.pgFail cfg.host channel 0 s1)
  | _, _ => .next s

/-- WAIT_IN. -/
def execWaitIn (c : SeqCtx) (s : State) : Out :=
  match s.opIs c .waitIn false with
  | none => .next s
  | some (pos, _) => .next (waitHere c pos s)

/-- WAIT_IN_MET (R224): the input is asserted after its debounce. -/
def execWaitInMet (c : SeqCtx) (ticks : Nat) (s : State) : Out :=
  match s.opIs c .waitIn true with
  | none => .next s
  | some (pos, o) =>
    match (fin? o.pin : Option (Fin 64)) with
    | none => .next (advance c pos s)
    | some k =>
      if s.pgSeen true (.input k) (.ticks ticks) then .next (advance c pos (setPg (.input k) true s)) else .next s

/-- WAIT_IN_TIMEOUT (R230): scope HOST on the operation's host, LOG without one. -/
def execWaitInTimeout (c : SeqCtx) (s : State) : Out :=
  match s.opIs c .waitIn true with
  | none => .next s
  | some (_, o) =>
    let scope := if o.host.isSome then Scope.host else Scope.log
    let s1 := skipAfterTimeout c o.host (failureAction scope none o.host s)
    .next (reportFailure o.pin scope o.host false 0 s1)

/-- IF_PRESENT: present is the input's level after its debounce (R224). -/
def execIfPresent (c : SeqCtx) (present : Bool) (s0 : State) : Out :=
  match s0.opIs c .ifPresent false with
  | none => .next s0
  | some (pos, o) =>
    let s := match (fin? o.pin : Option (Fin 64)) with
      | none => s0
      | some k => setPg (.input k) present s0
    if present then .next (advance c pos s)
    else .next (setPos c { pos with op := pos.op + 1, waiting := false, skip := o.value } s)

/-- RELEASE_HOST (R16, R229, R276): the operation waits for the lanes, the host's power-good and the repairs of its
take-down. The sources that have come to report good since are in its operand. -/
def execReleaseHost (c : SeqCtx) (good : List (PgSrc × PgSight)) (s0 : State) : Out :=
  match s0.opIs c .releaseHost false, s0.chuck.policy with
  | some (pos, o), some p =>
    let s := notePgs good s0
    match o.host with
    | none => .next (advance c pos s)
    | some h =>
      if s.lanesCompleted (s.host h).hold.laneMask && s.hostPgGood p h && (s.host h).repairs = [] then
        .next (advance c pos (releaseHost c h s))
      else .next s
  | _, _ => .next s0

/-! ### PLAT_HOLD_N (R247, R248) -/

/-- PLAT_SYNC: Virund releases its own drive and waits. -/
def execPlatSync (c : SeqCtx) (s : State) : Out :=
  match s.opIs c .platSync false with
  | none => .next s
  | some (pos, _) => .next (waitHere c pos (s.modChuck fun x => { x with platDrive := false }))

/-- Every run of the program. -/
def allRuns : List SeqCtx := .main :: (fins 16).map .replay

/-- The runs that wait at PLAT_SYNC pass it. -/
def passSync (s : State) : State :=
  allRuns.foldl (fun s c =>
    match s.opIs c .platSync true with
    | none => s
    | some (pos, _) => advance c pos (s.modChuck fun x => { x with passedSync := true })) s

/-- PLAT_SYNC_RELEASED: the net reads high. -/
def execPlatSyncReleased (s : State) : Out :=
  if allRuns.any fun c => (s.opIs c .platSync true).isSome then .next (passSync (s.modChuck fun x => { x with platHigh := true }))
  else .next s

/-- PLAT_SYNC_TIMEOUT: an entry is written for each run that waits with a timeout, and it continues. -/
def execPlatSyncTimeout (s : State) : Out :=
  .next (allRuns.foldl (fun s c =>
    match s.opIs c .platSync true with
    | none => s
    | some (pos, o) =>
      if o.value = 0 then s
      else advance c pos ((logNow 0x0032 0x20 [BitVec.ofNat 8 pos.step] s).modChuck fun x => { x with passedSync := true })) s)

/-- PLAT_FOLLOW_EVENT (R243, R247, R248). -/
def execPlatFollowEvent (s : State) : Out :=
  if (s.chuck.policy.any fun p => p.follow) && s.chuck.passedSync && !s.chuck.platDrive then
    .next (platformReset .follow false (s.modChuck fun c => { c with platHigh := false, following := true }))
  else .next s

/-- PLAT_HOLD_HIGH (R244, R247): after the take-down of a PLAT_FOLLOW event the net reads high. -/
def execPlatHoldHigh (s : State) : Out :=
  if s.chuck.following && !s.chuck.platDrive && (s.chuck.main == .off || s.chuck.main == .offTime) then
    .next (clearHardCause .follow (s.modChuck fun c => { c with platHigh := true, following := false, main := .offTime }))
  else .next s

/-! ### Supervision (R232 to R235, R246) -/

/-- The supervised outputs that a source concerns: those past their first WAIT_PG, every output of a channel armed at
the start, and those that a CYCLE action has asserted again (R232, R235). -/
def State.concerned (s : State) (p : PlatPolicy) (src : PgSrc) : List (Fin 64) :=
  let armed := match src with
    | .chan k => s.chuck.armed.contains k
    | .input _ => false
  (fins 64).filter fun k =>
    (p.outs[k]).pgSrc == some src
      && (armed || s.chuck.supervised.contains k || (s.chuck.cycling.contains k && s.chuck.asserted[k]))

/-- One output's failure: reported, and acted on by its scope. -/
def outputFailed (p : PlatPolicy) (channel : Bool) (sample : Nat) (s : State) (k : Fin 64) : State :=
  let o := p.outs[k]
  reportFailure k.val o.pgFail o.host channel sample (failureAction o.pgFail (some k) o.host s)

/-- The latest code of a channel (R477). -/
def lastCode : PgSight → BitVec 12
  | .samples l => l.getLast?.getD 0
  | .ticks _ => 0

/-- SUPERVISED_FAILURE (R224, R225, R232 to R235): the source reports bad, an input after its debounce, a channel after
FILTER samples outside LOW to HIGH. -/
def execSupervisedFailure (src : PgSrc) (seen : PgSight) (s : State) : Out :=
  match s.chuck.policy with
  | none => .next s
  | some p =>
    if !s.pgSeen false src seen then .next s
    else
    let sample := lastCode seen
    let s1 := setPg src false s
    let outs := s.concerned p src
    let noOutput := (fins 64).all fun k => (p.outs[k]).pgSrc != some src
    match src with
    | .input _ => .next (outs.foldl (outputFailed p false 0) s1)
    | .chan k =>
      if noOutput && s.chuck.armed.contains k then
        let scope := (p.mons[k]).monFail
        .next (reportFailure k.val scope none true sample.toNat (failureAction scope none none s1))
      else .next (outs.foldl (outputFailed p true sample.toNat) s1)

/-- TAKE_DOWN_STEP (R236): DOWN_GAP has elapsed. -/
def execTakeDownStep (c : SeqCtx) (s : State) : Out :=
  match c with
  | .main => (match s.chuck.main with
    | .down outs restart => .next (takeDownMain outs restart s)
    | _ => .next s)
  | .replay h => (match (s.host h).run with
    | .down outs bringUp => .next (takeDownHost outs bringUp h s)
    | _ => .next s)

/-- The host that owns an output (R223). -/
def State.outHost (s : State) (k : Fin 64) : Option (Fin 16) := s.chuck.policy.bind fun p => (p.outs[k]).host

/-- CYCLE_REASSERT (R235): after OFF_TIME the output is asserted again, in its place in the order of assertion, and waited
on; the command that follows while it is asserted is the end of that wait with power good, from which it is supervised
again, and ends the action (R241). -/
def execCycleReassert (pin : Fin 64) (seen : PgSight) (s : State) : Out :=
  if !s.chuck.cycling.contains pin then .next s
  else if !s.chuck.asserted[pin] then .next (cycleOn pin s)
  else if !s.pgMet pin seen then .next s
  else
    .next ((supervise pin (pgReportsGood pin (endCycle pin (s.outHost pin) s))).modChuck fun c =>
      { c with cycling := drop? c.cycling fun k => k == pin })

/-- HOST_BRING_UP (R237): after OFF_TIME the replay of the host's steps begins; after a LANE reset once every lane that the
host depends on has completed (R506). -/
def execHostBringUp (host : Fin 16) (s : State) : Out :=
  match (s.host host).run with
  | .off =>
    let x := s.host host
    if s.mode = .firmware ∧ s.chuck.hardBy = [] ∧ s.chuck.policy.isSome ∧ (!x.waitLanes ∨ s.lanesCompleted x.hold.laneMask) then
      .next (setPos (.replay host) firstPos (s.modHost host fun y => { y with waitLanes := false }))
    else .next s
  | _ => .next s

/-! ### Starts of the program (R218, R220, R224, R235, R244) -/

/-- The program starts from its first step; after a wake from RETAIN every enabled lane is verified first (R220). -/
def beginProgram (s : State) : State :=
  let s1 := if s.chuck.reverify then
      ((fins 8).foldl (fun s n => if (s.lane n).cfg.enable then startVerificationKeeping true n s else s) s).modChuck fun c =>
        { c with reverify := false }
    else s
  let s2 := programStart s1
  if s2.mode = .firmware then publishSnap s2 else s2

/-- PLATFORM_RESTART (R235, R244): OFF_TIME has elapsed since the take-down. -/
def execPlatformRestart (s : State) : Out :=
  if s.mode = .firmware ∧ s.chuck.main = .offTime ∧ s.chuck.hardBy = [] then .next (beginProgram s) else .next s

end Sys2Proof.Machine
end

