-- ==== Sys2Proof/Machine/Supply.lean ====
section
/-! DEFINITION. Supplies and power states (R209 to R221, R239, R326, R327, R418, R503, R504, R509 to R511, R529). -/
namespace Sys2Proof.Machine
open Sys2Proof

/-! ### Supplies (R209 to R212, R239, R327) -/

/-- Virund itself is powered: neither in BACKUP nor before VSB has come. -/
def State.powered (s : State) : Bool := s.chuck.power != .backup && s.chuck.power != .unpowered

/-- The engines that may work on VSB alone: Riffle groups 0 and 1, Mandrel[0] and Mandrel[1] (R327). -/
def vsbRiffle (i : Fin 32) : Bool := decide (i.val < 14)
def vsbMandrel (m : Fin 8) : Bool := decide (m.val < 2)

/-- The main regulators draw from VSB: jobs on the other engines go back to their queues, and those domains lose power
(R212, R327). -/
def limitToVsb (s : State) : State :=
  let js := ((fins 32).filter fun i => !vsbRiffle i).flatMap fun i => (s.riffle i).job.toList ++ (s.riffle i).suspended
  let ms := ((fins 8).filter fun m => !vsbMandrel m).flatMap fun m => (s.mandrel m).job.toList
  let s1 := requeue (js ++ ms) s
  let s2 := s1.modConf fun c =>
    { c with
      riffles := vmapI c.riffles fun i r => if vsbRiffle i then r else { r with job := none, suspended := [] }
      mandrels := vmapI c.mandrels fun m r => if vsbMandrel m then r else { r with job := none } }
  keepDomains [34, 35, 42, 43] (s2.modChuck fun c => { c with mainFromVsb := true })

/-- BROWN_OUT (R239): VIN below 2.95 V for 5 µs while it feeds the main regulators. -/
def execBrownOut (s : State) : Out :=
  if s.powered && s.chuck.vin && !s.chuck.mainFromVsb then
    .next (platformReset .brownOut false (limitToVsb (s.modChuck fun c => { c with vin := false, brownedOut := true })))
  else .next s

/-- BROWN_OUT_RECOVERY (R239, R244): VIN has stayed in its window for 100 ms. -/
def execBrownOutRecovery (s : State) : Out :=
  if s.powered && s.chuck.brownedOut && s.chuck.vin then
    let s1 := clearHardCause .brownOut (s.modChuck fun c => { c with brownedOut := false })
    let s2 := if s1.mode = .firmware then
        (fins 8).foldl (fun s n => if (s.lane n).cfg.enable then startVerification n s else s) s1
      else s1
    .next (s2.modChuck fun c =>
      { c with main := match c.main with
          | .down outs _ => .down outs true
          | _ => .offTime })
  else .next s

/-- VSB_LOSS (R211, R239): it is logged, as a WEIR_RECORD entry of source 55 with class CE, no reaction and syndrome 0, since
R477 gives it no type of its own (DESIGN CHOICE, log 49). -/
def execVsbLoss (s : State) : Out :=
  if s.powered && s.chuck.vsb && s.chuck.vin then
    .next (logNow 0x0001 0x20 [55, 0, 0, 0] (s.modChuck fun c => { c with vsb := false, aonFromVin := true }))
  else .next s

/-- VIN_WINDOW_ENTRY (R211, R212): the reserve of R326 is powered whole again. -/
def execVinWindowEntry (s : State) : Out :=
  let s1 := s.modChuck fun c => { c with vin := true, mainFromVsb := false }
  .next (if s.chuck.power = .run ∨ s.chuck.power = .idle then powerEngine (.mandrel 4) (powerEngine (.riffle 8) s1) else s1)

/-- VSB_WINDOW_RETURN (R211). In BACKUP VSB's return is a POR. -/
def execVsbWindowReturn (s : State) : Out :=
  if s.powered && !s.chuck.vsb then .next (s.modChuck fun c => { c with vsb := true, aonFromVin := false }) else .next s

/-- BACKUP_ENTRY (R216, R239): both supplies have left their windows. Only the backup domain and NVM keep what they hold;
the POR that ends BACKUP clears the rest (R503, R508). -/
def execBackupEntry (s : State) : Out :=
  if s.powered then
    .next ((dropFirmwareQueue { s with mode := .held, warm := false, planned := false }).modChuck fun c =>
      { c with vin := false, vsb := false, mainFromVsb := true, aonFromVin := false, power := .backup, wakeAt := none })
  else .next s

/-- BACKUP_LOSS (R503, R504): the backup domain loses everything it holds. -/
def execBackupLoss (s : State) : Out :=
  if s.chuck.power = .backup then
    let s1 := { s with
      backup := Backup.reset
      levee := { s.levee with kinds := vmap s.levee.kinds fun k => { k with alarms := 0, disagrees := 0 } } }
    .next (s1.modChuck fun c => { c with vbak := false })
  else .next s

/-! ### IDLE (R216, R217) -/

/-- A mirror fill of the lane is under way: one that waits for a leaf with no good source is not (R136, R216). -/
def State.filling (s : State) (n : Fin 8) : Bool :=
  (s.lane n).fills.any fun r => !(s.lane n).leafBad r || (s.repairSource n r).isSome

/-- Chuck carries out no operation: no run, take-down, CYCLE action or pulse (R216). -/
def State.chuckIdle (s : State) : Bool :=
  (s.chuck.main == .off || s.chuck.main == .ended) && ((fins 16).all fun h => (s.host h).run == .none)
    && s.chuck.cycling.isEmpty && s.chuck.pulsing.isEmpty

/-- No job, capture, fill, frame or Chuck operation is under way (R216); a scrub is one command. -/
def State.noWork (s : State) : Bool :=
  s.conf.queue.isEmpty && ((fins 32).all fun i => (s.riffle i).job.isNone && (s.riffle i).suspended.isEmpty)
    && ((fins 8).all fun m => (s.mandrel m).job.isNone)
    && ((fins 8).all fun n => (s.lane n).trackersFree && !(s.lane n).pv.active && !s.filling n) && s.stolik.waiting.isEmpty
    && s.chuckIdle

/-- IDLE_ENTRY. -/
def execIdleEntry (s : State) : Out :=
  if s.chuck.power = .run ∧ s.noWork then .next (s.modChuck fun c => { c with power := .idle }) else .next s

/-- IDLE_WAKE. -/
def execIdleWake (s : State) : Out :=
  if s.chuck.power = .idle then .next (s.modChuck fun c => { c with power := .run }) else .next s

/-! ### RETAIN and DEEP (R216, R218 to R221, R509 to R511, R529) -/

/-- Nothing of R509 is under way: no job of classes 1 to 4 and no tracker in use. -/
def State.quiet (s : State) : Bool :=
  let low := fun (j : Job) => j.cls != 0
  !(s.conf.queue.any low) && ((fins 32).all fun i => !((s.riffle i).job.any low)) && ((fins 8).all fun m => (s.mandrel m).job.isNone)
    && (fins 8).all fun n => (s.lane n).trackersFree && !(s.lane n).pv.active

/-- Every UP link sends LEAVE training blocks, and the links power down (R529). -/
def linksLeave (s : State) : State :=
  (fins 4).foldl (fun s k =>
    let up := (s.fabric.links[k]).st == .up
    let s1 := linkDown k s
    if up then s1.modLink k fun l => { l with line := [trainingBlock .leave s.node s.assigned k] } else s1) s

/-- Unpinned pages are lost (R219). -/
def dropUnpinned (s : State) : State :=
  (s.pages.filter fun p => !s.pinned p).foldl (fun s p => dropPage p.lane p.region p.page s) s

/-- RETAIN is entered (R216, R219, R508 to R511). -/
def enterRetain (wakeAt : Option Nat) (s : State) : State :=
  let s1 := dropUnpinned (linksLeave s)
  let s2 := s1.modConf fun c => { forgetKeys c with sessions := [] }
  let s3 := s2.modKeys fun k => { k with cdiAlias := none, aliasReady := false, batchOpen := false, kSeal := none }
  keepDomains [] (s3.modChuck fun c => { c with power := .retain, retainSince := s.tick, wakeAt := wakeAt })

/-- Entry to DEEP ends every scheduled capture with ABORTED (R522). -/
def endCaptures (s : State) : State :=
  (s.stolik.captures.foldl (fun s c => if c.initiator.isNone then endOp c.opId .aborted 0 s else s) s).modStolik fun k =>
    { k with captures := [] }

/-- DEEP is entered: what neither the always-on nor the backup domain nor NVM holds is lost, and the CHIP reset of the
wake clears it (R216, R508). -/
def enterDeep (wakeAt : Option Nat) (s : State) : State :=
  let s1 := endCaptures (dropFirmwareQueue (linksLeave s))
  keepDomains [] ({ s1 with mode := .held, warm := false, planned := false }.modChuck fun c =>
    { c with power := .deep, wakeAt := wakeAt })

/-- Virund may enter RETAIN or DEEP (R218, R509). -/
def State.maySleep (s : State) : Bool :=
  s.mode == .firmware && s.lanesPowered && s.platformOff && s.quiet

/-- AUTO_RETAIN (R216, R222). -/
def execAutoRetain (s : State) : Out :=
  if s.maySleep && (s.chuck.policy.any fun p => p.autoRetain) then .next (enterRetain none s) else .next s

/-- The wake from RETAIN (R220, R510, R511): firmware resumes, the Alias layer is derived again and K_seal drawn. -/
def wakeRetain (s : State) : State :=
  let s1 := deriveAlias (s.modChuck fun c =>
    { c with power := .run, wakeAt := none, reverify := true, enginePd := reservePd c.mainFromVsb })
  let k := drawBytes 96 s1
  publishSnap (k.2.modKeys fun x => { x with kSeal := some k.1, sealSerial := 0 })

/-- An input of kind START or with WAKE = 1 that has stood for its debounce wakes Virund (R216, R224). -/
def State.inputWakes (s : State) (k : Fin 64) (ticks : Nat) : Bool :=
  (s.chuck.policy.any fun p => (p.ins[k]).kind == 3 || (p.ins[k]).wake) && s.pgSeen true (.input k) (.ticks ticks)

/-- A source of the table of R216 wakes Virund from RETAIN, or from DEEP, where buses and Weir are off. -/
def State.wakes (s : State) (deep : Bool) (w : WakeSource) : Bool :=
  match w with
  | .input k t => s.inputWakes k t
  | .bus b => !deep && (s.buses[b]).role != 0
  | .link k => s.linkEn.getLsbD k.val
  | .rstIn => true
  | .levee => true
  | .weir => !deep

/-- RETAIN_WAKE (R216, R220). -/
def execRetainWake (w : WakeSource) (s : State) : Out :=
  if s.chuck.power = .retain ∧ s.wakes false w then .next (wakeRetain s) else .next s

/-- DEEP_AFTER_EXPIRY (R216, R218, R222): DEEP_AFTER minutes in RETAIN, with the platform off; 0 means never. -/
def execDeepAfterExpiry (s : State) : Out :=
  match s.chuck.policy with
  | none => .next s
  | some p =>
    if s.chuck.power = .retain ∧ s.platformOff ∧ p.deepAfter ≠ 0 ∧ s.chuck.retainSince + p.deepAfter * 60 * ticksPerSec ≤ s.tick then
      .next (enterDeep s.chuck.wakeAt s)
    else .next s

/-- The wake from DEEP: a CHIP reset with CAUSE OTHER (R221, R503, R504). -/
def wakeDeep (s : State) : State := chipReset .other s

/-- DEEP_WAKE (R216, R221). -/
def execDeepWake (w : WakeSource) (s : State) : Out :=
  if s.chuck.power = .deep ∧ s.wakes true w then .next (wakeDeep s) else .next s

/-- START_INPUT (R216, R220, R224): a rising START input, after its debounce and while the platform is off. It wakes Virund
first: from RETAIN the program then starts with its verification, from DEEP at step 5 of the firmware start. -/
def execStartInput (k : Fin 64) (ticks : Nat) (s : State) : Out :=
  let isStart := s.chuck.policy.any fun p => (p.ins[k]).kind == 3
  if !(isStart && s.pgSeen true (.input k) (.ticks ticks) && s.platformOff) then .next s
  else
    match s.chuck.power with
    | .deep => .next (wakeDeep (s.modChuck fun c => { c with startWanted := true }))
    | .retain => if s.startable then .next (beginProgram (wakeRetain s)) else .next s
    | _ => if s.startable then .next (beginProgram (wakeIdle s)) else .next s

/-- A scheduled capture is less than 50 µs ahead (R522). -/
def State.captureNear (s : State) : Bool := s.stolik.captures.any fun c => decide (c.at_ ≤ s.time + 50000)

/-- The wake timer of POWER_STATE has expired (R418). -/
def State.wakeDue (s : State) : Bool := s.chuck.wakeAt.any fun t => decide (t ≤ s.time)

/-- WAKE_TIMER (R418, R522): the wake timer of POWER_STATE expires, or a capture in IDLE or RETAIN is near. -/
def execWakeTimer (s : State) : Out :=
  if s.chuck.power = .retain ∧ (s.wakeDue ∨ s.captureNear) then .next (wakeRetain s)
  else if s.chuck.power = .deep ∧ s.wakeDue then .next (wakeDeep s)
  else if s.chuck.power = .idle ∧ s.captureNear then .next (s.modChuck fun c => { c with power := .run })
  else if s.wakeDue then .next (s.modChuck fun c => { c with wakeAt := none })
  else .next s

/-- The last job in the engine's domain ended 65,536 slow ticks ago (R214). -/
def State.domainIdle (s : State) (e : Engine) : Bool :=
  decide (s.conf.lastJob[(Fin.ofNat 16 (engineDomain e - 34) : Fin 16)] + 65536 ≤ s.tick)

/-- The domain of an engine powers down. -/
def engineOff (e : Engine) (s : State) : State := keepDomains (s.chuck.enginePd.filter fun d => d != engineDomain e) s

/-- ENGINE_POWER_DOWN (R214, R326, R377): a pooled engine's domain without work powers down; the domains of R326 do not. A
Mandrel that holds a key is wiped first, and powers down when the command comes again. -/
def execEnginePowerDown (e : Engine) (s : State) : Out :=
  match e with
  | .riffle i =>
    let g := (i.val - 8) / 3
    if i.val < 8 || g = 0 || !s.domainIdle e
        || (groupRiffles g).any (fun j => (s.riffle j).job.isSome || !(s.riffle j).suspended.isEmpty) then
      .next s
    else .next (engineOff e s)
  | .mandrel m =>
    if m = 4 ∨ (s.mandrel m).job.isSome ∨ (s.mandrel m).wiping ∨ !s.domainIdle e then .next s
    else if (s.mandrel m).secret then .next (s.modMandrel m fun x => { x with wiping := true })
    else .next (engineOff e s)

end Sys2Proof.Machine
end

