-- ==== Sys2Proof/Machine/Flags.lean ====
section
/-! DEFINITION. The status words and records as software reads them: each field of State in the layout the manual gives
(R34, R51, R84, R97, R98, R110, R112, R123, R131, R150, R168, R174, R215, R278 to R280, R338, R426 to R450, R460, R470,
R471, R478). -/
namespace Sys2Proof.Machine
open Sys2Proof

/-! ### Lanes -/

/-- A lane configuration record (R34). -/
def laneCfgBytes (c : LaneCfg) : Bytes :=
  leBytes 2 (b2n c.enable + 2 * b2n c.hostCs1 + 4 * b2n c.flashCs1 + 8 * b2n c.mailbox) ++ leBytes 2 c.modeMask.toNat
    ++ leBytes 2 c.fmax ++ [c.opWrite, c.opRead, c.opStatus] ++ padTo (c.jedec.take 3) 3 ++ leBytes 4 c.host0
    ++ leBytes 4 c.host1 ++ leBytes 4 c.flash0 ++ leBytes 4 c.flash1 ++ zeros 36

/-- A lane verification record (R112). -/
def verifyBytes (v : VerifyRec) : Bytes :=
  leBytes 4 v.scrubPeriod ++ leBytes 2 v.partialTimeout
    ++ leBytes 2 (b2n v.autoRelease + 2 * b2n v.pinPages + 4 * b2n (v.resPref == .b)) ++ zeros 24

/-- A remap window (R51). -/
def remapBytes (r : Remap) : Bytes := leBytes 4 r.base ++ leBytes 4 r.len ++ leBytes 4 r.targetA ++ leBytes 4 r.targetB

/-- Region 0x0100 + n (R407). -/
def laneInForce (l : Lane) : Bytes :=
  laneCfgBytes l.cfg ++ verifyBytes l.verify ++ l.remap.toList.flatMap remapBytes

/-- 48-bit counts, eight bytes each (R97, R98, R150, R338). -/
def counts48 (l : List Nat) : Bytes := l.flatMap fun c => leBytes 8 (c % 2 ^ 48)

/-- The counters of R98, then those of R150. -/
def laneCountBytes (c : LaneCounts) : Bytes :=
  counts48 [c.defaultHits, c.stageCaptured, c.stageRefusedFull, c.lookupDisagree, c.leavesVerified, c.mismatches,
    c.partialFills, c.flashChecks, c.scrubLeaves, c.scrubOverruns, c.redirectUnits, c.uncapturedDrops]

/-- The 4-bit state of a leaf (R110). -/
def leafBits (s : LeafState) : Nat :=
  (match s.flash with
  | .good => 0
  | .bad => 1
  | .error => 2
  | .unverified => 3) + 4 * b2n s.mirrorValid

/-- The leaf states of one region, two to a byte, the lower leaf in bits [3:0] (R407). -/
def leafStateBytes : List LeafState → Bytes
  | [] => []
  | [a] => [BitVec.ofNat 8 (leafBits a)]
  | a :: b :: r => BitVec.ofNat 8 (leafBits a + 16 * leafBits b) :: leafStateBytes r

/-- STATE of R120. -/
def trackCode : TrackState → Nat
  | .free => 0
  | .capturing => 1
  | .filling => 2
  | .queued => 3
  | .hashing => 4
  | .pageWait => 5

/-- A tracker's status word (R123). -/
def trackerWord (tick : Nat) (t : Tracker) : Nat :=
  if t.st = .free then 0
  else trackCode t.st + 2 ^ 8 * t.region + 2 ^ 16 * t.leaf + 2 ^ 34 * t.data.length + 2 ^ 49 * b2n t.res.isSome
    + 2 ^ 51 * min 8191 (tick - t.lastCapture)

/-- An entry of a defect list (R407). -/
def defectWord (d : Fin 8 × LeafRef) : Nat := d.1.val + 2 ^ 8 * d.2.region + 2 ^ 16 * d.2.leaf

/-! ### Chuck -/

/-- The link is enabled and its domain is not held (R214, R431). -/
def State.linkPowered (s : State) (k : Fin 4) : Bool := s.linkEn.getLsbD k.val && !(s.link k).held

/-- Bank k of the staging memory is powered (R214): units fill the lowest banks, 1,024 to a bank, and one further bank
is powered while captures or transfers may need it. -/
def State.stagingPowered (s : State) (k : Nat) : Bool :=
  let used := (s.staging.length + 1023) / 1024
  let open_ := s.stolik.targets.any (fun t => t.xfer != .none) || (fins 8).any fun n => (s.lane n).rules.any fun e => e.len != 0 && e.access == .stageWrite
  let more := open_ && decide (1024 * used - s.staging.length < 256)
  decide (k < used + (if more then 1 else 0))

/-- One of a Tenon pair's buses has a configured component (R214). -/
def State.tenonUsed (s : State) (p : Nat) : Bool := (s.adm.map fun a => a.slots.any fun x => x.bus / 8 == p).getD false

/-- A Tenon pair is powered while one of its buses has a configured component (R214); on VSB one pair is, the lower-numbered
(R212; assumption 49). -/
def State.tenonPowered (s : State) (p : Nat) : Bool :=
  s.tenonUsed p && !(s.chuck.mainFromVsb && p == 1 && s.tenonUsed 0)

/-- A domain is powered in RUN or IDLE (R213, R214, R431). -/
def State.pdRun (s : State) (n : Nat) : Bool :=
  if n < 12 then s.mirror.any fun e => e.bank == n
  else if n < 18 then s.cacheBankOn (n - 12)
  else if n < 22 then s.stagingPowered (n - 18)
  else if n < 24 then true
  else if h : n - 24 < 8 then
    (if n < 32 then (s.lane ⟨n - 24, h⟩).cfg.enable || (s.lane ⟨n - 24, h⟩).cfg.mailbox else true)
  else if n < 34 then !s.chuck.held.contains (Fin.ofNat 64 (n - 24))
  else if n < 50 then s.chuck.enginePd.contains n
  else if n < 52 then s.tenonPowered (n - 50)
  else if n < 54 then true
  else if n = 54 then s.resA.present && !s.resA.held
  else if n = 55 then s.resB.present && !s.resB.held
  else if n < 60 then s.linkPowered (Fin.ofNat 4 (n - 56))
  else if n < 63 then true
  else s.keys.debugUnlocked

/-- A mirror or staging bank stays powered in RETAIN, or another domain of its column (R216, R219). -/
def State.pdRetain (s : State) (n : Nat) : Bool :=
  if n < 12 then
    s.mirror.any fun e => e.bank == n && ((s.lane e.lane).leafState e.leaf).mirrorValid
  else if n < 18 then s.cacheBankOn (n - 12)
  else if n < 22 then decide (n - 18 < (s.staging.length + 1023) / 1024)
  else n == 22 || n == 23 || n == 53 || n == 60

/-- PD_ON of one domain in the present power state (R213 to R216). -/
def State.pdOn (s : State) (n : Nat) : Bool :=
  match s.chuck.power with
  | .run => s.pdRun n
  | .idle => s.pdRun n
  | .retain => s.pdRetain n
  | _ => false

/-- The domain status word (R215). -/
def domainWord (s : State) : Nat := (List.range 64).foldl (fun a n => a + 2 ^ n * b2n (s.pdOn n)) 0

/-- HELD of GET_STATUS: the hosts whose reset is asserted (R406). -/
def heldMask (s : State) : Nat := (fins 16).foldl (fun a h => a + 2 ^ h.val * b2n (s.host h).resetAsserted) 0

/-! ### The commit record (R278 to R281) -/

def copyCode : CopyState → Nat
  | .empty => 0
  | .writing => 1
  | .valid => 2

def phaseCode : Phase → Nat
  | .idle => 0
  | .landing => 1
  | .prestaging => 2
  | .flipped => 3
  | .following => 4

def inactiveCode : Inactive → Nat
  | .unknown => 0
  | .landed => 1
  | .previous => 2

/-- A component entry (R279): STATE_B and CRC_B are zero for the ROM extension. -/
def compBytes (c : Fin 4) (e : CompEntry) : Bytes :=
  let b := decide (c ≠ 0)
  leBytes 8 (b2n (e.activeB && b) + 2 ^ 8 * copyCode e.stateA + (if b then 2 ^ 16 * copyCode e.stateB else 0))
    ++ leBytes 8 (if e.stateA = .valid then e.crcA.toNat else 0)
    ++ leBytes 8 (if e.stateB = .valid ∧ b then e.crcB.toNat else 0) ++ zeros 8

/-- A window entry (R280). -/
def winBytes (w : WinEntry) : Bytes :=
  leBytes 4 (b2n (w.select == .b) + 2 ^ 4 * phaseCode w.phase + 2 ^ 8 * inactiveCode w.inactive)
    ++ leBytes 4 w.pendingId.toNat

/-- A lane entry (R280). -/
def laneEntryBytes (l : LaneEntry) : Bytes := leBytes 8 (b2n l.active + 2 * b2n l.pendingValid)

/-- The commit record without its CRC. -/
def commitBody (c : Commit) : Bytes :=
  padTo (leBytes 4 0x31524347 ++ leBytes 4 1 ++ leBytes 8 c.seq
    ++ leBytes 8 (c.attempts % 256 + 2 ^ 8 * c.selectedTry + 2 ^ 16 * b2n c.fwStarted + 2 ^ 17 * b2n c.romextOverrun
        + 2 ^ 32 * c.raisePending.toNat)
    ++ zeros 8 ++ (fins 4).flatMap (fun k => compBytes k c.comps[k]) ++ c.wins.toList.flatMap winBytes
    ++ c.lanes.toList.flatMap laneEntryBytes) 0x3F8

/-- The commit record, 1,024 bytes (R278). -/
def commitBytes (c : Commit) : Bytes := commitBody c ++ leBytes 8 (crc64 (commitBody c)).toNat

/-- OWNER_ANCHOR[a] (R168). -/
def anchorBytes (a : Anchor) : Bytes :=
  padTo (a.digest.take 32) 32 ++ leBytes 4 a.purpose.toNat ++ leBytes 4 (match a.state with
    | .empty => 0
    | .active => 1
    | .revoked => 2)

/-! ### Confluence (R338) -/

/-- Every job that holds a descriptor (R321): it waits, runs or is suspended. -/
def State.allJobs (s : State) : List Job :=
  s.conf.queue ++ (s.conf.riffles.toList.flatMap fun r => r.job.toList ++ r.suspended)
    ++ s.conf.mandrels.toList.flatMap fun m => m.job.toList

/-- Descriptors of a class in use. -/
def State.inUse (s : State) (c : Fin 5) : Nat := (s.allJobs.filter fun j => j.cls == c).length

/-- The counter block of a class (R338). -/
def classBytes (s : State) (c : Fin 5) : Bytes :=
  let k := s.conf.counts[c]
  counts48 [k.jobsDone, k.preempted, k.queueFull] ++ leBytes 4 (min (2 ^ 32 - 1) k.waitMax) ++ leBytes 2 (s.inUse c) ++ zeros 2

/-! ### Weir (R426 to R450) -/

/-- A first-error record (R428). -/
def recordBytes (r : ErrRecord) : Bytes :=
  leBytes 8 (r.source.val + 2 ^ 6 * r.cls.toNat + 2 ^ 8 * b2n r.valid + 2 ^ 9 * b2n r.overflow + 2 ^ 10 * b2n r.lasting
      + 2 ^ 11 * b2n r.injected + 2 ^ 12 * b2n r.injCoincident + 2 ^ 16 * r.reactions.toNat
      + 2 ^ 24 * r.overflowCount.toNat)
    ++ leBytes 8 r.syndrome.toNat ++ leBytes 8 r.time.toNat ++ leBytes 8 r.coincident.toNat

/-- The pin control word (R441). -/
def pinWord (w : Weir) : Nat :=
  b2n w.errHold + 2 * b2n (w.pin == .pulse) + 4 * b2n (w.pin == .forced) + 8 * b2n (w.pin != .released)
    + 2 ^ 8 * w.pulseCount.toNat

/-- The storm word (R449). -/
def stormWord (w : Weir) : Nat := w.stormCount % 8 + 2 ^ 32 * (w.stormStart % 2 ^ 32)

/-- WEIR_CFG[s] as in force, with the floors (R434 to R436). -/
def weirCfgWord (s : Nat) (c : WeirCfg) : Nat :=
  (weirSet c s .ce).toNat + 2 ^ 8 * (weirSet c s .ucc).toNat + 2 ^ 16 * (weirSet c s .fatal).toNat
    + 2 ^ 24 * c.lastingSet.toNat + 2 ^ 32 * c.winN + 2 ^ 40 * c.winW

/-- WEIR_STATE[s] (R438). -/
def weirStateWord (w : WeirState) : Nat :=
  w.count + 2 ^ 8 * b2n w.lasting + 2 ^ 16 * w.testCount + 2 ^ 24 * b2n w.testLasting + 2 ^ 32 * (w.winStart % 2 ^ 32)

/-- Region 0x0300 (R450). -/
def weirRegion (s : State) : Bytes :=
  leBytes 8 s.weir.pending.toNat ++ leBytes 8 s.weir.injected.toNat ++ recordBytes s.weir.record
    ++ leBytes 8 (pinWord s.weir) ++ leBytes 8 (stormWord s.weir) ++ recordBytes s.weir.causeRecord
    ++ leBytes 8 s.weir.cause.toNat ++ recordBytes s.nvm.safeRecord ++ leBytes 8 s.nvm.safeTrigger.toNat

/-- Region 0x0301 (R450). -/
def weirCfgRegion (s : State) : Bytes :=
  (fins 64).flatMap fun k => leBytes 8 (weirCfgWord k.val s.weir.cfg[k]) ++ leBytes 8 (weirStateWord s.weir.st[k])

/-! ### Levee (R460, R470, R471) -/

/-- Kind k watches in the present power state (R452, R471). -/
def State.leveeArmed (s : State) (k : Fin 12) : Bool :=
  match k.val with
  | 0 => s.powered && s.chuck.vin && !s.chuck.mainFromVsb
  | 1 => s.powered && s.chuck.vsb && !s.chuck.aonFromVin
  | 2 => s.chuck.power == .backup
  | 4 => s.chuck.power == .run || s.chuck.power == .idle || s.chuck.power == .retain
  | 3 => s.chuck.power == .run || s.chuck.power == .idle
  | 5 => s.chuck.power == .run || s.chuck.power == .idle
  | 6 => s.chuck.power == .run || s.chuck.power == .idle
  | 11 => s.chuck.power == .run || s.chuck.power == .idle
  | 10 => s.chuck.power != .unpowered && s.backup.encEnable != 0 && s.backup.encDebounce != 0
  | _ => s.chuck.power != .unpowered

/-- LEVEE_KIND[k] (R470). -/
def kindWord (s : State) (k : Fin 12) : Nat :=
  let x := s.levee.kinds[k]
  b2n (s.leveeArmed k) + 2 * b2n x.d1Active + 4 * b2n x.d2Active + 8 * b2n (!scopeConfigurable k) + 2 ^ 4 * x.scope.toNat
    + 2 ^ 8 * x.alarms + 2 ^ 16 * x.disagrees + 2 ^ 24 * b2n x.testD1Fail + 2 ^ 25 * b2n x.testD2Fail
    + 2 ^ 32 * x.lastTest.toNat

/-- The enclosure word (R471). -/
def encWord (b : Backup) : Nat := b.encEnable.toNat + 2 ^ 8 * b.encDebounce.toNat + 2 ^ 16 * b.encOpen.toNat

/-- The backup status word (R471). -/
def backupWord (b : Backup) : Nat :=
  b2n b.pending + 2 * b2n b.continuityLost + 4 * b2n b.vbakLow + 2 ^ 8 * b.buffer.length + 2 ^ 16 * (b.lost % 2 ^ 32)

/-- The alarm record (R460). -/
def alarmBytes (a : AlarmRec) : Bytes :=
  leBytes 8 (a.kinds.toNat + 2 ^ 12 * a.d1Fired.toNat + 2 ^ 24 * a.d2Fired.toNat + 2 ^ 36 * a.scope.toNat
      + 2 ^ 38 * b2n a.valid)
    ++ leBytes 8 a.time.toNat ++ leBytes 8 (a.encPairs.toNat + 2 ^ 8 * a.meshTraces.toNat)

/-- Region 0x0310 (R470). -/
def leveeRegion (s : State) : Bytes :=
  (fins 12).flatMap (fun k => leBytes 8 (kindWord s k)) ++ leBytes 8 (encWord s.backup) ++ leBytes 8 (backupWord s.backup)
    ++ alarmBytes s.levee.alarm

/-! ### The ring log (R478) -/

/-- Region 0x0320; its first 40 bytes are LOG_HEAD of R318. -/
def logHeadBytes (s : State) : Bytes :=
  let l := s.nvm.log
  headChain s ++ leBytes 8 l.count ++ leBytes 8 (logOldest l) ++ leBytes 8 l.exportedTo ++ leBytes 8 l.lostUnexported
    ++ leBytes 8 l.dropped

/-! ### The diagnostic window (R407) -/

/-- A region of an enabled lane; empty where the lane is disabled. -/
def laneRegion (s : State) (base r : Nat) (f : Lane → Bytes) : Bytes :=
  match (fin? (r - base) : Option (Fin 8)) with
  | none => []
  | some n => if (s.lane n).cfg.enable then f (s.lane n) else []

/-- The bytes of a region of the diagnostic window; none where the manual names no such region (R407). -/
def diagRegion (s : State) (r : Nat) : Option Bytes :=
  if 0x100 ≤ r ∧ r < 0x108 then some (laneRegion s 0x100 r laneInForce)
  else if 0x110 ≤ r ∧ r < 0x118 then
    some (laneRegion s 0x110 r fun l => padTo (l.rules.flatMap ruleBytes) 65536)
  else if 0x120 ≤ r ∧ r < 0x128 then some (laneRegion s 0x120 r fun l => padTo (counts48 l.hits) 32768)
  else if 0x130 ≤ r ∧ r < 0x138 then some (laneRegion s 0x130 r fun l => padTo (counts48 l.prevHits) 32768)
  else if 0x140 ≤ r ∧ r < 0x148 then some (laneRegion s 0x140 r fun l => laneCountBytes l.counts)
  else if 0x150 ≤ r ∧ r < 0x158 then some (laneRegion s 0x150 r fun l => l.leaves.flatMap leafStateBytes)
  else if 0x160 ≤ r ∧ r < 0x168 then
    some (laneRegion s 0x160 r fun l => l.trackers.toList.flatMap fun t => leBytes 8 (trackerWord s.tick t))
  else if r = 0x180 then some (if s.resA.present then s.resA.defects.flatMap fun d => leBytes 8 (defectWord d) else [])
  else if r = 0x181 then some (if s.resB.present then s.resB.defects.flatMap fun d => leBytes 8 (defectWord d) else [])
  else if r = 0x200 then some ((fins 5).flatMap (classBytes s))
  else if r = 0x201 then some (leBytes 8 (domainWord s))
  else if r = 0x202 then some ((fins 16).flatMap fun h => leBytes 4 (holdWord (s.host h).hold))
  else if r = 0x203 then some (if s.nvm.commit.intact then commitBytes s.nvm.commit else [])
  else if r = 0x204 then some (s.nvm.anchors.toList.flatMap anchorBytes)
  else if r = 0x205 then some ((fins 256).flatMap fun c => leBytes 4 (s.counter c.val))
  else if r = 0x206 then some ((fins 8).flatMap fun n => leBytes 8 (mailboxStatus (s.lane n)))
  else if r = 0x300 then some (weirRegion s)
  else if r = 0x301 then some (weirCfgRegion s)
  else if r = 0x310 then some (leveeRegion s)
  else if r = 0x320 then some (logHeadBytes s)
  else none

end Sys2Proof.Machine
end

