-- ==== Sys2Proof/Machine/Stolik.lean ====
section
/-! DEFINITION. The service of a Stolik request: ports and modes (R385, R397), the checks of R390 in their order, the
authorisation levels of R399 and the records of R402 and R403, in-flight limits (R393, R394), and the response on its
transport (R386, R541). -/
namespace Sys2Proof.Machine
open Sys2Proof

/-! ### Responses and the relay (R386, R541) -/

/-- A response to a relayed request leaves as a RELAY_RESPONSE with the request's MSG_ID (R541). -/
def relayOut (r : Resp) (s : State) : State :=
  match r.port with
  | .pl _ origin =>
    (match s.stolik.relayed.find? fun x => x.1 == r.port && x.2.1 == r.tag with
    | none => s
    | some x =>
      sendRouted origin 2 x.2.2 (respFrame r)
        (s.modStolik fun k => { k with relayed := k.relayed.erase x }))
  | _ => s

/-- Answers a request (R387, R541). -/
def reply (p : Port) (opcode : Nat) (tag : Word) (r : Res) (payload : Bytes) (s : State) : State :=
  relayOut ⟨p, BitVec.ofNat 16 opcode, r, tag, payload⟩ (respond p opcode tag r payload s)

/-! ### Levels and commands (R399) -/

/-- The authorisation levels of R399; `holder` is that of R412. -/
inductive Level where
  | open_
  | lane (n : Nat)
  | owner
  | structure_
  | peer (node : Nat)
  | ownerVendor
  | vendor
  | ownership
  | holder
deriving DecidableEq, Repr

/-- A request as its command sees it: the port and tag, and the command payload behind any authorisation record. -/
structure Call where
  port : Port
  tag : Word
  cmd : Bytes
deriving DecidableEq, Repr

/-- A failed check: its result, DETAIL and OFFSET (R389). -/
structure Refused where
  res : Res
  detail : Nat
  offset : Nat
deriving DecidableEq, Repr

/-- A command of the catalogue: its opcode, whether Headwater serves it (R397), its level, the length its payload must
have (step 7), the offset of the first reserved or invalid field (step 8), whether the life-cycle state admits it
(step 9), the lanes it names (R402), its acceptance (step 10, level S) and the signed structures accepted with it, its locks
(step 11), what a refusal still counts, and what it does. -/
structure Cmd where
  op : Nat
  headwater : Bytes → Bool := fun _ => false
  level : State → Bytes → Level := fun _ _ => .open_
  need : State → Call → Nat := fun _ _ => 0
  badField : State → Bytes → Option Nat := fun _ _ => none
  life : State → Bytes → Bool := fun _ _ => true
  lanes : State → Bytes → Nat := fun _ _ => 0
  accept : State → Call → Option Failed := fun _ _ => none
  signed : State → Call → List Bytes := fun _ _ => []
  locks : State → Call → Option Res := fun _ _ => none
  refused : Call → Refused → State → State := fun _ _ s => s
  run : Call → State → State

/-- Answers a call. -/
def Call.reply (c : Call) (op : Nat) (r : Res) (payload : Bytes) (s : State) : State :=
  Machine.reply c.port op c.tag r payload s

/-- The offset of the first non-zero byte of a reserved field of n bytes at an offset (R4). -/
def reservedAt (cmd : Bytes) (o n : Nat) : Option Nat := if allZero (slice cmd o n) then none else some o

/-! ### Authorisation (R400 to R403) -/

/-- The OFFSET of a check that examines no one byte (R389). -/
def noOffset : Nat := 2 ^ 32 - 1

/-- A failed check of R177 within a request (R389). -/
def Failed.refused (f : Failed) : Refused := ⟨f.res, f.step, noOffset⟩

/-- The signers that a level asks of a record, owner first (R399, R402, R403). -/
def Level.signers : Level → List Nat
  | .ownerVendor => [0, 1]
  | .vendor => [1]
  | _ => [0]

/-- The blocks are of the signers asked for, in their order, and a vendor block has its form (R167, R402). -/
def signersOk (want : List Nat) (blks : List SigBlk) : Bool :=
  blks.map (·.signer) == want && blks.all fun b => b.signer != 1 || vendorForm b

/-- The anchors in the payload of TAKE_OWNERSHIP as owner anchors (R421). -/
def payloadAnchors (cmd : Bytes) : List Anchor :=
  (chunksOf 40 (slice cmd 4 (40 * u8 cmd 0))).map fun b =>
    { digest := b.take 32, purpose := BitVec.ofNat 32 (u32 b 32), state := .active }

/-- The scope of the root key of a block in a record, against the anchors that its level names (R403, R421). -/
def recordScope (s : State) (level : Level) (cmd : Bytes) (b : SigBlk) : Option KeyScope :=
  match level with
  | .ownership =>
    ((payloadAnchors cmd).head?.filter fun a => a.digest == hH b.root.bytes).map fun a =>
      { vendorScope with purpose := a.purpose.toNat }
  | _ => rootScope s b

/-- The blocks of a record in order (step 5 of R403). -/
def checkRecordBlks (s : State) (level : Level) (cmd msg : Bytes) (need : SignNeed) : List SigBlk → Option Failed
  | [] => none
  | b :: bs =>
    match checkBlkUnder s (recordScope s level cmd b) msg need b with
    | some r => some r
    | none => checkRecordBlks s level cmd msg need bs

/-- A challenge is open (R401). -/
def State.challengeOpen (s : State) (c : Bytes) : Bool := s.stolik.challenges.any fun x => x.value == c

/-- The purpose COMMAND (R170). -/
def purposeCommand : Nat := 5

/-- A record is judged (R403): the check that fails, or the challenge that the request will close. -/
def checkRecord (s : State) (op : Nat) (level : Level) (lanes : Nat) (payload : Bytes) : Except Refused Bytes :=
  match readAuth payload with
  | none => .error ⟨.deniedPolicy, 1, 0⟩
  | some (a, cmd) =>
    if !signersOk level.signers a.blks then .error ⟨.deniedPolicy, 1, 0⟩
    else if a.opcode ≠ op then .error ⟨.notAuthorised, 0, 0x10⟩
    else if a.serial ≠ s.fuses.serial.toNat then .error ⟨.notAuthorised, 0, 0x18⟩
    else if a.digest ≠ hH (0x05 :: leBytes 2 op ++ cmd) then .error ⟨.notAuthorised, 0, 0x40⟩
    else if !s.challengeOpen a.challenge then .error ⟨.notAuthorised, 0, 0x20⟩
    else if lanes &&& a.lanes ≠ lanes then .error ⟨.notAuthorised, 0, 0x12⟩
    else
      match checkRecordBlks s level cmd a.signed { purpose := purposeCommand, lanes := a.lanes } a.blks with
      | some f => .error f.refused
      | none => .ok a.challenge

/-- Level W is authorised without a record (R400). -/
def ownerFree (s : State) (p : Port) : Bool :=
  (s.lc == .manufacture || s.lc == .unowned) && (match p with
    | .pl _ _ => false
    | _ => true)

/-- The port is the mailbox of a lane (R399). -/
def onLane (p : Port) (n : Nat) : Bool :=
  match p with
  | .hp k => k.val == n
  | _ => false

/-- The port is a host-port mailbox or a management bus. -/
def localPort : Port → Bool
  | .pl _ _ => false
  | _ => true

/-- The command's own level where no record came with it (R399 to R401). -/
def levelFree (s : State) (p : Port) : Level → Bool
  | .open_ => true
  | .lane n => onLane p n
  | .owner => ownerFree s p
  | .structure_ => true
  | .peer _ => true
  | .ownerVendor => false
  | .vendor => false
  | .ownership => false
  | .holder => true

/-- The condition of a level that a record does not replace (R399): level P's node, and the ports of level T (R421). -/
def levelPort (p : Port) : Level → Bool
  | .peer node => (match p with
    | .pl _ origin => origin.toNat == node
    | _ => false)
  | .ownership => localPort p
  | _ => true

/-- Step 10 of R390: the refusal, or the challenge to close. -/
def authorise (c : Cmd) (auth : Bool) (payload : Bytes) (call : Call) (s : State) : Except Refused (Option Bytes) :=
  let level := c.level s call.cmd
  if !levelPort call.port level then .error ⟨.notAuthorised, 0, noOffset⟩
  else
    let rec_ : Except Refused (Option Bytes) :=
      if auth then (checkRecord s c.op level (c.lanes s call.cmd) payload).map some
      else if levelFree s call.port level then .ok none
      else .error ⟨.notAuthorised, 0, noOffset⟩
    match rec_, level with
    | .error e, _ => .error e
    | .ok ch, .structure_ =>
      (match c.accept s call with
      | some f => .error f.refused
      | none => .ok ch)
    | .ok ch, _ => .ok ch

/-! ### The checks of R390 -/

/-- Whether the service state serves the request at all (R385, R397). -/
inductive Service where
  | serve
  | wait
  | silent
  | faulted
  | denied (detail : Nat)
deriving DecidableEq, Repr

/-- The port is served in its transport's own terms (R385, R397). -/
def portServed (s : State) (p : Port) : Bool :=
  match p with
  | .hp n => (s.lane n).cfg.mailbox
  | .mb b => s.mode == .headwater || s.mode == .scrapped || s.mode == .fault || s.buses[b].role == 0b01
  | .pl k _ => s.recoveryLink k

/-- Step 5 of R390 (R397). Virund serves Stolik in RUN and IDLE, once a mode of R397 has begun. -/
def serviceState (c : Cmd) (p : Port) (cmd : Bytes) (s : State) : Service :=
  if !s.lanesPowered || !portServed s p then .silent
  else
    match s.mode with
    | .firmware => (match p with
      | .hp n => if (s.lane n).mb.paused then .wait else .serve
      | _ => .serve)
    | .paused => .wait
    | .headwater => if c.headwater cmd then .serve else .denied 0x100
    | .scrapped => if c.op = 0x0101 then .serve else .denied 0
    | .fault => (match p with
      | .mb _ => .faulted
      | _ => .silent)
    | .held => .silent
    | .rom => .silent

/-- The requests of a port that arrived before one and are not answered (R393). -/
def State.tagBusy (s : State) (p : Port) (tag : Word) (frame : Bytes) : Bool :=
  s.stolik.inFlight.contains (p, tag)
    || ((s.stolik.waiting.takeWhile fun w => !(w.port == p && w.frame == frame)).any fun w =>
      w.port == p && u32 w.frame 4 == tag.toNat)

/-- The frame of a request (R387). -/
def reqFrame (c : Cmd) (r : Req) : Bytes := frameBytes c.op r.flags.toNat r.tag r.payload

/-- The offset of the command payload: behind the record where AUTH is set (R402). -/
def cmdOffset (r : Req) : Nat := if r.flags.getLsbD 0 then u32 r.payload 8 else 0

/-- Reserved fields of a key block at an offset (R165). -/
def keyReserved (p : Bytes) (o : Nat) : Option Nat := reservedAt p (o + 2) 2

/-- Reserved fields of a number of certificates in a row, from an offset on (R170). -/
def chainReserved (p : Bytes) : Nat → Nat → Option Nat
  | 0, _ => none
  | n + 1, o =>
    (reservedAt p (o + 6) 2).or ((if u32 p (o + 0x10) < 2 ^ 7 then none else some (o + 0x10)).or
      ((if u8 p (o + 0x15) < 2 ^ 4 then none else some (o + 0x15)).or ((reservedAt p (o + 0x28) 8).or
        ((keyReserved p (o + 0x30)).or (chainReserved p n (o + u32 p (o + 8)))))))

/-- Reserved fields of a number of signature blocks in a row, from an offset on (R164). -/
def blksReserved (p : Bytes) : Nat → Nat → Option Nat
  | 0, _ => none
  | n + 1, o =>
    (reservedAt p (o + 0x0C) 4).or ((keyReserved p (o + 0x10)).or
      ((chainReserved p (min 3 (u8 p (o + 3))) (o + 0x10 + u32 p (o + 8))).or (blksReserved p n (o + u32 p (o + 4)))))

/-- Reserved fields of the record, in its own fields and in its signature blocks (R4, R402). -/
def recordReserved (p : Bytes) : Option Nat :=
  let b := p.take (u32 p 8)
  (reservedAt b 0x07 1).or ((reservedAt b 0x13 5).or (blksReserved b (min 2 (u8 b 6)) 0x60))

/-- Steps 6 to 11 of R390, in their order: the refusal, or the challenge to close. -/
def checkCall (c : Cmd) (r : Req) (call : Call) (s : State) : Except Refused (Option Bytes) :=
  let auth := r.flags.getLsbD 0
  let o := cmdOffset r
  let need := c.need s call
  if s.tagBusy r.port r.tag (reqFrame c r) then .error ⟨.badFrame, 0, noOffset⟩
  else if 64 ≤ (s.stolik.inFlight.filter fun x => x.1 == r.port).length then .error ⟨.queueFull, 0, noOffset⟩
  else if auth && decide (r.payload.length < max 12 o) then .error ⟨.lengthShort, 0, r.payload.length⟩
  else if call.cmd.length < need then .error ⟨.lengthShort, 0, r.payload.length⟩
  else if need < call.cmd.length then .error ⟨.lengthLong, 0, o + need⟩
  else
    match (if auth then recordReserved r.payload else none).or ((c.badField s call.cmd).map fun k => k + o) with
    | some k => .error ⟨.badFrame, 0, k⟩
    | none =>
      if !c.life s call.cmd then .error ⟨.deniedLifecycle, 0, noOffset⟩
      else
        match authorise c auth r.payload call s with
        | .error e => .error e
        | .ok ch =>
          match c.locks s call with
          | some e => .error ⟨e, 0, noOffset⟩
          | none => .ok ch

/-- The challenge of a request that begins to execute closes (R401). -/
def closeChallenge (ch : Option Bytes) (s : State) : State :=
  match ch with
  | none => s
  | some v => s.modStolik fun k => { k with challenges := drop? k.challenges fun x => x.value == v }

/-- The serials of the certificates that a request has been accepted with are recorded in the ring log (R170). R477 gives them no
type: each stands in an ANCHOR entry with INDEX 0xFF and STATE 0 (DESIGN CHOICE, log 61). -/
def logSerials (l : List SigBlk) (s : State) : State :=
  (l.flatMap (·.chain)).foldl (fun s c => logNow 0x0081 0x01 ([0xFF, 0, 0, 0] ++ leBytes 8 c.serial) s) s

/-- The signature blocks of a request's record (R402). -/
def recordBlks (r : Req) : List SigBlk :=
  if r.flags.getLsbD 0 then ((readAuth r.payload).map fun x => x.1.blks).getD [] else []

/-- A request is taken off the lists of those that wait. -/
def takeWaiting (p : Port) (frame : Bytes) (s : State) : State :=
  s.modStolik fun k => { k with waiting := k.waiting.erase ⟨p, frame⟩, parked := k.parked.erase ⟨p, frame⟩ }

/-- The request has been received before and waits (R393, R599). -/
def State.received (s : State) (p : Port) (frame : Bytes) : Bool := s.stolik.waiting.contains ⟨p, frame⟩

/-- A request keeps waiting until it can be served. -/
def keepWaiting (p : Port) (frame : Bytes) (s : State) : State :=
  if s.received p frame then s else s.modStolik fun k => { k with waiting := k.waiting ++ [⟨p, frame⟩] }

/-- A request above the device's limit waits with its bus, which holds 16; one more is discarded (R393). A mailbox or a
link keeps the bytes in its own buffer. -/
def parkRequest (p : Port) (frame : Bytes) (s : State) : State :=
  match p with
  | .mb _ =>
    if s.stolik.parked.contains ⟨p, frame⟩ || decide (16 ≤ (s.stolik.parked.filter fun w => w.port == p).length) then s
    else s.modStolik fun k => { k with parked := k.parked ++ [⟨p, frame⟩] }
  | _ => s

/-- The check that steps 1 and 4 still make of a request whose opcode the catalogue holds (R390). -/
def headerOk (r : Req) : Bool := decide (r.payload.length ≤ 65536) && decide (r.flags.toNat < 2)

/-- An admitted request begins to execute: Virund is in RUN (R216), the request waits no longer, the challenge it uses is closed
(R401), and the certificates it came with are recorded (R170). -/
def beginCall (c : Cmd) (r : Req) (call : Call) (ch : Option Bytes) (s : State) : State :=
  logSerials (recordBlks r ++ (c.signed s call).flatMap structBlks)
    (closeChallenge ch (takeWaiting r.port (reqFrame c r) (wakeIdle s)))

/-- A request of the catalogue (R390): refused with the failure payload at the first check that fails, or executed. -/
def serve (c : Cmd) (r : Req) (s : State) : State :=
  let frame := reqFrame c r
  let cmd := r.payload.drop (cmdOffset r)
  let call : Call := ⟨r.port, r.tag, cmd⟩
  let refuse := fun (e : Refused) (s : State) =>
    reply r.port c.op r.tag e.res (failPayload e.detail e.offset) (takeWaiting r.port frame s)
  match serviceState c r.port cmd s with
  | .silent => s
  | .faulted => reply r.port c.op r.tag .faultState [] s
  | .wait => keepWaiting r.port frame s
  | .denied d => if headerOk r then refuse ⟨.deniedLifecycle, d, noOffset⟩ s else refuse ⟨.badFrame, 0, noOffset⟩ s
  | .serve =>
    if !s.received r.port frame ∧ 1024 ≤ s.deviceLoad then parkRequest r.port frame s
    else if !headerOk r then refuse ⟨.badFrame, 0, noOffset⟩ s
    else
      match checkCall c r call s with
      | .error e => refuse e (c.refused call e s)
      | .ok ch => c.run call (beginCall c r call ch s)

/-- A request is in flight until its response is sent (R393). -/
def markInFlight (c : Call) (s : State) : State :=
  s.modStolik fun k => { k with inFlight := k.inFlight ++ [(c.port, c.tag)] }

/-- Opens an operation and answers ACCEPTED with its OP_ID (R404). -/
def acceptOp (c : Call) (op : Nat) (s : State) : Word × State :=
  let o := newOp s
  (o.1, c.reply op .accepted (leBytes 4 o.1.toNat) o.2)

/-! ### The frame-level commands (R390 to R393, R397) -/

/-- STOLIK_REQUEST_RELEASE (R393): room has freed, and the oldest request that waits on the port starts. -/
def execStolikRequestRelease (port : Port) (s : State) : Out :=
  match port with
  | .hp n => .next (takeFrames n ((s.lane n).mb.inBuf.length + 2) s)
  | p =>
    match s.stolik.parked.find? fun w => w.port == p with
    | none => .next s
    | some w =>
      if s.deviceLoad < 1024 then
        .next (s.modStolik fun k => { k with parked := k.parked.erase w, waiting := k.waiting ++ [w] })
      else .next s

/-- The opcodes of the catalogue (R406, R408, R411, R413, R414, R416, R418, R420). -/
def catalogue : List Nat :=
  [0x0101, 0x0102, 0x0103, 0x0104, 0x0105, 0x0201, 0x0202, 0x0203, 0x0204, 0x0301, 0x0302, 0x0303, 0x0304, 0x0305, 0x0306,
    0x0307, 0x0308, 0x0309, 0x030A, 0x030B, 0x0401, 0x0402, 0x0403, 0x0404, 0x0405, 0x0406, 0x0407, 0x0408, 0x0409, 0x040A]
  ++ [0x0501, 0x0502, 0x0503, 0x0504, 0x0505, 0x0506, 0x0507, 0x0508, 0x0509, 0x0601, 0x0602, 0x0701, 0x0702, 0x0703,
    0x0704, 0x0801, 0x0802, 0x0803, 0x0804, 0x0805, 0x0806, 0x0901, 0x0902, 0x0903, 0x0904, 0x0905]

/-- The first check of steps 1 to 4 of R390 that a message on a bus or over the relay fails, and the offset of the byte
it examined; a message with no whole header, and one with the integrity-check bit, come first (R386, R391). -/
def frameFault (frame : Bytes) (integrityCheck : Bool) : Option (Res × Nat) :=
  let len := u32 frame 8
  if integrityCheck then some (.badFrame, noOffset)
  else if frame.length < 16 then some (.lengthShort, noOffset)
  else if 65536 < len ∨ bit (u16 frame 0) 15 then some (.badFrame, noOffset)
  else if frame.length < 16 + len then some (.lengthShort, noOffset)
  else if 16 + len < frame.length then some (.lengthLong, noOffset)
  else if !crcOk frame then some (.badFrame, noOffset)
  else if !catalogue.contains (u16 frame 0) ∨ 2 ≤ u16 frame 2 then some (.badFrame, noOffset)
  else none

/-- STOLIK_INVALID_FRAME (R386, R390, R391, R397): a message or frame that fails steps 1 to 4 is answered with the
failure payload, OPCODE and TAG as they arrived with zero for what is missing. On a mailbox the frame comes through the
buffer, and steps 1 to 3 are those of MB_OP_WRITE; what is left is step 4. -/
def execStolikInvalidFrame (port : Port) (frame : Bytes) (integrityCheck : Bool) (s : State) : Out :=
  let f := padTo frame 16
  let send := fun (r : Res) (b : Bytes) (s : State) => reply port (u16 f 0) (BitVec.ofNat 32 (u32 f 4)) r b s
  if !s.lanesPowered || !portServed s port then .next s
  else
    match s.mode, port with
    | .fault, .mb _ => .next (send .faultState [] s)
    | .fault, _ => .next s
    | .held, _ => .next s
    | .rom, _ => .next s
    | .paused, _ => .next (keepWaiting port frame s)
    | _, .hp _ =>
      if s.received port frame ∧ (frameFault frame false).isSome then
        .next (send .badFrame (failPayload 0 noOffset) (takeWaiting port frame s))
      else .next s
    | _, _ =>
      match frameFault frame integrityCheck with
      | none => .next s
      | some (r, o) => .next (send r (failPayload 0 o) (takeWaiting port frame s))

end Sys2Proof.Machine
end

