-- ==== Sys2Proof/Machine/Identity.lean ====
section
/-! DEFINITION. Identity, status, challenges, operations and time over Stolik (R401, R404, R406, R407, R416, R417). -/
namespace Sys2Proof.Machine
open Sys2Proof

/-! ### Identity and status (R406) -/

/-- SEC_VERSION of each component as running, zero where no firmware runs (R406). -/
def runningVersions (s : State) : Bytes :=
  match s.mode with
  | .headwater => zeros 16
  | .scrapped => zeros 16
  | _ => (fins 4).flatMap fun c => leBytes 4 (s.runningVersion c)

/-- MODE of GET_IDENTITY. -/
def modeCode (s : State) : Nat :=
  match s.mode with
  | .headwater => 1
  | .scrapped => 2
  | _ => 0

/-- The response of GET_IDENTITY (R406). -/
def identityBytes (s : State) : Bytes :=
  padTo (ascii (if s.fuses.gradeE then "LFG-6408-E" else "LFG-6408-C")) 16 ++
    [BitVec.ofNat 8 (b2n s.fuses.gradeE), BitVec.ofNat 8 (s.fuses.stepLetter.toNat * 16 + s.fuses.stepDigit.toNat),
      BitVec.ofNat 8 (lcCode s.lc), BitVec.ofNat 8 (modeCode s)]
    ++ leBytes 2 s.node.toNat ++ zeros 2 ++ leBytes 8 s.fuses.serial.toNat ++ runningVersions s ++ leBytes 2 schemaCur
    ++ leBytes 2 schemaCur ++ zeros 12

/-- GET_IDENTITY (R406). -/
def cmdIdentity : Cmd :=
  { op := 0x0101, headwater := fun _ => true, run := fun c s => c.reply 0x0101 .done (identityBytes s) s }

def execGetIdentity (r : Req) (s : State) : Out := .next (serve cmdIdentity r s)

/-- SFLAGS of GET_STATUS. -/
def statusFlags (s : State) : Nat :=
  b2n (!s.stolik.defaulted.isEmpty) + 2 * b2n (s.mode == .paused) + 4 * b2n (s.mode == .headwater)
    + 8 * b2n s.keys.aliasReady + 16 * b2n s.backup.pending + 32 * b2n s.chuck.mainFromVsb

/-- The response of GET_STATUS (R406). -/
def statusBytes (s : State) : Bytes :=
  leBytes 4 (statusFlags s) ++ [if s.chuck.power = .idle then 1 else 0, BitVec.ofNat 8 s.nvm.commit.attempts,
      BitVec.ofNat 8 s.nvm.commit.selectedTry, 0]
    ++ (fins 8).map (fun n => laneOutcomeByte (s.lane n)) ++ leBytes 8 s.weir.pending.toNat ++ leBytes 8 s.time
    ++ leBytes 2 (heldMask s) ++ zeros 14

/-- GET_STATUS (R406). -/
def cmdStatus : Cmd :=
  { op := 0x0102, headwater := fun _ => true, run := fun c s => c.reply 0x0102 .done (statusBytes s) s }

def execGetStatus (r : Req) (s : State) : Out := .next (serve cmdStatus r s)

/-! ### Challenges (R401) -/

/-- Slow ticks and ns of a challenge's life. -/
def challengeLife : Nat := 3600 * nsPerSec

/-- A fresh challenge; the 65th takes the place of the oldest (R401). -/
def issueChallenge (s : State) : Bytes × State :=
  let d := drawBytes 32 s
  (d.1, d.2.modStolik fun k =>
    let l := k.challenges ++ [⟨d.1, s.time + challengeLife⟩]
    { k with challenges := l.drop (l.length - 64) })

/-- GET_CHALLENGE (R401, R406). -/
def cmdChallenge : Cmd :=
  { op := 0x0103
    run := fun c s =>
      let d := issueChallenge s
      c.reply 0x0103 .done (d.1 ++ leBytes 8 (s.time + challengeLife)) d.2 }

def execGetChallenge (r : Req) (s : State) : Out := .next (serve cmdChallenge r s)

/-- CHALLENGE_EXPIRY (R401): challenges close 3,600 s after issue. -/
def execChallengeExpiry (s : State) : Out :=
  .next (s.modStolik fun k => { k with challenges := drop? k.challenges fun x => decide (x.expires ≤ s.time) })

/-! ### The diagnostic window (R406, R407) -/

/-- Step 8 of R390 for DIAG_READ: reserved fields, then an unknown region, then OFFSET and LENGTH (R406, R407). -/
def diagBad (s : State) (cmd : Bytes) : Option Nat :=
  (reservedAt cmd 2 2).or
    (if (diagRegion s (u16 cmd 0)).isNone then some 0
    else if u32 cmd 4 % 8 ≠ 0 then some 4
    else if u32 cmd 8 % 8 ≠ 0 ∨ 65528 < u32 cmd 8 then some 8
    else none)

/-- The regions that Headwater serves (R397). -/
def diagHeadwater (cmd : Bytes) : Bool :=
  let r := u16 cmd 0
  r == 0x203 || r == 0x205 || decide (0x300 ≤ r ∧ r ≤ 0x320)

/-- DIAG_READ (R406, R407). -/
def cmdDiagRead : Cmd :=
  { op := 0x0104
    headwater := diagHeadwater
    need := fun _ _ => 12
    badField := diagBad
    run := fun c s =>
      let b := (diagRegion s (u16 c.cmd 0)).getD []
      c.reply 0x0104 .done (leBytes 4 b.length ++ zeros 4 ++ slice b (u32 c.cmd 4) (u32 c.cmd 8)) s }

def execDiagRead (r : Req) (s : State) : Out := .next (serve cmdDiagRead r s)

/-! ### Operations (R404, R406) -/

/-- GET_OP_STATUS (R404, R406). RESULT and DETAIL of an operation that runs are not stated, and are free values. -/
def cmdOpStatus : Cmd :=
  { op := 0x0105
    headwater := fun _ => true
    need := fun _ _ => 4
    run := fun c s =>
      match s.stolik.ops.find? fun o => o.id.toNat == u32 c.cmd 0 with
      | none => c.reply 0x0105 .aborted [] s
      | some o =>
        let body := fun (st r d : Nat) =>
          leBytes 4 o.id.toNat ++ leBytes 2 st ++ leBytes 2 r ++ leBytes 4 d ++ leBytes 4 o.progress.toNat
        if o.ended then c.reply 0x0105 .done (body 1 (resCode o.result) o.detail.toNat) s
        else
          let r := drawNat s
          let d := drawNat r.2
          c.reply 0x0105 .done (body 0 r.1 d.1) d.2 }

def execGetOpStatus (r : Req) (s : State) : Out := .next (serve cmdOpStatus r s)

/-- OP_RECORD_EXPIRY (R404): an operation is reported until 600 s after its end. -/
def execOpRecordExpiry (s : State) : Out :=
  .next (s.modStolik fun k => { k with ops := drop? k.ops fun o => o.ended && decide (o.endedAt + 600 * nsPerSec ≤ s.time) })

/-! ### Device time (R416, R417) -/

/-- GET_TIME (R416). -/
def cmdGetTime : Cmd :=
  { op := 0x0601
    run := fun c s => c.reply 0x0601 .done (leBytes 8 s.time ++ [BitVec.ofNat 8 s.sourceNow] ++ zeros 7) s }

def execGetTime (r : Req) (s : State) : Out := .next (serve cmdGetTime r s)

/-- SET_TIME is refused: backwards, or while the device follows fabric time (R417, R545). -/
def setTimeRefused (s : State) (t : Nat) : Bool := decide (t < s.time) || (s.sourceNow == 2 && !s.isRoot)

/-- SET_TIME (R416, R417, R516). -/
def cmdSetTime : Cmd :=
  { op := 0x0602
    level := fun _ _ => .owner
    need := fun _ _ => 8
    run := fun c s =>
      if setTimeRefused s (u64 c.cmd 0) then c.reply 0x0602 .deniedPolicy [] s
      else c.reply 0x0602 .done [] { s with time := u64 c.cmd 0, timeFrac := 0, timeSource := 1, fabric := { s.fabric with slew := 0 } } }

def execSetTime (r : Req) (s : State) : Out := .next (serve cmdSetTime r s)

end Sys2Proof.Machine
end

