-- ==== Sys2Proof/Machine/Structures.lean ====
section
/-! DEFINITION. Structure uploads, the reading of structures, and configuration records (R283, R408, R409, R512, R513). -/
namespace Sys2Proof.Machine
open Sys2Proof

/-! ### Uploads (R409) -/

/-- The upload that a port has open. -/
def State.uploadOf (s : State) (p : Port) : Option Upload := s.stolik.uploads.find? fun u => u.port == p

/-- A port's upload is closed. -/
def dropUpload (p : Port) (s : State) : State :=
  s.modStolik fun k => { k with uploads := drop? k.uploads fun u => u.port == p }

/-- KIND, LAST, PAIR, OFFSET, TOTAL_LENGTH and the data of a PUT_STRUCTURE (R408). -/
def putKind (b : Bytes) : Nat := u8 b 0
def putLast (b : Bytes) : Bool := bit (u8 b 1) 0
def putPair (b : Bytes) : Bool := bit (u8 b 1) 1
def putOffset (b : Bytes) : Nat := u32 b 4
def putTotal (b : Bytes) : Nat := u32 b 8
def putData (b : Bytes) : Bytes := b.drop 12

/-- KIND and TOTAL_LENGTH are those of R408. -/
def putKnown (b : Bytes) : Bool := decide (1 ≤ putKind b ∧ putKind b ≤ 4 ∧ putTotal b ≤ 262144)

/-- The bytes that a port's upload has received; none for a chunk that does not continue it (R409). -/
def State.continues (s : State) (p : Port) (b : Bytes) : Option Bytes :=
  match s.uploadOf p with
  | none => if putOffset b = 0 then some [] else none
  | some u =>
    if u.kind.toNat = putKind b ∧ u.pair = putPair b ∧ putOffset b = u.data.length ∧ putTotal b = u.total then some u.data
    else none

/-- Step 7 of R390: at LAST the bytes received make up TOTAL_LENGTH, and no chunk goes beyond it. -/
def putNeed (s : State) (c : Call) : Nat :=
  if c.cmd.length < 12 then 12
  else
    match s.continues c.port c.cmd with
    | none => c.cmd.length
    | some d =>
      let room := 12 + (putTotal c.cmd - d.length)
      if putLast c.cmd then room else min c.cmd.length room

/-- The whole structure, where this chunk is the last of an upload that it continues. -/
def putWhole (s : State) (c : Call) : Option Bytes :=
  if putKnown c.cmd && putLast c.cmd then (s.continues c.port c.cmd).map fun d => d ++ putData c.cmd else none

/-- The lane that a host manifest or a lane policy names. -/
def manifestLane (b : Bytes) : Fin 8 := Fin.ofNat 8 (u8 b 0x15)
def policyLane (b : Bytes) : Fin 8 := Fin.ofNat 8 (u8 b 6)

/-- The manifest held under PAIR for a lane from a port (R409). -/
def State.pairOf (s : State) (p : Port) (n : Fin 8) : Option PairHeld :=
  s.stolik.pairs.find? fun x => x.port == p && x.lane == n

/-- Acceptance of a host manifest at LAST. Under PAIR the policy that is to be active with it is not known yet, and step
11 waits for it. -/
def acceptPutManifest (s : State) (pair : Bool) (b : Bytes) : Except Failed HostManifest :=
  let n := manifestLane b
  let r := acceptManifest s n b (some (s.policyInForce n))
  match pair, r, readHostManifest b with
  | true, .error f, some (m, _) => if f.step = 11 then .ok m else r
  | _, _, _ => r

/-- The manifest that is to be active with a new policy of a lane. -/
def State.manifestToBe (s : State) (n : Fin 8) : Option HostManifest :=
  match (s.lane n).nextManifest with
  | some x => some x.2.1
  | none => (s.lane n).manifest

/-- Acceptance of a lane policy at LAST, with the manifest held for it (R155, R409). -/
def acceptPutPolicy (s : State) (p : Port) (pair : Bool) (b : Bytes) : Except Failed (LanePolicy × Option PairHeld) :=
  let n := policyLane b
  match (if pair then s.pairOf p n else none) with
  | none => (acceptPolicy s n b (s.manifestToBe n)).map fun x => (x, none)
  | some h =>
    match (readHostManifest h.data).map (·.1) with
    | none => .error ⟨.deniedPolicy, 1⟩
    | some m =>
      match acceptPolicy s n b (some m) with
      | .error f => .error f
      | .ok x =>
        match acceptManifest s n h.data (some x) with
        | .error f => .error f
        | .ok _ => .ok (x, some h)

/-- An error of an acceptance. -/
def failedOf {α : Type} : Except Failed α → Option Failed
  | .error f => some f
  | .ok _ => none

/-- Step 10 of R390 at LAST: acceptance of the whole structure by its kind. -/
def acceptPut (s : State) (c : Call) : Option Failed :=
  match putWhole s c with
  | none => none
  | some b =>
    if putKind c.cmd = 1 then failedOf (acceptPutManifest s (putPair c.cmd) b)
    else if putKind c.cmd = 2 then failedOf (acceptPutPolicy s c.port (putPair c.cmd) b)
    else if putKind c.cmd = 3 then failedOf (acceptPlatform s b)
    else failedOf (acceptAdmission s b)

/-- A fifth upload finds no room (R409). -/
def putLocks (s : State) (c : Call) : Option Res :=
  if putKnown c.cmd && (s.uploadOf c.port).isNone && decide (putOffset c.cmd = 0) && !putLast c.cmd
      && decide (4 ≤ s.stolik.uploads.length) then some .queueFull
  else none

/-- A manifest held under PAIR is discarded when another upload opens on its port, other than that of the policy it waits
for (R409). -/
def dropPairs (p : Port) (kind : Nat) (pair : Bool) (s : State) : State :=
  if kind = 2 ∧ pair then s
  else
    let gone := s.stolik.pairs.filter fun x => x.port == p
    gone.foldl (fun s x => endOp x.opId .aborted 0 s)
      (s.modStolik fun k => { k with pairs := drop? k.pairs fun x => x.port == p })

/-- A chunk before LAST is added to the port's upload, which it opens where none is open. -/
def putChunk (c : Call) (d : Bytes) (s : State) : State :=
  let s1 := if (s.uploadOf c.port).isSome then s else dropPairs c.port (putKind c.cmd) (putPair c.cmd) s
  let u : Upload := ⟨c.port, BitVec.ofNat 8 (putKind c.cmd), putPair c.cmd, putTotal c.cmd, d ++ putData c.cmd, s.tick⟩
  (dropUpload c.port s1).modStolik fun k => { k with uploads := k.uploads ++ [u] }

/-- KIND 1 at LAST (R156, R409): held under PAIR, or a manifest replacement once its lane's trackers have drained. -/
def putManifest (c : Call) (b : Bytes) (m : HostManifest) (s : State) : State :=
  let n := manifestLane b
  let o := acceptOp c 0x0201 s
  if putPair c.cmd then
    o.2.modStolik fun k => { k with pairs := k.pairs ++ [⟨c.port, n, b, o.1, s.tick⟩] }
  else
    let s1 := match (o.2.lane n).nextManifest with
      | none => o.2
      | some x => endOp x.2.2 .aborted 0 o.2
    if (s1.lane n).trackersFree then tryManifest n (b, m, o.1) s1
    else s1.modLane n fun l => { drainTrackers l with nextManifest := some (b, m, o.1) }

/-- The policy changes the lane configuration record or a remap window (R102). -/
def geometryChanged (l : Lane) (p : LanePolicy) : Bool := l.cfg != p.cfg || l.remap != p.remap

/-- KIND 2 at LAST (R101 to R104, R409): the set is loaded and waits for its swap; a pending one gives way (R103). The
new set's mirrored leaves are allocated and filled beforehand where the manifest stays (R101). -/
def putPolicy (c : Call) (b : Bytes) (p : LanePolicy) (h : Option PairHeld) (s : State) : State :=
  let n := policyLane b
  let o := acceptOp c 0x0201 s
  let s1 := match (o.2.lane n).pending with
    | none => o.2
    | some q => dropPending n q .aborted o.2
  let man := h.bind fun x => (readHostManifest x.data).map fun y => (x.data, y.1)
  let q : PendingSet :=
    { policy := p, policyBytes := b, manifest := man, manifestOp := h.map (·.opId), opId := some o.1
      geometry := geometryChanged (s1.lane n) p, drained := false }
  let s2 := s1.modLane n fun l => { l with pending := some q }
  let s3 := s2.modStolik fun k => { k with pairs := drop? k.pairs fun x => x.port == c.port && x.lane == n && h.isSome }
  let s4 := match man, (s3.lane n).manifest with
    | none, some m => mirrorNew n p.rules m s3
    | _, _ => s3
  trySwap n s4

/-- KIND 3 at LAST: stored; it takes effect under R231. -/
def putPlatform (c : Call) (b : Bytes) (s : State) : State :=
  c.reply 0x0201 .done [] (s.modNvm fun v => { v with platform := some b })

/-- PUT_STRUCTURE with what its kind does at LAST (R408, R409). SFLAGS [7:2], which R408 neither lists nor calls reserved, are
taken as reserved: a value there is refused with BAD_FRAME (DESIGN CHOICE, log 55). -/
def cmdPut (atLast : Call → Bytes → State → State) : Cmd :=
  { op := 0x0201
    level := fun _ _ => .structure_
    need := putNeed
    badField := fun _ b => (if 4 ≤ u8 b 1 then some 1 else none).or (reservedAt b 2 2)
    accept := acceptPut
    signed := fun s c => (putWhole s c).toList
    locks := putLocks
    run := fun c s =>
      if !putKnown c.cmd then c.reply 0x0201 .deniedPolicy [] s
      else
        match s.continues c.port c.cmd with
        | none => c.reply 0x0201 .aborted [] (dropUpload c.port s)
        | some d =>
          if putLast c.cmd then
            let s1 := if (s.uploadOf c.port).isSome then s else dropPairs c.port (putKind c.cmd) (putPair c.cmd) s
            atLast c (d ++ putData c.cmd) (dropUpload c.port s1)
          else c.reply 0x0201 .done [] (putChunk c d s) }

/-- KIND of a request, behind its record. -/
def reqKind (r : Req) : Nat := putKind (r.payload.drop (cmdOffset r))

/-- PUT_STRUCTURE of KIND 1. A KIND that R408 does not list comes here too, and is refused. -/
def execPutStructureHostManifest (r : Req) (s : State) : Out :=
  if reqKind r = 2 ∨ reqKind r = 3 ∨ reqKind r = 4 then .next s
  else
    .next (serve (cmdPut fun c b s => match acceptPutManifest s (putPair c.cmd) b with
      | .ok m => putManifest c b m s
      | .error _ => s) r s)

/-- PUT_STRUCTURE of KIND 2. -/
def execPutStructureLanePolicy (r : Req) (s : State) : Out :=
  if reqKind r = 2 then
    .next (serve (cmdPut fun c b s => match acceptPutPolicy s c.port (putPair c.cmd) b with
      | .ok x => putPolicy c b x.1 x.2 s
      | .error _ => s) r s)
  else .next s

/-- PUT_STRUCTURE of KIND 3. -/
def execPutStructurePlatformPolicy (r : Req) (s : State) : Out :=
  if reqKind r = 3 then .next (serve (cmdPut putPlatform) r s) else .next s

/-- STRUCTURE_UPLOAD_TIMEOUT (R409): an upload with no chunk for 60 s, or a manifest held for 60 s, is discarded. -/
def execStructureUploadTimeout (port : Port) (s : State) : Out :=
  let late := fun (t : Nat) => decide (t + 60 * ticksPerSec ≤ s.tick)
  let s1 := s.modStolik fun k => { k with uploads := drop? k.uploads fun u => u.port == port && late u.lastChunk }
  let gone := s1.stolik.pairs.filter fun x => x.port == port && late x.since
  .next (gone.foldl (fun s x => endOp x.opId .aborted 0 s)
    (s1.modStolik fun k => { k with pairs := drop? k.pairs fun x => x.port == port && late x.since }))

/-! ### Reading structures (R408) -/

/-- The active structure of a kind and lane; none where nothing is active. -/
def activeStructure (s : State) (kind lane : Nat) : Bytes :=
  match kind, (fin? lane : Option (Fin 8)) with
  | 1, some n => (((s.lane n).manifest).bind fun _ => s.activeManifest n).getD []
  | 2, some n => if (s.lane n).denyNoPolicy then [] else (s.nvm.lanePolicy[n]).getD []
  | 3, _ => if s.chuck.policy.isSome then s.chuck.policyBytes else []
  | 4, _ => if s.adm.isSome then s.nvm.admission.getD [] else []
  | _, _ => []

/-- Greatest part of an object in one response (R405). -/
def chunkBytes : Nat := 61440

/-- GET_STRUCTURE (R408). -/
def cmdGetStructure : Cmd :=
  { op := 0x0202
    need := fun _ _ => 8
    badField := fun _ b => reservedAt b 2 2
    run := fun c s =>
      let b := activeStructure s (u8 c.cmd 0) (u8 c.cmd 1)
      c.reply 0x0202 .done (leBytes 4 b.length ++ zeros 4 ++ slice b (u32 c.cmd 4) chunkBytes) s }

def execGetStructure (r : Req) (s : State) : Out := .next (serve cmdGetStructure r s)

/-! ### Configuration records (R283, R408, R512, R513) -/

/-- The first reserved byte of a record that is not zero (R4, R434, R455, R512, R535). -/
def recordReservedAt (i : Fin 4) (d : Bytes) : Option Nat :=
  match i with
  | 0 =>
    ((List.range 64).findSome? fun s =>
      let v := u64 d (8 * s)
      if bits v 7 5 ≠ 0 then some (8 * s) else if bits v 15 13 ≠ 0 then some (8 * s + 1)
      else if bits v 23 21 ≠ 0 then some (8 * s + 2) else if bits v 31 29 ≠ 0 then some (8 * s + 3)
      else if bits v 63 56 ≠ 0 then some (8 * s + 7) else none).or (reservedAt d 0x202 6)
  | 1 => reservedAt d 4 12
  | 2 =>
    (List.range 16).findSome? fun b =>
      let w := u32 d (4 * b)
      if bits w 7 6 ≠ 0 then some (4 * b) else if bits w 31 15 ≠ 0 then some (4 * b + 1) else none
  | 3 =>
    (if bits (u16 d 0) 14 12 ≠ 0 then some 1 else if 16 ≤ u8 d 2 then some 2 else if 2 ≤ u8 d 3 then some 3 else none).or
      (reservedAt d 6 10)

/-- The record that SET_CONFIG or GET_CONFIG names. -/
def recordIx (b : Bytes) : Option (Fin 4) := if u16 b 0 = 0 then none else fin? (u16 b 0 - 1)

/-- SET_CONFIG (R283, R408, R513): the store takes the record; the settings in force stay until the event of R513. -/
def cmdSetConfig : Cmd :=
  { op := 0x0203
    level := fun _ _ => .owner
    need := fun _ c => 8 + u32 c.cmd 4
    badField := fun _ b => (recordIx b).bind fun i => (recordReservedAt i (b.drop 8)).map fun k => k + 8
    run := fun c s =>
      let d := c.cmd.drop 8
      match recordIx c.cmd with
      | none => c.reply 0x0203 .deniedPolicy [] s
      | some i =>
        if u16 c.cmd 2 ≠ schemaCur then c.reply 0x0203 .incompatible [] s
        else if 4096 < d.length ∨ !recordOk s i d then c.reply 0x0203 .deniedPolicy [] s
        else
          let s1 := s.modNvm fun v => { v with records := vmod v.records i fun _ => some ⟨BitVec.ofNat 16 schemaCur, d⟩ }
          let s2 := s1.modStolik fun k =>
            { k with defaulted := drop? k.defaulted fun x => x == i, keptUnused := drop? k.keptUnused fun x => x == i }
          c.reply 0x0203 .done [] s2 }

def execSetConfig (r : Req) (s : State) : Out := .next (serve cmdSetConfig r s)

/-- The default of a record that has never been written, as a record (R436, R455, R512, R535, R591). -/
def defaultRecord (s : State) (i : Fin 4) : Bytes :=
  match i with
  | 0 => (List.range 64).flatMap (fun k => leBytes 8 (weirCfgWord k (WeirCfg.default k)))
      ++ leBytes 2 (if s.fuses.gradeE then 1150 else 900) ++ zeros 6
  | 1 => [0, 0, 0, 2] ++ zeros 12
  | 2 => (List.range 16).flatMap fun _ => [1, 0, 0, 0]
  | 3 => [0, 0, 0x0F] ++ zeros 141

/-- GET_CONFIG (R408, R512): STATE 0 in use, 1 defaulted, 2 kept unused. -/
def cmdGetConfig : Cmd :=
  { op := 0x0204
    need := fun _ _ => 4
    badField := fun _ b => reservedAt b 2 2
    run := fun c s =>
      let out := fun (schema state : Nat) (d : Bytes) =>
        c.reply 0x0204 .done (leBytes 2 schema ++ leBytes 2 state ++ leBytes 4 d.length ++ d) s
      match recordIx c.cmd with
      | none => c.reply 0x0204 .deniedPolicy [] s
      | some i =>
        match s.nvm.records[i] with
        | none => out schemaCur 1 (defaultRecord s i)
        | some x => out x.schema.toNat (if s.stolik.keptUnused.contains i then 2 else 0) x.data }

def execGetConfig (r : Req) (s : State) : Out := .next (serve cmdGetConfig r s)

end Sys2Proof.Machine
end

