-- ==== Sys2Proof/Machine/Updates.lean ====
section
/-! DEFINITION. Update locks and transfers, staging by chunks, landing, and the verify-gated path for Virund's own
components (R249 to R259, R264, R265, R285, R286, R411, R412). -/
namespace Sys2Proof.Machine
open Sys2Proof

/-! ### Targets and update locks (R250, R251) -/

/-- What a target code names (R250). -/
inductive TargetKind where
  | component (c : Fin 4)
  | window (n w : Fin 8)
  | headwater
deriving DecidableEq, Repr

/-- The target of a code; none for a reserved code (R250). -/
def targetKind (code : Nat) : Option TargetKind :=
  if 1 ≤ code ∧ code ≤ 4 then some (.component (Fin.ofNat 4 (code - 1)))
  else if 0x10 ≤ code ∧ code < 0x50 then some (.window (Fin.ofNat 8 ((code - 0x10) / 8)) (Fin.ofNat 8 (code % 8)))
  else if code = 0x60 then some .headwater
  else none

/-- The code of HEADWATER_SET. -/
def headwaterCode : Nat := 0x60

/-- A target that no port has locked. -/
def Target.idle (code : Byte) : Target :=
  { code := code, holder := none, lastFrame := 0, xfer := .none, captured := false, streamed := false, imageLen := 0,
    chunkSize := 0, manifests := [], chunks := [], data := [], reserved := 0, lastResult := .done, op := none }

/-- The lock and transfer of a target. -/
def State.target (s : State) (code : Nat) : Target :=
  (s.stolik.targets.find? fun t => t.code == BitVec.ofNat 8 code).getD (.idle (BitVec.ofNat 8 code))

/-- Changes the lock and transfer of a target. -/
def State.modTarget (s : State) (code : Nat) (f : Target → Target) : State :=
  let t := f (s.target code)
  s.modStolik fun k => { k with targets := drop? k.targets (fun x => x.code == t.code) ++ [t] }

/-- The port that holds the update lock of a target. -/
def State.lockHolder (s : State) (code : Nat) : Option Port := (s.target code).holder

/-- The update lock of a target is held by some other port. -/
def State.lockedBy (s : State) (code : Nat) (p : Port) : Bool :=
  match s.lockHolder code with
  | none => false
  | some q => q != p

/-- An update frame from the holder restarts LOCK_IDLE (R251). -/
def touchLock (code : Nat) (p : Port) (s : State) : State :=
  if s.lockHolder code = some p then s.modTarget code fun t => { t with lastFrame := s.tick } else s

/-- An UPDATE entry (R257, R282, R477): TARGET, PHASE, RESULT and MANIFEST_ID. -/
def logUpdate (code phase : Nat) (r : Res) (id : Nat) (s : State) : State :=
  logNow 0x0040 0x01 ([BitVec.ofNat 8 code, BitVec.ofNat 8 phase] ++ leBytes 2 (resCode r) ++ leBytes 8 id) s

/-- MANIFEST_ID of the manifest that a transfer brought. -/
def Target.manifestId (t : Target) : Nat := u64 (t.manifests.headD []) 0x18

/-- PHASE of a target, 0 outside windows. -/
def State.targetPhase (s : State) (code : Nat) : Nat :=
  match targetKind code with
  | some (.window n w) => phaseCode (s.win n w).phase
  | _ => 0

/-! ### Copies and staged units -/

/-- The state of a firmware copy in the commit record (R279). -/
def CompEntry.copyState (e : CompEntry) (b : Bool) : CopyState := if b then e.stateB else e.stateA

/-- A copy that holds no VALID image. -/
def markCopy (c : Fin 4) (b : Bool) (st : CopyState) (s : State) : State :=
  s.modCommit fun k =>
    { k with
      seq := k.seq + 1
      comps := vmod k.comps c fun e => if b then { e with stateB := st, crcB := 0 } else { e with stateA := st, crcA := 0 } }

/-- The copies of a component that a transfer was writing become EMPTY (R257). -/
def dropWriting (c : Fin 4) (s : State) : State :=
  let e := s.nvm.commit.comps[c]
  let s1 := if e.stateA = .writing then markCopy c false .empty s else s
  if e.stateB = .writing then markCopy c true .empty s1 else s1

/-- The staged units of a window. -/
def State.stagedUnits (s : State) (n w : Fin 8) : List StagedUnit :=
  s.staging.filter fun u => u.lane == n && u.window == w

/-- Frees the staged units of a window that meet a condition. -/
def freeStaged (n w : Fin 8) (p : StagedUnit → Bool) (s : State) : State :=
  { s with staging := s.staging.filter fun u => !(u.lane == n && u.window == w && p u) }

/-- WIN_LEN of a window, in units (R51). -/
def State.winLen (s : State) (n w : Fin 8) : Nat := ((s.lane n).remap[w]).len

/-- The staged image of a window, units that are not staged standing for 0xFF (R255). -/
def State.stagedImage (s : State) (n w : Fin 8) : Bytes :=
  let us := s.stagedUnits n w
  (List.range (s.winLen n w)).flatMap fun k =>
    match us.find? fun u => u.k == k with
    | none => List.replicate unitBytes 0xFF
    | some u => u.bytes

/-! ### The end of a transfer (R251, R257) -/

/-- The components that a transfer writes. -/
def targetComps (kind : TargetKind) : List (Fin 4) :=
  match kind with
  | .component c => [c]
  | .window _ _ => []
  | .headwater => fins 4

/-- What a transfer leaves on its target when it ends without LANDED or VALID (R257). -/
def undoTransfer (code : Nat) (s : State) : State :=
  match targetKind code with
  | none => s
  | some (.window n w) =>
    let s1 := freeStaged n w (·.chunk) s
    if (s1.win n w).phase = .landing then
      (s1.modWin n w fun x => { x with phase := .idle, inactive := .unknown }).modCommit fun c => { c with seq := c.seq + 1 }
    else s1
  | some k => (targetComps k).foldl (fun s c => dropWriting c s) s

/-- A transfer ends with a result other than LANDED or VALID: the lock is released (R251, R257). -/
def endTransfer (code : Nat) (r : Res) (s : State) : State :=
  let t := s.target code
  let s1 := logUpdate code (s.targetPhase code) r t.manifestId s
  let s2 := endOp? t.op r 0 (undoTransfer code s1)
  s2.modTarget code fun t => { Target.idle t.code with lastResult := r }

/-- A transfer has reached LANDED or VALID: its port keeps the lock (R251, R257). -/
def finishTransfer (code : Nat) (s : State) : State :=
  let t := s.target code
  let s1 := endOp? t.op .done 0 (logUpdate code (s.targetPhase code) .done t.manifestId s)
  s1.modTarget code fun t => { Target.idle t.code with holder := t.holder, lastFrame := s.tick, lastResult := .done }

/-- The lock of a target is released, and a transfer still open there ends with ABORTED (R251). -/
def releaseLock (code : Nat) (s : State) : State :=
  if (s.target code).xfer ≠ .none then endTransfer code .aborted s
  else s.modTarget code fun t => { t with holder := none }

/-! ### UPDATE_BEGIN (R252 to R255, R265, R285, R412, R598) -/

/-- Structures one after another, each of the length its header gives. -/
def splitStructs : Nat → Bytes → Option (List Bytes)
  | 0, _ => none
  | n + 1, b =>
    if b = [] then some []
    else
      let len := u32 b 8
      if len < 0x20 ∨ b.length < len then none
      else (splitStructs n (b.drop len)).map fun l => b.take len :: l

/-- The manifests of a HEADWATER_SET, of HEADSTOCK_FW, SPINDLE_FW, TENON_FW and, where present, ROM_EXTENSION (R412). -/
def setManifests (b : Bytes) : Option (List (Bytes × CompManifest)) :=
  match (splitStructs 5 b).bind fun l => l.mapM fun x => (readComponent x).map fun m => (x, m) with
  | none => none
  | some l => if l.map (·.2.target) = [2, 3, 4] ∨ l.map (·.2.target) = [2, 3, 4, 1] then some l else none

/-- Acceptance of one manifest of a set: the combination is judged once the copies are committed (R177, R286). -/
def acceptInSet (s : State) (b : Bytes) : Option Failed :=
  match acceptComponent s b (fun _ => 0) with
  | .ok _ => none
  | .error f => if f.step = 10 then none else some f

/-- The manifest of an UPDATE_BEGIN (R411). -/
def beginManifest (b : Bytes) : Bytes := b.drop 16

/-- The check of an UPDATE_BEGIN in place of step 10 of R390: the mailbox rule of R412, the lock, which is taken before
acceptance (R251, R252), and acceptance (R177). -/
def acceptBegin (s : State) (c : Call) : Option Failed :=
  let code := u8 c.cmd 0
  let b := beginManifest c.cmd
  let away := match targetKind code, c.port with
    | some (.window n _), .hp k => k != n
    | _, _ => false
  if away then some ⟨.notAuthorised, 0⟩
  else if s.lockedBy code c.port || (code == headwaterCode && s.fabric.download.isSome) then some ⟨.busyOwned, 0⟩
  else
    match targetKind code with
    | none => none
    | some (.component k) =>
      (match acceptComponent s b s.activeVersion with
      | .error f => some f
      | .ok m => if m.target = k.val + 1 then none else some ⟨.deniedPolicy, 1⟩)
    | some (.window n _) =>
      (match acceptManifest s n b (some (s.policyInForce n)) with
      | .error f => some f
      | .ok m => if m.target = n.val then none else some ⟨.deniedPolicy, 1⟩)
    | some .headwater =>
      (match setManifests b with
      | none => some ⟨.deniedPolicy, 1⟩
      | some l => (l.filterMap fun x => acceptInSet s x.1).head?)

/-- A region lies within a window. -/
def regionInside (r : Remap) (g : Region) : Bool := decide (r.base ≤ g.base) && decide (g.base + g.len ≤ r.base + r.len)

/-- A region and a window have no unit in common. -/
def regionApart (r : Remap) (g : Region) : Bool := decide (g.base + g.len ≤ r.base) || decide (r.base + r.len ≤ g.base)

/-- The region conditions of R253: no region of the new manifest lies across the window's edges, and a region index that
lies outside the window is the same in both manifests. -/
def regionsFit (r : Remap) (old : Option HostManifest) (new : HostManifest) : Bool :=
  let olds := (old.map (·.regions)).getD []
  (new.regions.all fun g => regionInside r g || regionApart r g)
    && (List.range (max olds.length new.regions.length)).all fun i =>
      match olds[i]?, new.regions[i]? with
      | some a, some b => (regionInside r a && regionInside r b) || a == b
      | some a, none => regionInside r a
      | none, some b => regionInside r b
      | none, none => true

/-- The conditions of R253 on an UPDATE_BEGIN for a window. -/
def windowBeginOk (s : State) (n w : Fin 8) (m : HostManifest) (captured : Bool) (imageLen : Nat) : Bool :=
  let r := (s.lane n).remap[w]
  r.len != 0 && regionsFit r (s.lane n).manifest m
    && (if captured then imageLen == 0 else imageLen == r.len * unitBytes)

/-- A Reservoir holds a complete set whose ROM extension manifest is the active one or the one being written (R265). -/
def romextBacked (s : State) (b : Bytes) : Bool :=
  [Sel.a, Sel.b].any fun x =>
    let r := s.res x
    r.present && !r.held && r.dir.any fun e =>
      e.isSet && e.state == .complete && e.comps.any fun y =>
        ((readComponent y.1).any fun m => m.target == 1) && (y.1 == (s.activeCopy 0).manifest || y.1 == b)

/-- The copy of a component that a transfer writes: the one that is not running, or the ROM extension's only one (R265). -/
def State.writeCopy (s : State) (c : Fin 4) : Bool := c != 0 && !s.running[c]

/-- The copy that a HEADWATER_SET writes: A where it is not usable, else B (R285). -/
def State.setCopy (s : State) (c : Fin 4) : Bool := c != 0 && copyUsable s c false

/-- The conditions of R598, R253, R254, R265 and R412 on an UPDATE_BEGIN, whose manifests are accepted. -/
def beginOk (s : State) (b : Bytes) : Bool :=
  let src := u8 b 1
  let len := u32 b 4
  let cs := u32 b 8
  let man := beginManifest b
  decide (src ≤ 1) && decide (4096 ≤ cs) && decide (cs ≤ 61440) && cs % 4096 == 0
    && match targetKind (u8 b 0) with
      | none => false
      | some (.component c) =>
        src == 0 && ((readComponent man).any fun m => m.span == len) && (c != 0 || romextBacked s man)
      | some (.window n w) => (readHostManifest man).any fun m => windowBeginOk s n w m.1 (src == 1) len
      | some .headwater =>
        s.mode == .headwater && src == 0 && (setManifests man).any fun l =>
          (l.map (·.2.span)).sum == len && l.all fun x => x.2.target != 1 || romextBacked s x.1

/-- A new transfer on a target, locked by its port. -/
def openTransfer (c : Call) (s : State) : State :=
  let code := u8 c.cmd 0
  let b := beginManifest c.cmd
  let man := if code = headwaterCode then ((setManifests b).map fun l => l.map Prod.fst).getD [] else [b]
  s.modTarget code fun t =>
    { Target.idle t.code with
      holder := some c.port
      lastFrame := s.tick
      xfer := .receiving
      captured := u8 c.cmd 1 == 1
      imageLen := u32 c.cmd 4
      chunkSize := u32 c.cmd 8
      manifests := man
      lastResult := t.lastResult }

/-- Staging units that neither a copy nor a reservation occupies. -/
def State.freeUnits (s : State) : Nat := 4096 - s.staging.length - s.reservedUnits

/-- A streamed transfer would land on a lane with an activation under way, whose proof its writes would undo (R249): refused
with BUSY_OWNED (assumption 59). -/
def streamBlocked (s : State) (b : Bytes) : Bool :=
  match targetKind (u8 b 0) with
  | some (.window n w) => u8 b 1 == 0 && decide (s.freeUnits < s.winLen n w) && s.laneActivating n
  | _ => false

/-- What a transfer begins with on its target: units reserved or a streamed landing (R255), copies in WRITING (R264). -/
def prepareTarget (c : Call) (s : State) : State :=
  let code := u8 c.cmd 0
  match targetKind code with
  | none => s
  | some (.component k) => markCopy k (s.writeCopy k) .writing s
  | some (.window n w) =>
    if u8 c.cmd 1 = 1 then s
    else if s.freeUnits < s.winLen n w then
      ((s.modTarget code fun t => { t with streamed := true }).modWin n w fun x => { x with phase := .landing }).modCommit
        fun k => { k with seq := k.seq + 1 }
    else s.modTarget code fun t => { t with reserved := s.winLen n w - (s.stagedUnits n w).length }
  | some .headwater =>
    let ks := (s.target code).manifests.filterMap fun b => (readComponent b).bind fun m => compFin m.target
    ks.foldl (fun s k => markCopy k (s.setCopy k) .writing s) s

/-- UPDATE_BEGIN for a request that names HEADWATER_SET (R397). -/
def headwaterTarget (b : Bytes) : Bool := u8 b 0 == headwaterCode

/-- An UPDATE_BEGIN whose manifest fails acceptance: it has taken the lock, so the holder's open transfer has ended with
ABORTED, and its own ends with the result (R251, R252). -/
def beginRefused (c : Call) (e : Refused) (s : State) : State :=
  let code := u8 c.cmd 0
  match acceptBegin s c with
  | none => s
  | some f =>
    if f.res ≠ e.res ∨ f.res = .busyOwned ∨ f.res = .notAuthorised ∨ targetKind code = none
        ∨ c.cmd.length ≠ 16 + u32 c.cmd 12 ∨ (reservedAt c.cmd 2 2).isSome then s
    else
      let s1 := if (s.target code).xfer = .none then s else endTransfer code .aborted s
      endTransfer code f.res (openTransfer c s1)

/-- UPDATE_BEGIN (R411). -/
def cmdBegin : Cmd :=
  { op := 0x0301
    headwater := headwaterTarget
    level := fun _ _ => .structure_
    need := fun _ c => if c.cmd.length < 16 then 16 else 16 + u32 c.cmd 12
    badField := fun _ b => reservedAt b 2 2
    accept := acceptBegin
    signed := fun _ c =>
      if u8 c.cmd 0 = headwaterCode then ((setManifests (beginManifest c.cmd)).map fun l => l.map Prod.fst).getD []
      else [beginManifest c.cmd]
    refused := beginRefused
    run := fun c s =>
      let code := u8 c.cmd 0
      if targetKind code = none then c.reply 0x0301 .deniedPolicy [] s
      else
        let s1 := if (s.target code).xfer = .none then s else endTransfer code .aborted s
        let s2 := openTransfer c s1
        if beginOk s1 c.cmd && streamBlocked s1 c.cmd then
          c.reply 0x0301 .busyOwned [] (endTransfer code .busyOwned s2)
        else if beginOk s1 c.cmd then c.reply 0x0301 .done [] (prepareTarget c s2)
        else c.reply 0x0301 .deniedPolicy [] (endTransfer code .deniedPolicy s2) }

def execUpdateBegin (r : Req) (s : State) : Out := .next (serve cmdBegin r s)

/-! ### UPDATE_CHUNK, UPDATE_END and UPDATE_ABORT (R254, R255, R257, R411, R412) -/

/-- Step 11 of a holder's command (R412). -/
def holderLocks (s : State) (c : Call) : Option Res :=
  if s.lockHolder (u8 c.cmd 0) = some c.port then none else some .busyOwned

/-- Step 11 of UPDATE_CHUNK and UPDATE_END: the transfer must not be past its UPDATE_END (R412). -/
def receivingLocks (s : State) (c : Call) : Option Res :=
  match holderLocks s c with
  | some r => some r
  | none =>
    let x := (s.target (u8 c.cmd 0)).xfer
    if x = .none ∨ x = .receiving then none else some .busyOwned

/-- The staged unit of a chunk's piece: it replaces the unit's bytes, and takes a reserved unit where there is none
(R255). -/
def putUnit (code : Nat) (n w : Fin 8) (k : Nat) (b : Bytes) (s : State) : State :=
  let u : StagedUnit := ⟨n, w, k, padTo b unitBytes 0xFF, true⟩
  match s.staged n w k with
  | some _ =>
    { s with staging := s.staging.map fun x => if x.lane = n ∧ x.window = w ∧ x.k = k then u else x }
  | none => { s.modTarget code (fun t => { t with reserved := t.reserved - 1 }) with staging := s.staging ++ [u] }

/-- A chunk is noted, in place of an earlier one of its index. -/
def noteChunk (code i : Nat) (crc : Word) (len : Nat) (s : State) : State :=
  s.modTarget code fun t => { t with chunks := drop? t.chunks (fun x => x.1 == i) ++ [(i, crc, len)] }

/-- A chunk of a window (R255). -/
def windowChunk (c : Call) (n w : Fin 8) (i : Nat) (crc : Word) (d : Bytes) (s : State) : State :=
  let code := u8 c.cmd 0
  let t := s.target code
  let first := i * t.chunkSize / unitBytes
  if t.streamed then
    c.reply 0x0302 .done [] (if t.chunks.any fun x => x.1 == i then s else noteChunk code i crc d.length s)
  else
    c.reply 0x0302 .done []
      (noteChunk code i crc d.length
        ((chunksOf unitBytes d).zipIdx.foldl (fun s x => putUnit code n w (first + x.2) x.1 s) s))

/-- A chunk of a component or a set, which must arrive in chunk order (R254). -/
def orderedChunk (c : Call) (i : Nat) (crc : Word) (d : Bytes) (s : State) : State :=
  let code := u8 c.cmd 0
  let t := s.target code
  if i = t.chunks.length then
    c.reply 0x0302 .done [] ((noteChunk code i crc d.length s).modTarget code fun t => { t with data := t.data ++ d })
  else if (t.chunks.getLast?).any fun x => x.1 == i && x.2.1 == crc then c.reply 0x0302 .done [] s
  else c.reply 0x0302 .aborted [] (endTransfer code .aborted s)

/-- A chunk goes beyond CHUNK_SIZE or IMAGE_LENGTH (R257). -/
def chunkBeyond (t : Target) (i len : Nat) : Bool :=
  decide (t.chunkSize < len) || decide (t.imageLen ≤ i * t.chunkSize) || decide (t.imageLen < i * t.chunkSize + len)

/-- UPDATE_CHUNK (R411). -/
def cmdChunk : Cmd :=
  { op := 0x0302
    headwater := headwaterTarget
    level := fun _ _ => .holder
    need := fun _ c => if c.cmd.length < 16 then 16 else 16 + u32 c.cmd 8
    badField := fun _ b => reservedAt b 1 3
    locks := receivingLocks
    run := fun c s =>
      let code := u8 c.cmd 0
      let s1 := touchLock code c.port s
      let t := s1.target code
      let i := u32 c.cmd 4
      let d := c.cmd.drop 16
      let crc := crc32c d
      if t.xfer = .none then c.reply 0x0302 .aborted [] s1
      else if crc.toNat ≠ u32 c.cmd 12 then c.reply 0x0302 .badFrame [] s1
      else if chunkBeyond t i d.length then c.reply 0x0302 .lengthLong [] (endTransfer code .lengthLong s1)
      else
        match targetKind code with
        | some (.window n w) => windowChunk c n w i crc d s1
        | _ => orderedChunk c i crc d s1 }

def execUpdateChunk (r : Req) (s : State) : Out := .next (serve cmdChunk r s)

/-- Every chunk has arrived, and none but the last is short (R257). -/
def chunksWhole (t : Target) : Bool :=
  let n := if t.chunkSize = 0 then 0 else (t.imageLen + t.chunkSize - 1) / t.chunkSize
  (List.range n).all fun i => t.chunks.any fun x => x.1 == i && (x.2.2 == t.chunkSize || i + 1 == n)

/-- UPDATE_END (R258, R264, R411): the work that follows is the operation's. -/
def cmdEnd : Cmd :=
  { op := 0x0303
    headwater := headwaterTarget
    level := fun _ _ => .holder
    need := fun _ _ => 4
    badField := fun _ b => reservedAt b 1 3
    locks := receivingLocks
    run := fun c s =>
      let code := u8 c.cmd 0
      let s1 := touchLock code c.port s
      let t := s1.target code
      if t.xfer = .none then c.reply 0x0303 .aborted [] s1
      else if !t.captured && !chunksWhole t then c.reply 0x0303 .lengthShort [] (endTransfer code .lengthShort s1)
      else
        let o := acceptOp c 0x0303 s1
        o.2.modTarget code fun t =>
          { t with xfer := if t.streamed then .landing else .checking, op := some o.1 } }

def execUpdateEnd (r : Req) (s : State) : Out := .next (serve cmdEnd r s)

/-- UPDATE_ABORT (R251, R411). -/
def cmdAbort : Cmd :=
  { op := 0x0304
    headwater := headwaterTarget
    level := fun _ _ => .holder
    need := fun _ _ => 4
    badField := fun _ b => reservedAt b 1 3
    locks := holderLocks
    run := fun c s => c.reply 0x0304 .done [] (releaseLock (u8 c.cmd 0) s) }

def execUpdateAbort (r : Req) (s : State) : Out := .next (serve cmdAbort r s)

/-- LOCK_IDLE in slow ticks (R251). -/
def lockIdle : Nat := 60 * ticksPerSec

/-- UPDATE_LOCK_IDLE (R251): it does not run while the transfer is checking, landing or writing. -/
def execUpdateLockIdle (target : Byte) (s : State) : Out :=
  let t := s.target target.toNat
  if t.holder.isSome ∧ (t.xfer = .none ∨ t.xfer = .receiving) ∧ t.lastFrame + lockIdle ≤ s.tick then
    .next (releaseLock target.toNat s)
  else .next s

/-! ### Checking and landing a window (R258, R259) -/

/-- The regions of a manifest that lie in a window, with their indices. -/
def windowRegions (m : HostManifest) (r : Remap) : List Region := m.regions.filter fun g => regionInside r g

/-- The window's roots computed over its bytes are those of the manifest (R157, R258). -/
def rootsMatch (m : HostManifest) (r : Remap) (image : Bytes) : Bool :=
  (windowRegions m r).all fun g =>
    let b := slice image ((g.base - r.base) * unitBytes) (g.len * unitBytes)
    decide (b.length = g.len * unitBytes) && decide (treeRoot ((chunksOf (g.leafUnits * unitBytes) b).map leafDigest) = g.root)

/-- The host manifest of a window's transfer. -/
def Target.hostManifest (t : Target) : Option HostManifest := ((t.manifests.head?).bind readHostManifest).map (·.1)

/-- UPDATE_ROOT_CHECK (R258, step 1 of R259). It waits while an activation of the lane is under way, whose proof the landing
would undo (R249; assumption 59). -/
def execUpdateRootCheck (lane window : Fin 8) (s : State) : Out :=
  let code := (windowCode lane window).toNat
  let t := s.target code
  match t.hostManifest with
  | none => .next s
  | some m =>
    if t.xfer ≠ .checking ∨ s.laneActivating lane then .next s
    else if rootsMatch m ((s.lane lane).remap[window]) (s.stagedImage lane window) then
      .next (((s.modWin lane window fun x => { x with phase := .landing }).modCommit fun c =>
        { c with seq := c.seq + 1 }).modTarget code fun t => { t with xfer := .landing })
    else .next (endTransfer code .badSignature s)

/-- Every flash chip that the inactive target lies on is in VIRUND (R64, R259). -/
def State.inactiveOwned (s : State) (n w : Fin 8) : Bool :=
  (fins 2).all fun f => !s.inactiveOn n w f || ((s.lane n).chips[f]).st == .virund

/-- LANDING_COMPLETE (steps 2 to 5 of R259): readBack is what the verification mode reads from the inactive target. It waits
while an activation of another window holds the lane's pending manifest slot (R249; assumption 59). -/
def execLandingComplete (lane window : Fin 8) (readBack : Bytes) (s : State) : Out :=
  let code := (windowCode lane window).toNat
  let t := s.target code
  match t.hostManifest, t.manifests.head? with
  | some m, some b =>
    if t.xfer ≠ .landing ∨ (s.win lane window).phase ≠ .landing ∨ !s.inactiveOwned lane window ∨ s.laneActivating lane then .next s
    else if rootsMatch m ((s.lane lane).remap[window]) readBack then
      let s1 := s.modWin lane window fun x =>
        { x with phase := .idle, inactive := .landed, pendingId := BitVec.ofNat 32 m.manifestId.toNat }
      let s2 := (storeManifest lane false b s1).modCommit fun c =>
        { c with seq := c.seq + 1, lanes := vmod c.lanes lane fun x => { x with pendingValid := true } }
      .next (finishTransfer code (freeStaged lane window (fun _ => true) s2))
    else .next (endTransfer code .badSignature s)
  | _, _ => .next s

/-! ### The verify-gated path (R264, R285, R286) -/

/-- The digest of a gated session agrees: the copy is committed as VALID (R264). -/
def commitComponent (code : Nat) (c : Fin 4) (s : State) : State :=
  let t := s.target code
  match (t.manifests.head?).bind readComponent, t.manifests.head? with
  | some m, some b =>
    if imageFits m t.data then finishTransfer code (commitCopy c (s.writeCopy c) t.data b false s)
    else endTransfer code .badSignature s
  | _, _ => endTransfer code .badSignature s

/-- The components of a set are committed one after another, each with ACTIVE set to its copy, until an image does not
agree with its manifest (R285). -/
def commitSetFrom : List Bytes → Bytes → State → Res × State
  | [], _, s => (.done, s)
  | b :: bs, image, s =>
    match readComponent b with
    | none => (.badSignature, s)
    | some m =>
      match compFin m.target, imageFits m (image.take m.span) with
      | some c, true => commitSetFrom bs (image.drop m.span) (commitCopy c (s.setCopy c) (image.take m.span) b true s)
      | _, _ => (.badSignature, s)

/-- The set that the commit record now names is usable and compatible (R184, R286). -/
def activeSetOk (s : State) : Bool := setOk s (candidate s 0 false) fun c => (s.nvm.commit.comps[c]).activeB

/-- A HEADWATER_SET has been received: its result (R285, R286). -/
def commitSet (ms : List Bytes) (image : Bytes) (s : State) : Res × State :=
  let r := commitSetFrom ms image s
  if r.1 = .done then (if activeSetOk r.2 then r else (.incompatible, r.2)) else r

/-- The end of Headwater: the attempt count is cleared and a CHIP reset follows (R194). -/
def headwaterDone (s : State) : State :=
  chipReset .headwaterCommit (s.modCommit fun c => { c with attempts := 0, seq := c.seq + 1 })

/-- GATED_SESSION_COMMIT (R264, R285, R286). -/
def execGatedSessionCommit (target : Byte) (s : State) : Out :=
  let code := target.toNat
  let t := s.target code
  if t.xfer ≠ .checking then .next s
  else
    let s := s.modConf fun c => { c with lengths := drop? c.lengths fun y => y.1 == .session target }
    match targetKind code with
    | some (.component c) => .next (commitComponent code c s)
    | some .headwater =>
      let r := commitSet t.manifests t.data s
      .next (if r.1 = .done then headwaterDone (finishTransfer code r.2) else endTransfer code r.1 r.2)
    | _ => .next s

/-! ### Reading and discarding (R411) -/

/-- PORT and ORIGIN of a port (R354). -/
def portByte : Port → Nat
  | .hp n => n.val
  | .mb b => 32 + b.val
  | .pl k _ => 64 + k.val

def portOrigin : Port → Nat
  | .pl _ o => o.toNat
  | _ => 0

/-- TRANSFER (R411). -/
def xferCode : XferPhase → Nat
  | .none => 0
  | .receiving => 1
  | .checking => 2
  | .landing => 3
  | .writing => 4

/-- GET_UPDATE_STATUS (R411). The holder's own frame restarts LOCK_IDLE (R251). -/
def cmdUpdateStatus : Cmd :=
  { op := 0x0309
    headwater := headwaterTarget
    need := fun _ _ => 4
    badField := fun _ b => reservedAt b 1 3
    run := fun c s =>
      let code := u8 c.cmd 0
      let s1 := touchLock code c.port s
      let t := s1.target code
      let win := match targetKind code with
        | some (.window n w) => s1.win n w
        | _ => { select := .a, phase := .idle, inactive := .unknown, pendingId := 0 }
      c.reply 0x0309 .done
        ([BitVec.ofNat 8 code, match t.holder with
            | none => 0xFF
            | some p => BitVec.ofNat 8 (portByte p)]
          ++ leBytes 2 ((t.holder.map portOrigin).getD 0)
          ++ [BitVec.ofNat 8 (xferCode t.xfer), BitVec.ofNat 8 (phaseCode win.phase), BitVec.ofNat 8 (inactiveCode win.inactive), 0]
          ++ leBytes 4 t.chunks.length ++ leBytes 4 t.imageLen ++ leBytes 4 win.pendingId.toNat
          ++ leBytes 2 (resCode t.lastResult) ++ zeros 2) s1 }

def execGetUpdateStatus (r : Req) (s : State) : Out := .next (serve cmdUpdateStatus r s)

/-- STAGE_STATUS (R411, R214). -/
def cmdStageStatus : Cmd :=
  { op := 0x030A
    run := fun c s =>
      let powered := ((List.range 4).filter s.stagingPowered).length * 1024
      let chunk := (s.staging.filter (·.chunk)).length + s.reservedUnits
      c.reply 0x030A .done
        (leBytes 2 s.freeUnits ++ leBytes 2 (powered - s.staging.length - s.reservedUnits) ++ leBytes 2 chunk ++ zeros 2
          ++ (fins 8).flatMap fun n => (fins 8).flatMap fun w => leBytes 2 (s.stagedUnits n w).length) s }

def execStageStatus (r : Req) (s : State) : Out := .next (serve cmdStageStatus r s)

/-- The lane and window that a request names in its first two bytes. -/
def laneWindow (b : Bytes) : Option (Fin 8 × Fin 8) :=
  match (fin? (u8 b 0) : Option (Fin 8)), (fin? (u8 b 1) : Option (Fin 8)) with
  | some n, some w => some (n, w)
  | _, _ => none

/-- The lane that a request names in its first byte, as a bit of LANE_MASK (R402). -/
def laneBit (b : Bytes) : Nat := if u8 b 0 < 8 then 2 ^ u8 b 0 else 0

/-- Another port holds the lock of the window, or its own transfer is past UPDATE_END. -/
def stagedBusy (s : State) (c : Call) : Option Res :=
  match laneWindow c.cmd with
  | none => none
  | some (n, w) =>
    let code := (windowCode n w).toNat
    let x := (s.target code).xfer
    if s.lockedBy code c.port || !(x == .none || x == .receiving) then some .busyOwned else none

/-- DISCARD_STAGED (R411): the window's staged units are freed; an open transfer of chunks has to send them again. -/
def cmdDiscard : Cmd :=
  { op := 0x0307
    level := fun _ b => .lane (u8 b 0)
    need := fun _ _ => 4
    badField := fun _ b => reservedAt b 2 2
    lanes := fun _ b => laneBit b
    locks := stagedBusy
    run := fun c s =>
      match laneWindow c.cmd with
      | none => c.reply 0x0307 .deniedPolicy [] s
      | some (n, w) =>
        let code := (windowCode n w).toNat
        let k := (s.stagedUnits n w).length
        let t := s.target code
        let s1 := freeStaged n w (fun _ => true) s
        let s2 := if t.xfer = .receiving ∧ !t.captured ∧ !t.streamed then
            s1.modTarget code fun t => { t with chunks := [], reserved := t.reserved + k }
          else s1
        c.reply 0x0307 .done (leBytes 2 k ++ zeros 2) s2 }

def execDiscardStaged (r : Req) (s : State) : Out := .next (serve cmdDiscard r s)

/-- STAGE_DIGEST (R411). -/
def cmdStageDigest : Cmd :=
  { op := 0x030B
    level := fun _ b => .lane (u8 b 0)
    need := fun _ _ => 4
    badField := fun _ b => reservedAt b 2 2
    lanes := fun _ b => laneBit b
    locks := fun s c => match laneWindow c.cmd with
      | none => none
      | some (n, w) => if s.lockedBy (windowCode n w).toNat c.port then some .busyOwned else none
    run := fun c s =>
      match laneWindow c.cmd with
      | none => c.reply 0x030B .deniedPolicy [] s
      | some (n, w) => c.reply 0x030B .done (hash .sha512t256 (s.stagedImage n w)) s }

def execStageDigest (r : Req) (s : State) : Out := .next (serve cmdStageDigest r s)

end Sys2Proof.Machine
end

