-- ==== Sys2Proof/Machine/Activate.lean ====
section
/-! DEFINITION. Activations of host images and of components, the refresh of Reservoir entries, and REPAIR_LANE (R252,
R260 to R263, R266, R268, R270 to R273, R276, R411, R412). -/
namespace Sys2Proof.Machine
open Sys2Proof

/-! ### The refresh of a Reservoir entry (R270 to R273) -/

/-- The state codes of a directory entry (R270). -/
def dirStateCode : DirState → Nat
  | .empty => 0
  | .writing => 1
  | .complete => 2

/-- The 32 bytes of a directory entry (R270). -/
def dirEntryBytes (e : DirEntry) : Bytes :=
  [if e.isSet then 1 else 2, BitVec.ofNat 8 e.index, BitVec.ofNat 8 (dirStateCode e.state), 0] ++ leBytes 4 e.areaOff.toNat
    ++ (if e.isSet then zeros 16
      else leBytes 4 e.digestOff.toNat ++ leBytes 4 e.digestLen.toNat ++ leBytes 4 e.shadow0.toNat ++ leBytes 4 e.shadow1.toNat)
    ++ leBytes 4 e.generation ++ zeros 4

/-- A directory copy (R270). -/
def directoryBytes (seq : Nat) (dir : List DirEntry) : Bytes :=
  let b := padTo ([0x47, 0x52, 0x44, 0x31] ++ leBytes 2 1 ++ leBytes 2 dir.length ++ leBytes 8 seq ++ zeros 48
    ++ dir.flatMap dirEntryBytes) 0xFF8 0
  b ++ leBytes 8 (crc64 b).toNat

/-- A directory copy is intact (R270). -/
def directoryIntact (b : Bytes) : Bool :=
  b.take 6 == [0x47, 0x52, 0x44, 0x31, 1, 0] && u64 b 0xFF8 == (crc64 (b.take 0xFF8)).toNat

/-- The copy in use: the intact one with the greater SEQ (R270). -/
def Reservoir.currentCopy (r : Reservoir) : Option (Fin 2) :=
  match directoryIntact r.copies[0], directoryIntact r.copies[1] with
  | true, true => some (if u64 r.copies[0] 8 < u64 r.copies[1] 8 then 1 else 0)
  | true, false => some 0
  | false, true => some 1
  | false, false => none

/-- A new directory with one entry changed: it is written into the copy that is not in use, with SEQ raised by one
(R270). -/
def setEntry (x : Sel) (i : Nat) (f : DirEntry → DirEntry) (s : State) : State :=
  s.modRes x fun r =>
    let dir := lmod r.dir i f
    let to_ : Fin 2 := if r.currentCopy = some 0 then 1 else 0
    { r with seq := r.seq + 1, dir := dir, copies := vmod r.copies to_ fun _ => directoryBytes (r.seq + 1) dir }

/-- The flash of a Reservoir can be written: no lane holds a claim on its port (R273). -/
def State.resWritable (s : State) (x : Sel) : Bool :=
  let r := s.res x
  r.present && !r.held && r.claim.isNone

/-- The position of a lane's entry in a Reservoir's directory. -/
def State.laneEntryAt (s : State) (x : Sel) (n : Fin 8) : Option Nat :=
  (s.res x).dir.findIdx? fun e => !e.isSet && e.index == n.val

/-- The lane's entry on a Reservoir is being written (R271). -/
def State.laneWriting (s : State) (x : Sel) (n : Fin 8) : Bool :=
  ((s.res x).laneEntry n).any fun e => e.state == .writing

/-- Step 1 of a refresh: the entry serves nothing from here on (R271). -/
def startRefresh (x : Sel) (i : Nat) (s : State) : State :=
  (setEntry x i (fun e => { e with state := .writing }) s).modRes x fun r => { r with refreshing := some i, rstHigh := true }

/-- Step 4 of a refresh: COMPLETE with GENERATION raised (R271). -/
def finishRefresh (x : Sel) (i : Nat) (f : DirEntry → DirEntry) (s : State) : State :=
  (setEntry x i (fun e => f { e with state := .complete, generation := e.generation + 1 }) s).modRes x fun r =>
    { r with refreshing := none, suspended := false }

/-- What a lane's entry receives: a manifest with its region roots (R270, R271). -/
def laneContent (b : Bytes) (e : DirEntry) : DirEntry :=
  { e with manifest := b, roots := ((readHostManifest b).map fun m => m.1.regions.map (·.root)).getD [] }

/-- A refreshed lane entry lists no defects, and no region of it is withdrawn (R131). -/
def clearLaneDefects (x : Sel) (n : Fin 8) (s : State) : State :=
  s.modRes x fun r =>
    { r with defects := drop? r.defects (fun d => d.1 == n), withdrawn := drop? r.withdrawn fun d => d.1 == n }

/-- How far a refresh of a lane's entry has come with one event. -/
inductive Refresh where
  | waits
  | started
  | done
deriving DecidableEq, Repr

/-- The leaf digests of each region in what was read back from a lane's areas, one image for each region (R271). -/
def readDigests (m : HostManifest) (readBack : List Bytes) : List (List Bytes) :=
  (m.regions.zip readBack).map fun x => (chunksOf (x.1.leafUnits * unitBytes) x.2).map leafDigest

/-- What was read back proves against the manifest that the entry receives (R271, R272). -/
def readBackProves (b : Bytes) (readBack : List Bytes) : Bool :=
  match readHostManifest b with
  | none => false
  | some (m, _) =>
    readBack.length == m.regions.length && (m.regions.zip (readDigests m readBack)).all fun x =>
      x.2.length == x.1.leafCount && treeRoot x.2 == x.1.root

/-- The leaf-digest file that step 3 of a refresh writes from the proved leaf digests (R179, R271). -/
def laneFile (b : Bytes) (readBack : List Bytes) (e : DirEntry) : DirEntry :=
  let f := ((readHostManifest b).map fun m => digestFile (readDigests m.1 readBack)).getD []
  { laneContent b e with file := f, digestLen := BitVec.ofNat 32 f.length }

/-- A refresh of a lane's entry from a given manifest goes one step on: it starts, and then ends with what is read back,
one image for each region (R271, R273). An entry whose read-back does not prove stays in WRITING, and is written again. A
Reservoir without such an entry has nothing to refresh. -/
def refreshLane (x : Sel) (n : Fin 8) (b : Bytes) (readBack : List Bytes) (s : State) : Refresh × State :=
  match (s.res x).present && !(s.res x).held, s.laneEntryAt x n with
  | true, some i =>
    if !s.resWritable x then (.waits, s)
    else if (s.res x).refreshing = some i then
      (if readBackProves b readBack then (.done, clearLaneDefects x n (finishRefresh x i (laneFile b readBack) s))
      else (.waits, s.modRes x fun r => { r with refreshing := none }))
    else if (s.res x).refreshing.isSome || s.laneWriting (otherSel x) n then (.waits, s)
    else (.started, startRefresh x i s)
  | _, _ => (.done, s)

/-- The active VALID copies of the firmware slots and the ROM extension, as manifest and image (R272). -/
def activeSet (s : State) : Option (List (Bytes × Bytes)) :=
  let one := fun (c : Fin 4) =>
    let e := s.nvm.commit.comps[c]
    if e.copyState e.activeB = .valid then some ((s.activeCopy c).manifest, (s.activeCopy c).image) else none
  (([1, 2, 3] : List (Fin 4)).mapM one).map fun l => l ++ (one 0).toList

/-- What an entry is to hold; none where it has no source now, as on a lane with an activation, whose prestage and follow
fix their own order (R260, R272). -/
def entrySource (s : State) (e : DirEntry) : Option (DirEntry → DirEntry) :=
  if e.isSet then (activeSet s).map fun l e => { e with comps := l }
  else
    match (fin? e.index : Option (Fin 8)) with
    | none => none
    | some n =>
      if (s.lane n).outcome = some .verified ∧ !s.laneActivating n then
        (((s.lane n).manifest).bind fun _ => s.activeManifest n).map fun b => laneContent b
      else none

/-- An entry that is not COMPLETE or disagrees with the active state is due (R272). -/
def entryDue (s : State) (e : DirEntry) : Bool :=
  match entrySource s e with
  | none => false
  | some f => e.state != .complete || f e != e

/-- The order of R272: sets before lanes, B before A, the set of lower GENERATION first, lanes in ascending order. -/
def entryKey (x : Sel) (e : DirEntry) : Nat :=
  let late := if x = .b then 0 else 1
  if e.isSet then 2 ^ 32 * late + e.generation else 2 ^ 34 + 2 * e.index + late

/-- The entries due that can be written now, with their Reservoirs and positions. -/
def dueEntries (s : State) : List (Sel × Nat × DirEntry) :=
  [Sel.b, Sel.a].flatMap fun x =>
    if !s.resWritable x then []
    else
      ((s.res x).dir.zipIdx.map fun y => (x, y.2, y.1)).filter fun y =>
        entryDue s y.2.2 && (y.2.2.isSet || !((fin? y.2.2.index : Option (Fin 8)).any fun n => s.laneWriting (otherSel x) n))

/-- The next entry to refresh. -/
def nextRefresh (s : State) : Option (Sel × Nat × DirEntry) :=
  (dueEntries s).foldl (fun best y => match best with
    | none => some y
    | some (z : Sel × Nat × DirEntry) => if entryKey y.1 y.2.2 < entryKey z.1 z.2.2 then some y else some z) none

/-- The end of the entry refresh on a Reservoir: COMPLETE where what is read back agrees, the images of a set one by one
and those of a lane's regions through their roots; else the entry stays in WRITING and is refreshed again (R271,
R272). -/
def endRefresh (x : Sel) (i : Nat) (readBack : List Bytes) (s : State) : State :=
  let again := s.modRes x fun r => { r with refreshing := none }
  match (s.res x).dir[i]? with
  | none => again
  | some e =>
    match entrySource s e, e.isSet, (fin? e.index : Option (Fin 8)) with
    | some f, true, _ => if (f e).comps.map Prod.snd = readBack then finishRefresh x i f s else again
    | some f, false, some n =>
      let b := (f e).manifest
      if readBackProves b readBack then clearLaneDefects x n (finishRefresh x i (laneFile b readBack) s) else again
    | _, _, _ => again

/-- An entry that a prestage or a follow is writing. -/
def activationEntry (s : State) (x : Sel) (i : Nat) : Bool :=
  ((s.res x).dir[i]?).any fun e => !e.isSet && (fin? e.index : Option (Fin 8)).any fun n => s.laneActivating n

/-- RESERVOIR_REFRESH (R271, R272): the refresh in progress on the Reservoir ends; where none is in progress on either
Reservoir, the next one that is due starts if it is this Reservoir's. -/
def execReservoirRefresh (res : Sel) (readBack : List Bytes) (s : State) : Out :=
  if s.mode ≠ .firmware then .next s
  else
    match (s.res res).refreshing with
    | some i =>
      if !s.resWritable res || activationEntry s res i then .next s else .next (endRefresh res i readBack s)
    | none =>
      if (s.res (otherSel res)).refreshing.isSome then .next s
      else
        match nextRefresh s with
        | none => .next s
        | some y => if y.1 = res then .next (startRefresh res y.2.1 s) else .next s

/-! ### ACTIVATE_HOST_IMAGE (R252, R260, R262, R263, R411, R412) -/

/-- MANIFEST_ID of the manifest that an activation makes active, before its flip and after it (R151, R477). -/
def State.activationId (s : State) (n : Fin 8) (flipped : Bool) : Nat :=
  manifestIdOf (if flipped then s.activeManifest n else s.pendingManifest n)

/-- An activation fails before the flip, or ends: its operation ends, and the lock of its target is released, with which a
transfer open there ends (R251, R260). -/
def endActivation (n w : Fin 8) (op : Option Word) (r : Res) (s : State) : State :=
  let code := (windowCode n w).toNat
  let s1 := logUpdate code (phaseCode (s.win n w).phase) r (s.activationId n (r == .done)) s
  let s2 := releaseLock code (endOp? op r 0 s1)
  s2.modStolik fun k => { k with activations := drop? k.activations fun a => a.lane == n && a.window == w }

/-- Units of mirror memory that no leaf occupies. -/
def State.mirrorFree (s : State) : Nat := (12 * bankBytes - (s.mirror.map (·.size)).sum) / unitBytes

/-- The units of the window's leaves that the rules in force mirror (R262). -/
def newMirrored (s : State) (n w : Fin 8) (m : HostManifest) : Nat :=
  let l := s.lane n
  let ls := (windowLeaves m (l.remap[w])).filter fun r => (mirroredLeaves l.rules m).contains r
  (ls.map fun r => leafSize m r.region).sum / unitBytes

/-- Step 1 of R260 with R262: the result of the check that fails. -/
def activationStep1 (s : State) (n w : Fin 8) (now previous : Bool) : Option Res :=
  let want := if previous then Inactive.previous else Inactive.landed
  if (s.win n w).inactive ≠ want ∨ !(s.nvm.commit.lanes[n]).pendingValid then some .deniedPolicy
  else
    match s.incoming n with
    | none => some .deniedPolicy
    | some m =>
      match recheckManifest s n m.1 none with
      | some f => some f.res
      | none => if now ∧ s.mirrorFree < newMirrored s n w m.2 then some .deniedPolicy else none

/-- The lane has an activation that has not reached phase IDLE, or the window is landing (R252). -/
def activateLocks (s : State) (c : Call) : Option Res :=
  match laneWindow c.cmd with
  | none => none
  | some (n, w) => if s.laneActivating n || (s.win n w).phase != .idle then some .busyOwned else none

/-- ACTIVATE_HOST_IMAGE (R411). AFLAGS bits [15:4], of which R411 says nothing, are held to zero as reserved ones are
(DESIGN CHOICE, assumption 55). -/
def cmdActivateHost : Cmd :=
  { op := 0x0305
    level := fun _ b => .lane (u8 b 0)
    need := fun _ _ => 4
    badField := fun _ b => if 16 ≤ u8 b 2 then some 2 else reservedAt b 3 1
    lanes := fun _ b => laneBit b
    locks := activateLocks
    run := fun c s =>
      let f := u8 c.cmd 2
      let now := bit f 0
      let previous := bit f 3
      match laneWindow c.cmd with
      | none => c.reply 0x0305 .deniedPolicy [] s
      | some (n, w) =>
        if now && (bit f 1 || previous) then c.reply 0x0305 .deniedPolicy [] s
        else
          let o := acceptOp c 0x0305 s
          match activationStep1 o.2 n w now previous with
          | some r => endActivation n w (some o.1) r o.2
          | none =>
            o.2.modStolik fun k =>
              { k with activations := k.activations ++ [⟨n, w, now, bit f 2, previous, 2, o.1, []⟩] } }

def execActivateHostImage (r : Req) (s : State) : Out := .next (serve cmdActivateHost r s)

/-- An activation goes on to a step. -/
def setStep (n w : Fin 8) (f : Activation → Activation) (s : State) : State :=
  s.modStolik fun k => { k with activations := k.activations.map fun a => if a.lane = n ∧ a.window = w then f a else a }

/-- A window's phase is written to the commit record (R278, R280). -/
def setPhase (n w : Fin 8) (p : Phase) (s : State) : State :=
  (s.modWin n w fun x => { x with phase := p }).modCommit fun c => { c with seq := c.seq + 1 }

/-- ACTIVATION_PREFLIP_CHECK (step 2 of R260): readBack is what the verification mode reads from the inactive target. -/
def execActivationPreflipCheck (lane window : Fin 8) (readBack : Bytes) (s : State) : Out :=
  match s.activationAt lane window 2, s.incoming lane with
  | some a, some m =>
    if rootsMatch m.2 ((s.lane lane).remap[window]) readBack then
      .next (setPhase lane window .prestaging (setStep lane window (fun a => { a with step := 3, image := readBack }) s))
    else
      .next (endActivation lane window (some a.op) .badSignature
        ((s.modWin lane window fun x => { x with inactive := .unknown }).modCommit fun c => { c with seq := c.seq + 1 }))
  | some a, none => .next (endActivation lane window (some a.op) .deniedPolicy s)
  | none, _ => .next s

/-- RESEQUENCE asks Chuck to re-sequence the hosts of the lane, so that the flip finds them held (R242, R260). -/
def askResequence (n : Fin 8) (s : State) : State := (s.laneHosts n).foldl (fun s h => resequence h s) s

/-- PRESTAGE (step 3 of R260): the lane's entry on the Reservoir that RES_PREF does not name takes the new manifest. Then
the flip waits. -/
def execPrestage (lane window : Fin 8) (readBack : List Bytes) (s : State) : Out :=
  match s.activationAt lane window 3, s.incoming lane with
  | some a, some m =>
    let r := refreshLane (otherSel (s.lane lane).verify.resPref) lane m.1 readBack s
    if r.1 = .done then
      let s1 := setStep lane window (fun a => { a with step := 5 }) r.2
      .next (if a.reseq then askResequence lane s1 else s1)
    else .next r.2
  | _, _ => .next s

/-- COUNTER_RAISE (step 7 of R260, R261). -/
def execCounterRaise (lane window : Fin 8) (s : State) : Out :=
  if (s.win lane window).phase = .flipped then
    let c := ((s.lane lane).manifest.map (·.counter)).getD 0
    .next (setPhase lane window .following (setStep lane window (fun a => { a with step := 8 }) (raiseCounter c s)))
  else .next s

/-- FOLLOW (step 8 of R260): the lane's entry on the Reservoir that RES_PREF names follows, and the activation ends. A
follow that a reset cut off is repeated in the same way (R282). -/
def execFollow (lane window : Fin 8) (readBack : List Bytes) (s : State) : Out :=
  match (s.win lane window).phase, s.activeManifest lane with
  | .following, some b =>
    let r := refreshLane (s.lane lane).verify.resPref lane b readBack s
    if r.1 = .done then
      let op := (r.2.activationAt lane window 8).map (·.op)
      .next (endActivation lane window op .done (setPhase lane window .idle r.2))
    else .next r.2
  | _, _ => .next s

/-! ### ACTIVATE_COMPONENT (R252, R265, R266, R268, R411) -/

/-- The manifest that a component will have once one component has been activated on a copy (R266). -/
def activatedManifest (s : State) (c : Fin 4) (b : Bool) (k : Fin 4) : Option CompManifest :=
  readComponent (if k = c then s.fwCopy c b else s.activeCopy k).manifest

/-- Every component of the combination that the request would leave is compatible with it (step 10 of R177, R266). A ROM
extension that cannot run counts as none. -/
def combinationOk (s : State) (c : Fin 4) (b : Bool) : Bool :=
  let romext := candidate s 0 false
  let ver := fun (k : Fin 4) => if k = 0 && !romext then 0 else ((activatedManifest s c b k).map (·.version)).getD 0
  (fins 4).all fun k =>
    (k == 0 && !romext) ||
      match activatedManifest s c b k with
      | none => false
      | some m => compatOk m ver

/-- The checks of R178 and R266 on a component's new copy. -/
def componentStep1 (s : State) (c : Fin 4) (b : Bool) : Option Res :=
  if (s.nvm.commit.comps[c]).copyState b ≠ .valid then some .deniedPolicy
  else
    match readComponent (s.fwCopy c b).manifest with
    | none => some .deniedPolicy
    | some m =>
      match recheckBlks s (compBlks s m) with
      | some f => some f.res
      | none =>
        if m.version < s.counter m.counter then some .rollback
        else if !combinationOk s c b then some .incompatible
        else none

/-- ACTIVE is written with ATTEMPT_COUNT = 0 (step 1 of R268), and the counter waits for FW_STARTED (R279). -/
def writeActive (c : Fin 4) (b : Bool) (s : State) : State :=
  s.modCommit fun k =>
    { k with
      seq := k.seq + 1
      attempts := 0
      raisePending := k.raisePending ||| BitVec.ofNat 4 (2 ^ c.val)
      comps := vmod k.comps c fun e => { e with activeB := b } }

/-- Every operation that has answered ACCEPTED ends with ABORTED, and the locks are released (step 2 of R268). -/
def abortOps (s : State) : State :=
  let s1 := s.stolik.targets.foldl (fun s t => releaseLock t.code.toNat s) s
  (s1.stolik.ops.filter fun o => !o.ended).foldl (fun s o => endOp o.id .aborted 0 s) s1

/-- The activation pause up to the WARM reset (steps 2 and 3 of R268). -/
def startPause (s : State) : State := warmReset { abortOps s with planned := true }

/-- ACTIVATE_COMPONENT (R411). A ROM extension takes effect at the next POR or CHIP reset, with no pause (R266). -/
def cmdActivateComponent : Cmd :=
  { op := 0x0306
    level := fun _ _ => .owner
    need := fun _ _ => 4
    badField := fun _ b => reservedAt b 1 3
    run := fun c s =>
      let code := u8 c.cmd 0
      match compFin code with
      | none => c.reply 0x0306 .deniedPolicy [] s
      | some k =>
        let b := s.writeCopy k
        let free := releaseLock code
        match componentStep1 s k b with
        | some r => c.reply 0x0306 r [] (free s)
        | none =>
          let s1 := c.reply 0x0306 .done [] (free (logUpdate code 0 .done
            (((readComponent (s.fwCopy k b).manifest).map (·.manifestId)).getD 0) (writeActive k b s)))
          if k = 0 then s1 else startPause s1 }

def execActivateComponent (r : Req) (s : State) : Out := .next (serve cmdActivateComponent r s)

/-! ### REPAIR_LANE (R276, R411) -/

/-- A Reservoir serves the lane: some region of it is redirect-ready (R138). -/
def State.reservoirServes (s : State) (n : Fin 8) : Bool :=
  (List.range (((s.lane n).manifest.map (·.regions.length)).getD 0)).any fun i =>
    s.redirectReady .a n i || s.redirectReady .b n i

/-- REPAIR_LANE (R411): the repairs of the lane's BAD and ERROR leaves start; the operation ends with the last of them. -/
def cmdRepairLane : Cmd :=
  { op := 0x0308
    level := fun _ _ => .owner
    need := fun _ _ => 4
    badField := fun _ b => reservedAt b 1 3
    lanes := fun _ b => laneBit b
    run := fun c s =>
      match (fin? (u8 c.cmd 0) : Option (Fin 8)) with
      | none => c.reply 0x0308 .deniedPolicy [] s
      | some n =>
        if !s.reservoirServes n then c.reply 0x0308 .deniedPolicy [] s
        else
          let o := acceptOp c 0x0308 s
          let s1 := endOp? (o.2.lane n).repairOp .aborted 0 o.2
          let todo := s1.repairable n
          if todo = [] then endOp o.1 .done 0 (s1.modLane n fun l => { l with repairOp := none, repairLeft := [] })
          else s1.modLane n fun l => { l with repairOp := some o.1, repairLeft := todo } }

def execRepairLane (r : Req) (s : State) : Out := .next (serve cmdRepairLane r s)

end Sys2Proof.Machine
end

