-- ==== Sys2Proof/Machine/X509.lean ====
section
/-! DEFINITION. The X.509 Alias certificate in DER (R293). R293 gives the fields; the ASN.1 around them is that of RFC 5280,
RFC 5480, RFC 5758 and the TCG DICE Attestation Architecture (PRESUMED, assumption 6). -/
namespace Sys2Proof.Machine
open Sys2Proof

/-! ### DER -/

/-- The length octets of a DER value. -/
def derLen (n : Nat) : Bytes :=
  if n < 0x80 then [BitVec.ofNat 8 n]
  else if n < 0x100 then [0x81, BitVec.ofNat 8 n]
  else [0x82, BitVec.ofNat 8 (n / 256), BitVec.ofNat 8 n]

/-- A DER value: tag, length, contents. -/
def der (tag : Byte) (b : Bytes) : Bytes := tag :: (derLen b.length ++ b)

def derSeq (l : List Bytes) : Bytes := der 0x30 l.flatten
def derOid (b : Bytes) : Bytes := der 0x06 b
def derUtf8 (t : String) : Bytes := der 0x0C (ascii t)
def derBits (b : Bytes) : Bytes := der 0x03 (0 :: b)
def derOctets (b : Bytes) : Bytes := der 0x04 b

/-- The contents of a non-negative INTEGER whose big-endian bytes are b: the fewest octets whose first bit is 0. -/
def intContents (b : Bytes) : Bytes :=
  match b.dropWhile fun x => x == 0 with
  | [] => [0]
  | x :: t => if x.msb then 0 :: x :: t else x :: t

def derInt (b : Bytes) : Bytes := der 0x02 (intContents b)

/-- An object identifier of the TCG DICE arc 2.23.133.5.4. -/
def oidDice (n : Byte) : Bytes := derOid [0x67, 0x81, 0x05, 0x05, 0x04, n]

/-- An object identifier of the certificate-extension arc 2.5.29. -/
def oidExt (n : Byte) : Bytes := derOid [0x55, 0x1D, n]

/-- An extension, critical or not. -/
def x509Ext (oid : Bytes) (critical : Bool) (value : Bytes) : Bytes :=
  derSeq ([oid] ++ (if critical then [der 0x01 [0xFF]] else []) ++ [derOctets value])

/-! ### The fields of R293 -/

/-- The contents of the subjectPublicKey BIT STRING: the uncompressed point. -/
def spkContents (point : Bytes) : Bytes := 4 :: point

/-- serialNumber. -/
def x509Serial (point : Bytes) : Bytes :=
  match (sha384 (spkContents point)).take 16 with
  | [] => []
  | x :: t => (x &&& 0x7F) :: t

/-- subjectKeyIdentifier. -/
def x509KeyId (point : Bytes) : Bytes := (sha384 (spkContents point)).take 20

/-- An upper-case hexadecimal digit. -/
def hexDigit (n : Nat) : Byte := BitVec.ofNat 8 (if n < 10 then 0x30 + n else 0x37 + n)

/-- DEVICE_SERIAL as 16 upper-case hexadecimal digits. -/
def serialHex (n : Nat) : Bytes := (List.range 16).map fun i => hexDigit (n / 16 ^ (15 - i) % 16)

/-- A name CN, O = Tvedvaholt, serialNumber. -/
def x509Name (cn : String) (serial : Nat) : Bytes :=
  let rdn := fun (n : Byte) (v : Bytes) => der 0x31 (derSeq [derOid [0x55, 0x04, n], v])
  derSeq [rdn 3 (derUtf8 cn), rdn 10 (derUtf8 "Tvedvaholt"), rdn 5 (der 0x13 (serialHex serial))]

/-- ecdsa-with-SHA384. -/
def x509SigAlg : Bytes := derSeq [derOid [0x2A, 0x86, 0x48, 0xCE, 0x3D, 0x04, 0x03, 0x03]]

/-- validity: the time of manufacture test to 99991231235959Z. -/
def x509Validity : Bytes :=
  derSeq [der 0x17 ((List.range 12).map Config.manufactureTime ++ ascii "Z"), der 0x18 (ascii "99991231235959Z")]

/-- subjectPublicKeyInfo. -/
def x509Spki (point : Bytes) : Bytes :=
  derSeq [derSeq [derOid [0x2A, 0x86, 0x48, 0xCE, 0x3D, 0x02, 0x01], derOid [0x2B, 0x81, 0x04, 0x00, 0x22]], derBits (spkContents point)]

/-- A layer of MultiTcbInfo. -/
def tcbInfo (layer : Byte) (svn : Option Nat) (alg : Byte) (fwid : Bytes) (flags vendorInfo : Option Bytes) : Bytes :=
  let opt := fun (x : Option Bytes) (tag : Byte) => match x with
    | none => []
    | some b => [der tag b]
  derSeq ([der 0x80 (ascii "Tvedvaholt"), der 0x81 (ascii "LFG-6408")]
    ++ opt (svn.map fun n => intContents (beBytes 4 n)) 0x83
    ++ [der 0x84 [layer], der 0xA6 (derSeq [derOid [0x60, 0x86, 0x48, 0x01, 0x65, 0x03, 0x04, 0x02, alg], derOctets fwid])]
    ++ opt flags 0x87 ++ opt vendorInfo 0x88)

/-- What the key block builds the X.509 Alias certificate from: the two public points, DEVICE_SERIAL, UEID, and the inputs of
CDI_ALIAS (R288, R290). -/
structure AliasInputs where
  dev : Bytes
  point : Bytes
  serial : Nat
  ueid : Bytes
  dRomext : Bytes
  dHs : Bytes
  vHs : Nat
  debug : Bool
  lc : Byte
deriving DecidableEq, Repr

/-- MultiTcbInfo: the ROM, ROM_EXTENSION and HEADSTOCK_FW. -/
def multiTcbInfo (a : AliasInputs) : Bytes :=
  derSeq [tcbInfo 0 none 2 romDigest none none, tcbInfo 1 none 6 a.dRomext none none,
    tcbInfo 2 (some a.vHs) 6 a.dHs (some (if a.debug then [4, 0x10] else [0])) (some [a.lc])]

/-- The extensions of the Alias certificate. -/
def aliasExtensions (a : AliasInputs) : Bytes :=
  derSeq
    [x509Ext (oidExt 0x0E) false (derOctets (x509KeyId a.point)),
      x509Ext (oidExt 0x23) false (derSeq [der 0x80 (x509KeyId a.dev)]),
      x509Ext (oidExt 0x13) true (derSeq []),
      x509Ext (oidExt 0x0F) true (der 0x03 [7, 0x80]),
      x509Ext (oidDice 4) false (derSeq [derOctets a.ueid]),
      x509Ext (oidDice 5) false (multiTcbInfo a)]

/-- The to-be-signed body of the X.509 Alias certificate (R290, R293). -/
def aliasTbs (a : AliasInputs) : Bytes :=
  derSeq [der 0xA0 (derInt [2]), derInt (x509Serial a.point), x509SigAlg, x509Name "Virund DeviceID" a.serial, x509Validity,
    x509Name "Virund Alias" a.serial, x509Spki a.point, der 0xA3 (aliasExtensions a)]

/-- The certificate: body, algorithm, and an ECDSA signature r, s as DER. -/
def x509Cert (tbs sig : Bytes) : Bytes :=
  derSeq [tbs, x509SigAlg, derBits (derSeq [derInt (sig.take 48), derInt (sig.drop 48)])]

end Sys2Proof.Machine
end

