-- ==== Sys2Proof/Machine/Alias.lean ====
section
/-! DEFINITION. The DeviceID and Alias key pairs, the signatures that they make, and the Alias certificates (R288 to R294,
R318, R367, R371, R413). -/
namespace Sys2Proof.Machine
open Sys2Proof

/-! ### Key pairs (R288, R289) -/

/-- A key pair of R289, named by the secret it comes from and its two labels. -/
structure KeyPair where
  cdi : Bytes
  ec : Bytes
  ml : Bytes
deriving DecidableEq, Repr

/-- The DeviceID and the Alias key pairs. -/
def State.devicePair (s : State) : Option KeyPair :=
  s.keys.cdiDev.map fun c => ⟨c, ascii "VRND-DEVID-EC", ascii "VRND-DEVID-ML"⟩

def State.aliasPair (s : State) : Option KeyPair :=
  s.keys.cdiAlias.map fun c => ⟨c, ascii "VRND-ALIAS-EC", ascii "VRND-ALIAS-ML"⟩

/-- The P-384 private key and the ML-DSA-87 seed of a pair (R288, R289). -/
def KeyPair.scalar (k : KeyPair) : Nat := ecScalar .p384 (hkdfExpand .sha384 k.cdi k.ec 56)
def KeyPair.seed (k : KeyPair) : Bytes := hkdfExpand .sha384 k.cdi k.ml 32

/-- The HYBRID key block of a pair (R165). -/
def KeyPair.block (k : KeyPair) : Bytes :=
  [1, 0, 0, 0] ++ leBytes 4 2696 ++ ecPublic .p384 k.scalar ++ mldsaPublic k.seed

/-- A key identifier (R294). -/
def keyId (block : Bytes) : Bytes := (sha384 block).take 8

/-- The Mandrel that takes a class-2 job of the key block with a key (R328, R329, R379): of the class-2 reserve the one where the
key is resident, one without a key, any; else another that the class may use. -/
def keyMandrel (key : Bytes) (s : State) : Option (Fin 8) :=
  let free := fun (m : Fin 8) =>
    (s.mandrel m).inService && (s.mandrel m).job.isNone && !(s.mandrel m).wiping && (!s.chuck.mainFromVsb || vsbMandrel m)
  let mine := (s.reserveMandrels 2).filter free
  ((mine.find? fun m => (s.mandrel m).secret && (s.mandrel m).mem == [key]).or
    (mine.find? fun m => !(s.mandrel m).secret)).or
    (mine.head?.or ((fins 8).find? fun m => free m && ((s.mandrel m).reserve.all fun c => decide (2 ≤ c.val))))

/-- A job of the key block with a secret key ends (R375, R377, R379). With RETAIN_KEY on a Mandrel of the class-2 reserve, the key
stays in its operand memory; otherwise the job ends with the wipe. -/
def keyJob (retain : Bool) (key : Bytes) (s : State) : State :=
  match keyMandrel key s with
  | none => s
  | some m =>
    let kept := retain && !s.chuck.mainFromVsb && (s.mandrel m).reserve == some 2
    noteJob (.mandrel m) ((powerEngine (.mandrel m) s).modMandrel m fun x =>
      { x with owner := .keyBlock, secret := kept, mem := if kept then [key] else [], lastUse := s.tick })

/-- An ECDSA P-384 signature over the SHA-384 of a message, with a nonce seed from the entropy source (R371). A job that
ends RETRY_EXHAUSTED is repeated; its result is then a free value. -/
def signEc (retain : Bool) (k : KeyPair) (m : Bytes) (s : State) : Bytes × State :=
  let d := drawBytes 56 (keyJob retain (beBytes 48 k.scalar) s)
  match ecdsaSign .p384 k.scalar (sha384 m) d.1 with
  | some b => (b, d.2)
  | none => drawBytes 96 d.2

/-- A HYBRID signature value (R166, R367). -/
def signHybrid (retain : Bool) (k : KeyPair) (m : Bytes) (s : State) : Bytes × State :=
  let e := signEc retain k m s
  let t := keyJob retain k.seed e.2
  (e.1 ++ mldsaSign k.seed (mldsaMu (mldsaPublic k.seed) m) t.free, { t with free := t.free + 1 })

/-! ### The Alias certificates (R290, R292 to R294) -/

/-- UEID (R293). -/
def ueid (s : State) : Bytes := 1 :: (sha384 (ascii "VRND-UEID" ++ leBytes 8 s.fuses.serial.toNat)).take 16

/-- The bytes of a GIC1 Alias certificate before its signature (R294). -/
def gicAliasBody (s : State) (dev alias_ : KeyPair) : Bytes :=
  let h := headstockId s
  [0x47, 0x49, 0x43, 0x31, 1, 0, 2, BitVec.ofNat 8 (lcCode s.lc)] ++ leBytes 4 7579 ++ leBytes 4 2856
    ++ leBytes 8 s.fuses.serial.toNat ++ ueid s ++ zeros 7 ++ s.keys.dRomext
    ++ h.1 ++ leBytes 4 h.2 ++ keyId dev.block ++ zeros 4
    ++ ownerDigest s ++ alias_.block

/-- The X.509 Alias certificate with its ECDSA signature by the DeviceID key (R290, R293). -/
def signX509Alias (dev alias_ : KeyPair) (s : State) : Bytes × State :=
  let h := headstockId s
  let tbs := aliasTbs
    { dev := ecPublic .p384 dev.scalar, point := ecPublic .p384 alias_.scalar, serial := s.fuses.serial.toNat, ueid := ueid s
      dRomext := s.keys.dRomext, dHs := h.1, vHs := h.2, debug := s.keys.debugUnlocked, lc := BitVec.ofNat 8 (lcCode s.lc) }
  let g := signEc false dev tbs s
  (x509Cert tbs g.1, g.2)

/-- ALIAS_CERTS_SIGNED (R290, R292, R531): the three signatures of the batch have been made; with retry, a signing ended
RETRY_EXHAUSTED and is repeated with fresh randomness. -/
def execAliasCertsSigned (retry : Bool) (s : State) : Out :=
  match s.devicePair, s.aliasPair with
  | some d, some a =>
    if !s.keys.batchOpen ∨ (s.mode ≠ .firmware ∧ s.mode ≠ .paused ∧ s.mode ≠ .headwater) then .next s
    else if retry then .next { s with free := s.free + 1 }
    else
      let body := gicAliasBody s d a
      let g := signHybrid false d body s
      let x := signX509Alias d a g.2
      .next (x.2.modKeys fun k =>
        { k with batchOpen := false, aliasReady := true, gicAlias := body ++ g.1, x509Alias := x.1 })
  | _, _ => .next s

/-! ### GET_CERTIFICATES (R318, R413) -/

/-- A slot's token is current (R315). -/
def tokenCurrent (now : Nat) (x : Slot) (t : Issued) : Bool :=
  x.state == .admitted && decide (now < t.notAfter) && decide (x.tokenFloor ≤ t.serial)

/-- The key identifier of the Alias that a GIC1 certificate certifies. -/
def gicKeyId (b : Bytes) : Bytes := keyId (slice b 0xA0 2696)

/-- The earlier Alias certificates whose key signed a token that is still current (R318). -/
def neededEarlier (s : State) : List Bytes :=
  s.keys.gicEarlier.filter fun b =>
    s.nvm.slots.toList.any fun x => x.issued.any fun t => t.keyId == gicKeyId b && tokenCurrent s.time x t

/-- The X.509 chain of slot 0: Identity Root, Device CA, DeviceID, Alias (R293, R295). -/
def x509Chain (s : State) : Bytes := s.nvm.x509Chain ++ s.keys.x509Alias

/-- The Alias certificates exist (R292). -/
def State.certsReady (s : State) : Bool := s.keys.aliasReady

/-- Requests that R292 answers with BUSY_OWNED before then. -/
def aliasLocks (s : State) (_ : Call) : Option Res := if s.certsReady then none else some .busyOwned

/-- GET_CERTIFICATES. A FORM that R413 does not list has no object. -/
def cmdGetCertificates : Cmd :=
  { op := 0x0401
    need := fun _ _ => 8
    badField := fun _ b => reservedAt b 1 3
    locks := aliasLocks
    run := fun c s =>
      let out := fun (b : Bytes) =>
        c.reply 0x0401 .done (leBytes 4 b.length ++ zeros 4 ++ slice b (u32 c.cmd 4) chunkBytes) s
      match u8 c.cmd 0 with
      | 0 => out (x509Chain s)
      | 1 => out s.nvm.gicDevice
      | 2 => out s.keys.gicAlias
      | 3 => out (neededEarlier s).flatten
      | _ => c.reply 0x0401 .deniedPolicy [] s }

def execGetCertificates (r : Req) (s : State) : Out := .next (serve cmdGetCertificates r s)

end Sys2Proof.Machine
end

