-- ==== Sys2Proof/Machine/Spdm.lean ====
section
/-! DEFINITION. The SPDM responder (R292, R295 to R297). The manual gives its parameters, its certificates and its
measurement blocks; the layouts of messages, transcripts and signed values are those of DMTF DSP0274 (PRESUMED,
assumption 20). -/
namespace Sys2Proof.Machine
open Sys2Proof

/-- A bus works, with its Tenon (R431, R433). -/
def State.busWorks (s : State) (b : Fin 16) : Bool :=
  s.mode == .firmware && s.lanesPowered && !s.inBlockReset 49 b.val && !s.inBlockReset (Fin.ofNat 64 (18 + b.val / 4)) 0

/-- The responder answers on a bus configured in the target role (R295). -/
def State.spdmServes (s : State) (b : Fin 16) : Bool := s.busWorks b && s.buses[b].role == 0b01

/-- A response leaves on its bus. -/
def spdmAnswer (b : Fin 16) (out : Bytes) (f : Spdm → Spdm) (s : State) : State :=
  s.modBus b fun x => { x with spdmOut := some out, spdm := f x.spdm }

/-- An ERROR response (DSP0274) with its code. -/
def spdmError (b : Fin 16) (version : Byte) (code : Byte) (s : State) : State :=
  spdmAnswer b [version, 0x7F, code, 0] id s

/-- Codes of ERROR. -/
def errInvalid : Byte := 0x01
def errBusy : Byte := 0x03
def errUnexpected : Byte := 0x04
def errVersion : Byte := 0x41

/-- A request reaches its command: its code, its version, its stage and its length agree. -/
inductive SpdmGate where
  | silent
  | fails (version code : Byte)
  | pass (version : Byte)
deriving DecidableEq, Repr

/-- The checks that every request but GET_VERSION meets: a request on a bus in the target role, of the version settled
(any of R295 for GET_CAPABILITIES), not before its stage, with its fixed part whole. -/
def spdmGate (code : Byte) (stage len : Nat) (r : SpdmReq) (s : State) : SpdmGate :=
  let x := s.buses[r.bus].spdm
  let v := r.msg.headD 0
  if !s.spdmServes r.bus || r.msg.getD 1 0 != code then .silent
  else if x.stage < stage then .fails 0x12 errUnexpected
  else if v != 0x12 && v != 0x13 then .fails 0x12 errVersion
  else if 1 < stage ∧ v ≠ x.version then .fails x.version errVersion
  else if r.msg.length < len then .fails v errInvalid
  else .pass v

/-- SPDM_GET_VERSION: versions 1.2 and 1.3. An exchange in progress is given up. -/
def execSpdmGetVersion (r : SpdmReq) (s : State) : Out :=
  if !s.spdmServes r.bus || r.msg.getD 1 0 != 0x84 then .next s
  else if r.msg.headD 0 ≠ 0x10 then .next (spdmError r.bus 0x10 errVersion s)
  else
    let out : Bytes := [0x10, 0x04, 0, 0, 0, 2, 0x00, 0x12, 0x00, 0x13]
    .next (spdmAnswer r.bus out (fun _ => { Spdm.none with stage := 1, vca := r.msg ++ out }) s)

/-- Capability flags of R295 at their places in DSP0274: CERT_CAP 1, CHAL_CAP 2, MEAS_CAP 3 to 4, MEAS_FRESH_CAP 5,
CHUNK_CAP 17, ALIAS_CERT_CAP 18. -/
def spdmFlags (version : Byte) : Nat := 0x20036 + (if version = 0x13 then 0x40000 else 0)

/-- SPDM_GET_CAPABILITIES. -/
def execSpdmGetCapabilities (r : SpdmReq) (s : State) : Out :=
  match spdmGate 0xE1 1 20 r s with
  | .silent => .next s
  | .fails v c => .next (spdmError r.bus v c s)
  | .pass v =>
    let out : Bytes := [v, 0x61, 0, 0, 0, 12, 0, 0] ++ leBytes 4 (spdmFlags v) ++ leBytes 4 1024 ++ leBytes 4 16384
    .next (spdmAnswer r.bus out (fun x => { x with stage := 2, version := v, vca := x.vca ++ r.msg ++ out }) s)

/-- SPDM_NEGOTIATE_ALGORITHMS: P-384 with SHA-384, where the requester offers them. -/
def execSpdmNegotiateAlgorithms (r : SpdmReq) (s : State) : Out :=
  match spdmGate 0xE3 2 32 r s with
  | .silent => .next s
  | .fails v c => .next (spdmError r.bus v c s)
  | .pass v =>
    let spec : Byte := r.msg.getD 6 0 &&& 1
    let asym := if bit (u32 r.msg 8) 7 then 0x80 else 0
    let hash := if bit (u32 r.msg 12) 1 then 2 else 0
    let out : Bytes := [v, 0x63, 0, 0] ++ leBytes 2 36 ++ [spec, 0] ++ leBytes 4 (if spec = 1 then 4 else 0)
      ++ leBytes 4 asym ++ leBytes 4 hash ++ zeros 16
    .next (spdmAnswer r.bus out (fun x =>
      { x with stage := 3, vca := x.vca ++ r.msg ++ out, certs := [], meas := [] }) s)

/-- The certificate chain of slot 0 as SPDM carries it: its length, the SHA-384 of the root certificate, and the chain.
The root certificate stands first, with the length of its outer DER sequence. -/
def derLength (b : Bytes) : Nat :=
  if (b.getD 1 0).toNat < 0x80 then 2 + (b.getD 1 0).toNat
  else if b.getD 1 0 = 0x81 then 3 + (b.getD 2 0).toNat
  else 4 + beVal (slice b 2 2)

def spdmChain (s : State) : Bytes :=
  let c := x509Chain s
  leBytes 2 (52 + c.length) ++ [0, 0] ++ sha384 (c.take (derLength c)) ++ c

/-- SPDM_GET_DIGESTS: slot 0 only. Before the Alias certificates exist there is no chain to digest (R292). -/
def execSpdmGetDigests (r : SpdmReq) (s : State) : Out :=
  match spdmGate 0x81 3 4 r s with
  | .silent => .next s
  | .fails v c => .next (spdmError r.bus v c s)
  | .pass v =>
    if !s.certsReady then .next (spdmError r.bus v errBusy s)
    else
      let out : Bytes := [v, 0x01, if v = 0x13 then 1 else 0, 1] ++ sha384 (spdmChain s)
      .next (spdmAnswer r.bus out (fun x => { x with certs := r.msg ++ out }) s)

/-- SPDM_GET_CERTIFICATE (R292, R295). -/
def execSpdmGetCertificate (r : SpdmReq) (s : State) : Out :=
  match spdmGate 0x82 3 8 r s with
  | .silent => .next s
  | .fails v c => .next (spdmError r.bus v c s)
  | .pass v =>
    let chain := spdmChain s
    let o := u16 r.msg 4
    if !s.certsReady then .next (spdmError r.bus v errBusy s)
    else if (r.msg.getD 2 0 &&& 0x0F) ≠ 0 ∨ chain.length ≤ o then .next (spdmError r.bus v errInvalid s)
    else
      let p := slice chain o (u16 r.msg 6)
      let out : Bytes := [v, 0x02, 0, 0] ++ leBytes 2 p.length ++ leBytes 2 (chain.length - o - p.length) ++ p
      .next (spdmAnswer r.bus out (fun x => { x with certs := x.certs ++ r.msg ++ out }) s)

/-- What an SPDM 1.2 or 1.3 signature is made over: the version prefix four times, the context string filled up with
zeros to 100 bytes together, and the hash of the transcript. -/
def spdmSigned (version : Byte) (context : String) (transcript : Bytes) : Bytes :=
  let p := ascii (if version = 0x13 then "dmtf-spdm-v1.3.*" else "dmtf-spdm-v1.2.*")
  let c := ascii context
  p ++ p ++ p ++ p ++ zeros (36 - c.length) ++ c ++ sha384 transcript

/-- A value type of a measurement block, with bit 7 for the raw ones (R296). -/
def measType (i : Nat) : Byte :=
  if i = 1 then 0x80 else if i ≤ 5 then 0x81 else if i = 6 then 0x87 else if i = 7 ∨ i = 26 then 0x83 else 0x03

/-- A measurement block as SPDM carries it (DMTF measurement specification). -/
def measBytes (b : MeasBlock) : Bytes :=
  let v := measType b.index.toNat :: leBytes 2 b.bytes.length ++ b.bytes
  [b.index, 1] ++ leBytes 2 v.length ++ v

/-- The Alias private key signs a response (R290). -/
def spdmSign (version : Byte) (context : String) (transcript : Bytes) (s : State) : Bytes × State :=
  match s.aliasPair with
  | none => ([], s)
  | some k => signEc true k (spdmSigned version context transcript) (jobDone 2 s)

/-- RequesterContext, which SPDM 1.3 echoes. -/
def requesterContext (version : Byte) (b : Bytes) (o : Nat) : Bytes := if version = 0x13 then padTo (slice b o 8) 8 else []

/-- SPDM_CHALLENGE (R295): signed over the exchange so far. A measurement summary over all blocks is their hash; that of
the "TCB" blocks, which no rule names, is a free value. -/
def execSpdmChallenge (r : SpdmReq) (s : State) : Out :=
  match spdmGate 0x83 3 36 r s with
  | .silent => .next s
  | .fails v c => .next (spdmError r.bus v c s)
  | .pass v =>
    let kind := r.msg.getD 3 0
    if !s.certsReady then .next (spdmError r.bus v errBusy s)
    else if r.msg.getD 2 0 ≠ 0 ∨ (kind ≠ 0 ∧ kind ≠ 1 ∧ kind ≠ 0xFF) then .next (spdmError r.bus v errInvalid s)
    else
      let n := drawBytes 32 s
      let sum := if kind = 0xFF then (sha384 (s.snap.blocks.flatMap measBytes), n.2)
        else if kind = 1 then drawBytes 48 n.2 else ([], n.2)
      let out : Bytes := [v, 0x03, 0, 1] ++ sha384 (spdmChain s) ++ n.1 ++ sum.1 ++ [0, 0]
        ++ requesterContext v r.msg 36
      let x := s.buses[r.bus].spdm
      let g := spdmSign v "responder-challenge_auth signing" (x.vca ++ x.certs ++ r.msg ++ out) sum.2
      .next (spdmAnswer r.bus (out ++ g.1) (fun x => { x with certs := [] }) g.2)

/-- The blocks that a GET_MEASUREMENTS names: none for the count alone, one, or all (DSP0274); none at all where the
block does not exist. -/
def measWanted (blocks : List MeasBlock) (op : Nat) : Option (List MeasBlock) :=
  if op = 0 then some []
  else if op = 0xFF then some blocks
  else (blocks.find? fun b => b.index.toNat == op).map fun b => [b]

/-- SPDM_GET_MEASUREMENTS (R292, R296, R297): every block from the current snapshot. -/
def execSpdmGetMeasurements (r : SpdmReq) (s : State) : Out :=
  let sign := bit (r.msg.getD 2 0).toNat 0
  match spdmGate 0xE0 3 (if sign then 37 else 4) r s with
  | .silent => .next s
  | .fails v c => .next (spdmError r.bus v c s)
  | .pass v =>
    let op := (r.msg.getD 3 0).toNat
    match measWanted s.snap.blocks op with
    | none => .next (spdmError r.bus v errInvalid s)
    | some bs =>
      if !s.certsReady then .next (spdmError r.bus v errBusy s)
      else if sign ∧ (r.msg.getD 36 0 &&& 0x0F) ≠ 0 then .next (spdmError r.bus v errInvalid s)
      else
        let rec_ := bs.flatMap measBytes
        let n := drawBytes 32 s
        let out : Bytes := [v, 0x60, BitVec.ofNat 8 (if op = 0 then s.snap.blocks.length else 0), 0,
            BitVec.ofNat 8 bs.length] ++ leBytes 3 rec_.length ++ rec_ ++ n.1 ++ [0, 0]
          ++ requesterContext v r.msg (if sign then 37 else 4)
        let x := s.buses[r.bus].spdm
        let l := x.meas ++ r.msg ++ out
        if sign then
          let g := spdmSign v "responder-measurements signing" (x.vca ++ l) n.2
          .next (spdmAnswer r.bus (out ++ g.1) (fun x => { x with meas := [] }) g.2)
        else .next (spdmAnswer r.bus out (fun x => { x with meas := l }) n.2)

end Sys2Proof.Machine
end

