-- ==== Sys2Proof/Machine/Quota.lean ====
section
/-! DEFINITION. Admission tokens and the states of slots (R298 to R303, R314 to R316), and the quota leases, as the
coordinator counts them and as the holder asks for them (R311 to R313, R413). -/
namespace Sys2Proof.Machine
open Sys2Proof

/-! ### Entries and states (R302, R303) -/

/-- Admission states in the order of R302. -/
def admCode : AdmState → Nat
  | .unknown => 0
  | .attested => 1
  | .admitted => 2
  | .quarantined => 3
  | .refused => 4

/-- Reasons of R302, and MEASUREMENT_CHANGED of the ring log. -/
def rNone : Byte := 0x00
def rAwaiting : Byte := 0x01
def rUnreachable : Byte := 0x02
def rNoResponse : Byte := 0x03
def rNotAllowed : Byte := 0x04
def rChanged : Byte := 0x05
def rBadChain : Byte := 0x06
def rBadSignature : Byte := 0x07
def rUnsupported : Byte := 0x08
def rLeaseEnded : Byte := 0x09
def rOwner : Byte := 0x0A

/-- ORIGIN of a slot's Tenon (R472). -/
def originTenon (s : State) (i : Fin 1024) : Nat := 0x30 + (((s.slotCfg i).map (·.bus)).getD 0) / 4

/-- A change of a slot's state, with its ADMISSION entry (R303, R477). Where the state stays, only the reason changes. -/
def setAdm (i : Fin 1024) (st : AdmState) (reason logged : Byte) (s : State) : State :=
  let x := s.slot i
  let s1 := s.modSlot i fun x => { x with state := st, reason := reason }
  if x.state = st then s1
  else
    logNow 0x0060 (originTenon s i)
      (leBytes 2 i.val ++ [BitVec.ofNat 8 (admCode x.state), BitVec.ofNat 8 (admCode st), logged, 0, 0, 0]
        ++ leBytes 4 x.tokenSerial) s1

/-- A slot's token is revoked: TOKEN_FLOOR rises above its serial (R303). A slot without a token has none to revoke. -/
def revoke (i : Fin 1024) (s : State) : State :=
  s.modSlot i fun x =>
    if x.token = [] then x else { x with tokenFloor := max x.tokenFloor (x.tokenSerial + 1), probation := false }

/-! ### Tokens (R314, R316) -/

/-- The signed bytes of a token (R314). -/
def tokenBody (s : State) (i : Fin 1024) (p : AdmPolicy) (c : SlotCfg) (serial notAfter : Nat) (probation : Bool)
    (key : Bytes) : Bytes :=
  let x := s.slot i
  let a := (x.matched.bind fun k => p.allows[k]?)
  [0x47, 0x41, 0x54, 0x31, 1, 0, if p.hybrid then 2 else 1, 0] ++ leBytes 4 (if p.hybrid then 4851 else 224)
    ++ leBytes 4 128 ++ leBytes 8 serial ++ leBytes 8 s.time ++ leBytes 8 notAfter ++ leBytes 2 s.node.toNat
    ++ leBytes 2 i.val ++ [BitVec.ofNat 8 c.bus, BitVec.ofNat 8 c.address] ++ leBytes 2 c.fgroup ++ x.componentId
    ++ ((a.map (·.profile)).getD (zeros 32)) ++ leBytes 4 p.secVersion ++ leBytes 2 ((x.matched).getD 0)
    ++ [if probation then 1 else 0, 0] ++ key

/-- NOT_AFTER of a token issued now (R313, R314). -/
def tokenEnd (s : State) (i : Fin 1024) (p : AdmPolicy) : Nat :=
  let t := s.time + p.tokenLifetime * nsPerSec
  match (s.slot i).lease with
  | none => t
  | some l => min t l.endsAt

/-- A token is issued to a slot, signed by the Alias key (R290, R314, R316); with PROBATION where a lease stands behind
it (R303, R313). -/
def issueToken (i : Fin 1024) (s : State) : State :=
  match s.adm, s.slotCfg i, s.aliasPair with
  | some p, some c, some k =>
    let serial := s.nvm.tokenSerial + 1
    let probation := (s.slot i).lease.isSome
    let notAfter := tokenEnd s i p
    let key := keyId k.block
    let body := tokenBody s i p c serial notAfter probation key
    let s1 := jobDone 2 s
    let g := if p.hybrid then signHybrid true k body s1 else signEc true k body s1
    (g.2.modNvm fun v => { v with tokenSerial := serial }).modSlot i fun x =>
      { x with
        tokenSerial := serial
        token := body ++ g.1
        notAfter := notAfter
        probation := probation
        issued := (x.issued.filter fun t => decide (s.time < t.notAfter) && decide (x.tokenFloor ≤ t.serial))
          ++ [⟨key, serial, notAfter⟩] }
  | _, _, _ => s

/-! ### The coordinator (R311 to R313) -/

/-- The policy assigns the failure group to this node (R311, R413). -/
def State.coordinates (s : State) (fgroup : Nat) : Bool :=
  (s.adm.bind fun p => p.coordinators[fgroup]?).any fun n => n == s.node

/-- A claim as R311 describes it. -/
structure Claiming where
  profile : Bytes
  fgroup : Nat
  holder : BitVec 12
  slot : Nat
  componentId : Bytes
deriving DecidableEq, Repr

/-- The lease is of the same holder, slot, component and profile. -/
def Claiming.same (c : Claiming) (l : Lease) : Bool :=
  l.holder == c.holder && l.slot == c.slot && l.componentId == c.componentId && l.profile == c.profile

/-- A new lease identifier; 0 means none (R311). -/
def takeLeaseId (s : State) : Word × State :=
  let id : Word := if s.nvm.nextLease = 0 then 1 else s.nvm.nextLease
  (id, s.modNvm fun v => { v with nextLease := id + 1 })

/-- The coordinator's answer to a claim: none for DENIED_POLICY, else LEASE_ID (R311). -/
def coordClaim (c : Claiming) (s : State) : Option Word × State :=
  match s.adm, s.nvm.leases.find? c.same with
  | _, some l =>
    (some l.id, s.modNvm fun v =>
      { v with leases := v.leases.map fun x => if x.id = l.id then { x with renewedAt := s.time } else x })
  | none, none => (none, s)
  | some p, none =>
    let s1 := s.modNvm fun v => { v with leases := drop? v.leases fun l => l.holder == c.holder && l.slot == c.slot }
    match p.allows.find? fun a => a.profile == c.profile with
    | none => (none, s1)
    | some a =>
      let used := (s1.nvm.leases.filter fun l => l.profile == c.profile && l.fgroup == c.fgroup).length
      if a.quota = 0 then (some 0, s1)
      else if used < a.quota ∧ s1.nvm.leases.length < 4096 then
        let t := takeLeaseId s1
        (some t.1, t.2.modNvm fun v =>
          { v with leases := v.leases ++ [⟨t.1, c.profile, c.fgroup, c.holder, c.slot, c.componentId, s.time⟩] })
      else (none, s1)

/-- LEASE_TIME of the coordinator's policy, in seconds. -/
def State.leaseTime (s : State) : Nat := (s.adm.map (·.leaseTime)).getD 0

/-- A renewal at the coordinator: refused for a lease that is unknown, another holder's, or not its own to count (R413). -/
def coordRenew (id : Word) (holder : BitVec 12) (s : State) : Bool × State :=
  match s.nvm.leases.find? fun l => l.id == id && l.holder == holder with
  | none => (false, s)
  | some l =>
    if s.coordinates l.fgroup then
      (true, s.modNvm fun v =>
        { v with leases := v.leases.map fun x => if x.id = id then { x with renewedAt := s.time } else x })
    else (false, s)

/-- A release at the coordinator. -/
def coordRelease (id : Word) (holder : BitVec 12) (s : State) : State :=
  s.modNvm fun v => { v with leases := drop? v.leases fun l => l.id == id && l.holder == holder }

/-- LEASE_RECLAIM (R312). -/
def execLeaseReclaim (leaseId : Word) (s : State) : Out :=
  let life := (s.leaseTime * nsPerSec) * 257 / 256
  .next (s.modNvm fun v =>
    { v with leases := drop? v.leases fun l => l.id == leaseId && decide (l.renewedAt + life ≤ s.time) })

/-- The holder's node identifier in a quota payload. -/
def holderAt (b : Bytes) (o : Nat) : BitVec 12 := BitVec.ofNat 12 (u16 b o)

/-- A reserved top of a 12-bit identifier. -/
def nodeReserved (b : Bytes) (o : Nat) : Option Nat := if 4096 ≤ u16 b o then some (o + 1) else none

/-- QUOTA_CLAIM (R311, R413). -/
def cmdQuotaClaim : Cmd :=
  { op := 0x0408
    level := fun _ b => .peer (u16 b 0x22)
    need := fun _ _ => 0x48
    badField := fun _ b => (nodeReserved b 0x22).or (reservedAt b 0x26 2)
    run := fun c s =>
      let b := c.cmd
      if !s.coordinates (u16 b 0x20) then c.reply 0x0408 .deniedPolicy [] s
      else
        let r := coordClaim ⟨slice b 0 32, u16 b 0x20, holderAt b 0x22, u16 b 0x24, slice b 0x28 32⟩ s
        match r.1 with
        | none => c.reply 0x0408 .deniedPolicy [] r.2
        | some id => c.reply 0x0408 .done (leBytes 4 id.toNat ++ leBytes 4 s.leaseTime) r.2 }

def execQuotaClaim (r : Req) (s : State) : Out := .next (serve cmdQuotaClaim r s)

/-- QUOTA_RENEW (R312, R413). -/
def cmdQuotaRenew : Cmd :=
  { op := 0x0409
    level := fun _ b => .peer (u16 b 4)
    need := fun _ _ => 8
    badField := fun _ b => (nodeReserved b 4).or (reservedAt b 6 2)
    run := fun c s =>
      let r := coordRenew (BitVec.ofNat 32 (u32 c.cmd 0)) (holderAt c.cmd 4) s
      c.reply 0x0409 (if r.1 then .done else .deniedPolicy) [] r.2 }

def execQuotaRenew (r : Req) (s : State) : Out := .next (serve cmdQuotaRenew r s)

/-- QUOTA_RELEASE (R413): refused only for a failure group that the policy does not assign to this node. -/
def cmdQuotaRelease : Cmd :=
  { op := 0x040A
    level := fun _ b => .peer (u16 b 4)
    need := fun _ _ => 8
    badField := fun _ b => (nodeReserved b 4).or (reservedAt b 6 2)
    run := fun c s =>
      let id := BitVec.ofNat 32 (u32 c.cmd 0)
      let away := s.nvm.leases.any fun l => l.id == id && l.holder == holderAt c.cmd 4 && !s.coordinates l.fgroup
      if away then c.reply 0x040A .deniedPolicy [] s
      else c.reply 0x040A .done [] (coordRelease id (holderAt c.cmd 4) s) }

def execQuotaRelease (r : Req) (s : State) : Out := .next (serve cmdQuotaRelease r s)

/-! ### The holder (R311, R312, R541) -/

/-- A quota command to the coordinator of a slot's failure group, over the relay (R311, R541). The tag is the slot. -/
def relayQuota (node : BitVec 12) (op : Nat) (i : Fin 1024) (payload : Bytes) (s : State) : State :=
  let m := takeMsgId s
  sendRouted node 1 m.1 (frameBytes op 0 (BitVec.ofNat 32 i.val) payload) m.2

/-- The coordinator of a slot. -/
def State.coordinatorOf (s : State) (i : Fin 1024) : Option (BitVec 12) :=
  (s.slotCfg i).bind fun c => s.adm.bind fun p => p.coordinators[c.fgroup]?

/-- A lease is given back, by QUOTA_RELEASE or at this node itself (R303, R305, R311). -/
def giveBack (i : Fin 1024) (id : Word) (s : State) : State :=
  if id = 0 then s
  else
    match s.coordinatorOf i with
    | none => s
    | some n =>
      if n = s.node then coordRelease id s.node s
      else relayQuota n 0x040A i (leBytes 4 id.toNat ++ leBytes 2 s.node.toNat ++ [0, 0]) s

/-- The slot's lease, if any, is given back (R303, R310). -/
def dropLease (i : Fin 1024) (s : State) : State :=
  match (s.slot i).lease with
  | none => s
  | some l => giveBack i l.id (s.modSlot i fun x => { x with lease := none })

/-- The slot's outstanding claim is withdrawn with QUOTA_RELEASE; a grant that still answers it is given back then
(R303, R305). The lease has no identifier yet. -/
def withdrawClaim (i : Fin 1024) (s : State) : State :=
  if !(s.slot i).claimOut then s
  else
    let s1 := s.modSlot i fun x => { x with claimOut := false, claimTries := 0 }
    match s1.coordinatorOf i with
    | none => s1
    | some n => if n = s1.node then s1 else relayQuota n 0x040A i (zeros 4 ++ leBytes 2 s1.node.toNat ++ [0, 0]) s1

/-- A lease granted to a slot in ATTESTED: a token with PROBATION (R303, R313). A grant with LEASE_ID 0 counts nothing
and stands behind no token. -/
def granted (i : Fin 1024) (id : Word) (leaseTime : Nat) (s : State) : State :=
  let lease : Option HeldLease :=
    if id = 0 then none else some ⟨id, (s.slot i).claimSent + leaseTime * nsPerSec, leaseTime, s.time⟩
  let s1 := s.modSlot i fun x => { x with lease := lease, claimOut := false, claimTries := 0 }
  issueToken i (setAdm i .admitted rNone rNone s1)

/-- A claim that the coordinator refuses is repeated every 60 s (R303). -/
def refused (i : Fin 1024) (s : State) : State :=
  setAdm i .attested rAwaiting rAwaiting (s.modSlot i fun x =>
    { x with claimOut := false, claimTries := 0, claimAt := s.time + 60 * nsPerSec })

/-- A claim is sent for a slot in ATTESTED (R303, R311); this node answers its own at once. -/
def sendClaim (i : Fin 1024) (s : State) : State :=
  match s.slotCfg i, s.adm, s.coordinatorOf i with
  | some c, some p, some n =>
    let profile := (((s.slot i).matched.bind fun k => p.allows[k]?).map (·.profile)).getD (zeros 32)
    let s1 := s.modSlot i fun x =>
      { x with
        claimOut := true
        claimTries := x.claimTries + 1
        claimSent := if x.claimTries = 0 then s.time else x.claimSent
        claimAt := s.time + 2 * nsPerSec }
    if n = s.node then
      let r := coordClaim ⟨profile, c.fgroup, s.node, i.val, (s.slot i).componentId⟩ s1
      (match r.1 with
      | none => refused i r.2
      | some id => granted i id p.leaseTime r.2)
    else
      relayQuota n 0x0408 i
        (profile ++ leBytes 2 c.fgroup ++ leBytes 2 s.node.toNat ++ leBytes 2 i.val ++ [0, 0] ++ (s.slot i).componentId) s1
  | _, _, _ => s

/-- The first claim for a slot. -/
def firstClaim (i : Fin 1024) (s : State) : State := sendClaim i (s.modSlot i fun x => { x with claimTries := 0 })

/-- The coordinator's answer reaches the holder (R303, R305). -/
def quotaAnswered (i : Fin 1024) (ok : Bool) (id : Word) (leaseTime : Nat) (s : State) : State :=
  let x := s.slot i
  if x.state = .attested ∧ x.claimOut then
    (if ok then granted i id leaseTime s else refused i s)
  else if ok then giveBack i id s
  else s

/-- QUOTA_ANSWER (R303, R305). -/
def execQuotaAnswer (slot : Fin 1024) (granted : Bool) (leaseId leaseTime : Word) (s : State) : Out :=
  .next (quotaAnswered slot granted leaseId leaseTime.toNat s)

/-- QUOTA_CLAIM_RETRY (R303): a claim without an answer is sent three times, 2 s apart, and then, like a refused one,
every 60 s. -/
def execQuotaClaimRetry (slot : Fin 1024) (s : State) : Out :=
  let x := s.slot slot
  if s.mode ≠ .firmware ∨ x.state ≠ .attested ∨ s.time < x.claimAt then .next s
  else if x.claimOut && decide (3 ≤ x.claimTries) then
    .next (setAdm slot .attested rUnreachable rUnreachable (s.modSlot slot fun x =>
      { x with claimOut := false, claimTries := 0, claimAt := s.time + 60 * nsPerSec }))
  else .next (sendClaim slot s)

/-- LEASE_RENEW (R312, R313): the holder's renewal, a quarter of LEASE_TIME after the last, and its acknowledgement, with
which the token is issued again. -/
def execLeaseRenew (slot : Fin 1024) (acknowledged : Bool) (s : State) : Out :=
  let x := s.slot slot
  match x.lease, s.coordinatorOf slot with
  | some l, some n =>
    if s.mode ≠ .firmware ∨ x.state ≠ .admitted ∨ l.endsAt ≤ s.time ∨ s.time < l.renewedAt + l.leaseTime * nsPerSec / 4 then
      .next s
    else
      let r := if n = s.node then coordRenew l.id s.node s
        else (acknowledged, relayQuota n 0x0409 slot (leBytes 4 l.id.toNat ++ leBytes 2 s.node.toNat ++ [0, 0]) s)
      .next (if r.1 then
          issueToken slot (r.2.modSlot slot fun x =>
            { x with lease := some { l with endsAt := s.time + l.leaseTime * nsPerSec, renewedAt := s.time } })
        else r.2)
  | _, _ => .next s

/-- LEASE_END (R303, R312): the lease ends at the holder. -/
def execLeaseEnd (slot : Fin 1024) (s : State) : Out :=
  let x := s.slot slot
  match x.lease with
  | none => .next s
  | some l =>
    if s.time < l.endsAt then .next s
    else
      let s1 := s.modSlot slot fun x => { x with lease := none }
      if x.state = .admitted ∧ x.probation then
        .next (firstClaim slot (revoke slot (setAdm slot .attested rLeaseEnded rLeaseEnded s1)))
      else .next s1

end Sys2Proof.Machine
end

