-- ==== Sys2Proof/Machine/Attest.lean ====
section
/-! DEFINITION. Virund as an SPDM requester: the presence of slots, the exchanges of an attestation, the verdict and the
admission state that follows from it, and the owner's commands on slots (R298 to R305, R310, R317, R408, R413). -/
namespace Sys2Proof.Machine
open Sys2Proof

/-! ### Presence (R298, R303) -/

/-- PRESENCE_IN of a slot is asserted, or the slot names none (R298). -/
def State.presenceIn (s : State) (c : SlotCfg) : Bool :=
  match c.presenceIn with
  | none => true
  | some k => (s.chuck.inGood[k]?).getD false

/-- A slot's EID on the network of its bus: 0x10 upwards in slot order (R298); beyond the EIDs of MCTP it is a free
value. -/
def slotEid (i : Fin 1024) (s : State) : Byte × State :=
  if i.val < 239 then (BitVec.ofNat 8 (0x10 + i.val), s) else ((BitVec.ofNat 8 (drawNat s).1), (drawNat s).2)

/-- The slot's bus works as a controller. -/
def State.controls (s : State) (c : SlotCfg) : Bool :=
  match (fin? c.bus : Option (Fin 16)) with
  | none => false
  | some b => s.buses[b].role == 0b10 && s.busWorks b

/-- The operation that waits for an attestation of the slot ends (R413). -/
def endAttestOp (i : Fin 1024) (r : Res) (s : State) : State :=
  (endOp? (s.slot i).op r 0 s).modSlot i fun x => { x with op := none }

/-- A slot becomes present: SET_ENDPOINT_ID, and discovery begins (R298, R317). -/
def becomePresent (i : Fin 1024) (s : State) : State :=
  let e := slotEid i s
  sendCtrl i (.setEndpointId e.1) (e.2.modSlot i fun x =>
    { x with present := true, eid := e.1, phase := .discovery, failures := 0, seenDigest := [] })

/-- The PRESENCE_IN input of a slot, where it names one, reports its level after the debounce (R224, R298). -/
def notePresence (c : SlotCfg) (level : Bool) (s : State) : State :=
  match c.presenceIn.bind fun k => (fin? k : Option (Fin 64)) with
  | none => s
  | some k => setPg (.input k) level s

/-- SLOT_PRESENT (R298): the component is there; presence is the level of PRESENCE_IN. -/
def execSlotPresent (slot : Fin 1024) (presence : Bool) (s0 : State) : Out :=
  match s0.slotCfg slot with
  | none => .next s0
  | some c =>
    let s := notePresence c presence s0
    if s.controls c && s.presenceIn c && !(s.slot slot).present then .next (becomePresent slot s) else .next s

/-- SLOT_POLL (R298): on SMBus and I²C, each absent slot's address is polled; presence is the level of PRESENCE_IN. -/
def execSlotPoll (slot : Fin 1024) (answers presence : Bool) (s0 : State) : Out :=
  match s0.slotCfg slot with
  | none => .next s0
  | some c =>
    let s := notePresence c presence s0
    if !s.controls c || (s.buses[Fin.ofNat 16 c.bus]).i3c || (s.slot slot).present then .next s
    else
      let s1 := sendCtrl slot .poll s
      .next (if answers && s.presenceIn c then becomePresent slot s1 else s1)

/-- A slot has no component any more, or one that is new: UNKNOWN, its token revoked and its lease released (R303). -/
def slotUnknown (i : Fin 1024) (s : State) : State :=
  let s1 := dropLease i (withdrawClaim i s)
  revoke i (setAdm i .unknown rNone rNone s1)

/-- What a slot remembers of a component goes with it. -/
def forgetComponent (i : Fin 1024) (s : State) : State :=
  s.modSlot i fun x =>
    { x with
      phase := .idle, componentId := [], profile := [], matched := none, blocks := [], measured := [], rootDigest := []
      chainDigest := [], seenDigest := [], chainBytes := [], failures := 0 }

/-- A slot stops being present (R303, R305). -/
def becomeAbsent (i : Fin 1024) (s : State) : State :=
  (forgetComponent i (slotUnknown i (endAttestOp i .aborted s))).modSlot i fun x => { x with present := false, eid := 0 }

/-- SLOT_ABSENT (R303, R305). -/
def execSlotAbsent (slot : Fin 1024) (s : State) : Out :=
  if (s.slot slot).present then .next (becomeAbsent slot s) else .next s

/-! ### Matching (R301) -/

/-- The blocks of a measurement record: Index, MeasurementSpecification, MeasurementSize, Measurement, each kept as
received. -/
def readMeas : Nat → Bytes → List MeasBlock
  | 0, _ => []
  | n + 1, b =>
    if b.length < 4 then []
    else
      let len := 4 + u16 b 2
      ⟨b.headD 0, b.take len⟩ :: readMeas n (b.drop len)

/-- MEAS_MASK names a block index (R308). -/
def maskBit (m : Bytes) (i : Nat) : Bool := bit (m.getD (i / 8) 0).toNat (i % 8)

/-- The profile digest of a component for an entry (R301); none where it lacks a block named in MEAS_MASK. -/
def profileDigest (a : AllowCfg) (bs : List MeasBlock) : Option Bytes :=
  let ixs := (List.range 256).filter (maskBit a.measMask)
  (ixs.mapM fun i => bs.find? fun b => b.index.toNat == i).map fun l => hH (0x04 :: l.flatMap (·.bytes))

/-- The component matches an entry (R301). -/
def entryMatches (c : SlotCfg) (bs : List MeasBlock) (a : AllowCfg) : Bool :=
  a.cls == c.cls && profileDigest a bs == some a.profile

/-- The matched entry: the lowest-indexed of those that match (R301). -/
def matchedEntry (p : AdmPolicy) (c : SlotCfg) (bs : List MeasBlock) : Option (Nat × AllowCfg) :=
  (p.allows.zipIdx.find? fun x => entryMatches c bs x.1).map fun x => (x.2, x.1)

/-- A root digest is a ROOT entry that the matched entry admits, or any ROOT entry where nothing matches (R300). -/
def rootAdmitted (p : AdmPolicy) (e : Option (Nat × AllowCfg)) (root : Bytes) : Bool :=
  p.roots.zipIdx.any fun x => x.1 == root && (match e with
    | none => true
    | some a => a.2.rootMask.getLsbD x.2)

/-- Every issuer is the subject before it, every signature holds, and every certificate but the last is a CA (R300). -/
def chainLinked : List ChainCert → Bool
  | [] => false
  | [_] => true
  | a :: b :: rest => a.ca && b.signedByPrev && b.issuer == a.subject && chainLinked (b :: rest)

/-- The conditions of R300 on a chain's own form. -/
def chainFormOk (chain : List ChainCert) : Bool :=
  chainLinked chain && decide (chain.length ≤ 5) && decide ((chain.map fun c => c.der.length).sum ≤ 16384)

/-! ### The verdict (R300 to R303) -/

/-- A slot enters REFUSED (R303). -/
def refuseSlot (i : Fin 1024) (reason : Byte) (s : State) : State :=
  let s1 := s.modSlot i fun x => { x with chainDigest := [] }
  if (s1.slot i).state = .refused ∨ ((s1.slot i).state = .quarantined ∧ (s1.slot i).reason = rOwner) then s1
  else setAdm i .refused reason reason (revoke i (withdrawClaim i s1))

/-- The states from UNKNOWN or QUARANTINED on, for a component whose matched entry is known (R303). The entry of a
transition that leaves ADMITTED for a new profile bears MEASUREMENT_CHANGED (R302). -/
def judgeFresh (i : Fin 1024) (a : AllowCfg) (changed : Bool) (s : State) : State :=
  if a.quota = 0 then
    let s1 := dropLease i s
    if changed then
      issueToken i (setAdm i .admitted rNone rNone (setAdm i .unknown rNone rChanged s1))
    else issueToken i (setAdm i .admitted rNone rNone s1)
  else firstClaim i (setAdm i .attested rAwaiting (if changed then rChanged else rAwaiting) s)

/-- A component passes with a matched entry (R303). -/
def judgeMatched (i : Fin 1024) (e : Nat × AllowCfg) (same : Bool) (s : State) : State :=
  let st := (s.slot i).state
  let s1 := s.modSlot i fun x => { x with matched := some e.1, profile := e.2.profile }
  match st with
  | .admitted =>
    if same then issueToken i (if e.2.quota = 0 then dropLease i s1 else s1) else judgeFresh i e.2 true (revoke i (dropLease i s1))
  | .attested => if same then s1 else judgeFresh i e.2 false (dropLease i (withdrawClaim i s1))
  | _ => judgeFresh i e.2 false s1

/-- A component passes and nothing matches (R303). -/
def judgeUnmatched (i : Fin 1024) (s : State) : State :=
  let was := (s.slot i).state
  let s1 := revoke i (withdrawClaim i (s.modSlot i fun x => { x with matched := none, profile := [] }))
  setAdm i .quarantined rNotAllowed (if was = .admitted then rChanged else rNotAllowed) s1

/-- The judgement of a slot's measurements under a policy, given the root of its chain (R300, R301, R303). A slot that the
owner has quarantined stays so (R305), and a REFUSED one too, for no row of R303 leaves REFUSED by an attestation. -/
def judge (i : Fin 1024) (p : AdmPolicy) (c : SlotCfg) (s : State) : State :=
  let x := s.slot i
  if (x.state = .quarantined ∧ x.reason = rOwner) ∨ x.state = .refused then s
  else
    let e := matchedEntry p c x.measured
    if !rootAdmitted p e x.rootDigest then refuseSlot i rBadChain s
    else
      match e with
      | none => judgeUnmatched i s
      | some a => judgeMatched i a (x.matched == some a.1 && x.profile == a.2.profile) s

/-- An attestation has passed: COMPONENT_ID, measurements and root are the slot's, and it is judged (R301, R303). A new
COMPONENT_ID makes the slot UNKNOWN first. -/
def attestPassed (i : Fin 1024) (p : AdmPolicy) (c : SlotCfg) (chain : List ChainCert) (s : State) : State :=
  let id := hH (0x03 :: (((chain.getLast?).map (·.spki)).getD []))
  let x := s.slot i
  let s1 := if x.componentId ≠ [] ∧ x.componentId ≠ id then
      (slotUnknown i s).modSlot i fun x => { x with matched := none, profile := [] }
    else s
  let s2 := s1.modSlot i fun x =>
    { x with
      componentId := id
      measured := readMeas 256 x.blocks
      rootDigest := sha384 (((chain.head?).map (·.der)).getD [])
      chainDigest := x.seenDigest
      failures := 0 }
  judge i p c s2

/-- ATTESTATION_VERDICT (R300, R303): the chain as read, and whether the signature over the transcript verifies under its
last key. The response is judged under the policy that is active now (R305). -/
def execAttestationVerdict (slot : Fin 1024) (chain : List ChainCert) (sigOk : Bool) (s : State) : Out :=
  let x := s.slot slot
  let ders := chain.flatMap (·.der)
  let ofChain := x.chainBytes.drop (x.chainBytes.length - ders.length) == ders
  match s.adm, s.slotCfg slot with
  | some p, some c =>
    if x.phase ≠ .judging ∨ s.mode ≠ .firmware ∨ !ofChain then .next s
    else
      let s1 := jobDone 2 (s.modSlot slot fun x => { x with phase := .idle })
      let root := sha384 (((chain.head?).map (·.der)).getD [])
      let s2 := if !chainFormOk chain || !p.roots.contains root then refuseSlot slot rBadChain s1
        else if !sigOk then refuseSlot slot rBadSignature s1
        else attestPassed slot p c chain s1
      .next (endAttestOp slot .done s2)
  | _, _ => .next s

/-! ### The exchanges (R298, R299) -/

/-- An attestation ends for want of what R299 asks. -/
def attestUnsupported (i : Fin 1024) (s : State) : State :=
  endAttestOp i .done (refuseSlot i rUnsupported (s.modSlot i fun x => { x with phase := .idle }))

/-- Portion of a certificate chain (R299). -/
def certPortion : Nat := 1024

/-- GET_MEASUREMENTS for all blocks, with a fresh nonce (R299). -/
def askMeasurements (i : Fin 1024) (s : State) : State :=
  let n := drawBytes 32 s
  sendCtrl i (.getMeasurements n.1) (n.2.modSlot i fun x => { x with phase := .measurements })

/-- A component's next answer (R298, R299). -/
def attestAnswer (i : Fin 1024) (a : SpdmAnswer) (s : State) : State :=
  let x := s.slot i
  let enter := fun (p : AttPhase) (m : CtrlMsg) (s : State) => sendCtrl i m (s.modSlot i fun x => { x with phase := p })
  match x.phase, a with
  | .discovery, .discovery spdm => if spdm then startAttest i s else attestUnsupported i s
  | .negotiate, .settled version certCap measCap asymOk hashOk =>
    if (version = 0x12 ∨ version = 0x13) ∧ certCap ∧ measCap = 0b10 ∧ asymOk ∧ hashOk then enter .digests .getDigests s
    else attestUnsupported i s
  | .digests, .digests d =>
    let s1 := s.modSlot i fun x => { x with seenDigest := d }
    if x.chainDigest ≠ [] ∧ x.chainDigest = d then askMeasurements i s1
    else enter .certificate (.getCertificate 0 certPortion) (s1.modSlot i fun x => { x with chainBytes := [] })
  | .certificate, .certificate portion last =>
    let b := x.chainBytes ++ portion
    let s1 := s.modSlot i fun x => { x with chainBytes := b }
    if 16384 + 52 < b.length then
      endAttestOp i .done (refuseSlot i rBadChain (s1.modSlot i fun x => { x with phase := .idle }))
    else if last then askMeasurements i s1
    else sendCtrl i (.getCertificate b.length certPortion) s1
  | .measurements, .measurements blocks _ => s.modSlot i fun x => { x with phase := .judging, blocks := blocks }
  | _, _ => s

/-- ATTESTATION_RESPONSE (R299). An answer that no exchange waits for is ignored. -/
def execAttestationResponse (slot : Fin 1024) (answer : SpdmAnswer) (s : State) : Out :=
  match s.slotCfg slot with
  | none => .next s
  | some c => if s.controls c && (s.slot slot).present then .next (attestAnswer slot answer s) else .next s

/-- ATTESTATION_TIMEOUT (R299, R303): the attempt ends with NO_RESPONSE. The third in a row quarantines a slot in ADMITTED
or ATTESTED; before it an ADMITTED slot is tried again after 10 s and after 60 s. -/
def execAttestationTimeout (slot : Fin 1024) (s : State) : Out :=
  let x := s.slot slot
  if x.phase = .idle ∨ x.phase = .judging ∨ s.mode ≠ .firmware then .next s
  else
    let n := x.failures + 1
    let s1 := endAttestOp slot .aborted (s.modSlot slot fun x =>
      { x with phase := .idle, failures := n, retryAt := s.time + (if n = 1 then 10 else 60) * nsPerSec })
    if 3 ≤ n ∧ (x.state = .admitted ∨ x.state = .attested) then
      .next ((setAdm slot .quarantined rNoResponse rNoResponse (revoke slot (withdrawClaim slot s1))).modSlot slot fun x =>
        { x with failures := 0 })
    else .next s1

/-- ATTEST_RETRY (R303). -/
def execAttestRetry (slot : Fin 1024) (s : State) : Out :=
  let x := s.slot slot
  if s.mode = .firmware ∧ x.state = .admitted ∧ x.phase = .idle ∧ 0 < x.failures ∧ x.retryAt ≤ s.time then
    .next (startAttest slot s)
  else .next s

/-- REATTEST (R317): every REATTEST_PERIOD. -/
def execReattest (slot : Fin 1024) (s : State) : Out :=
  let x := s.slot slot
  match s.adm with
  | none => .next s
  | some p =>
    if s.mode ≠ .firmware ∨ s.time < x.nextAttest then .next s
    else
      let s1 := s.modSlot slot fun x => { x with nextAttest := x.nextAttest + p.reattest * nsPerSec }
      .next (if x.phase = .idle then startAttest slot s1 else s1)

/-- DISCOVERY_NOTIFY (R317): an attestation runs at once; one in flight starts again. -/
def execDiscoveryNotify (slot : Fin 1024) (s : State) : Out :=
  if s.mode = .firmware ∧ (s.slot slot).phase ≠ .discovery then .next (startAttest slot s) else .next s

/-! ### The owner's commands on slots (R303, R317, R413) -/

/-- The slot that a request names, where the policy has it. -/
def slotOf (s : State) (b : Bytes) : Option (Fin 1024) :=
  (fin? (u16 b 0)).bind fun i => if (s.slotCfg i).isSome then some i else none

/-- A command on one slot. -/
def cmdSlot (op : Nat) (f : Call → Fin 1024 → State → State) : Cmd :=
  { op := op
    level := fun _ _ => .owner
    need := fun _ _ => 4
    badField := fun _ b => reservedAt b 2 2
    run := fun c s => match slotOf s c.cmd with
      | none => c.reply op .deniedPolicy [] s
      | some i => f c i s }

/-- The owner's quarantine (R303, R305). -/
def quarantine (i : Fin 1024) (s : State) : State :=
  setAdm i .quarantined rOwner rOwner (revoke i (withdrawClaim i s))

/-- SLOT_QUARANTINE. -/
def execSlotQuarantine (r : Req) (s : State) : Out :=
  .next (serve (cmdSlot 0x0405 fun c i s => c.reply 0x0405 .done [] (quarantine i s)) r s)

/-- A slot leaves QUARANTINED or REFUSED for UNKNOWN, and an attestation starts at once (R303). -/
def releaseSlot (i : Fin 1024) (s : State) : State :=
  match (s.slot i).state with
  | .quarantined => startAttest i (setAdm i .unknown rNone rNone s)
  | .refused => startAttest i (setAdm i .unknown rNone rNone s)
  | _ => s

/-- SLOT_RELEASE. -/
def execSlotRelease (r : Req) (s : State) : Out :=
  .next (serve (cmdSlot 0x0406 fun c i s => c.reply 0x0406 .done [] (releaseSlot i s)) r s)

/-- SLOT_REATTEST (R317, R413): the operation ends with the attestation; a slot that is not present ends it at once. -/
def execSlotReattest (r : Req) (s : State) : Out :=
  .next (serve (cmdSlot 0x0407 fun c i s =>
    let o := acceptOp c 0x0407 s
    let s1 := endAttestOp i .aborted o.2
    if !(s1.slot i).present then endOp o.1 .aborted 0 s1
    else
      let s2 := s1.modSlot i fun x => { x with op := some o.1 }
      if (s2.slot i).phase = .idle then startAttest i s2 else s2) r s)

/-! ### The swap of the admission policy (R303, R305, R310, R408) -/

/-- The lease of a slot is one that the policy needs: its matched entry has a quota (R310). -/
def leaseNeeded (p : AdmPolicy) (x : Slot) : Bool := (x.matched.bind fun k => p.allows[k]?).any fun a => decide (0 < a.quota)

/-- A slot at a swap (R310): one that the new policy does not configure as before has no component; QUARANTINED and
REFUSED slots are attested again, but for the owner's own quarantine (R305); the others are judged again. -/
def swapSlot (old : Option SlotCfg) (p : AdmPolicy) (s : State) (i : Fin 1024) : State :=
  let x := s.slot i
  let s1 := s.modSlot i fun x => { x with nextAttest := firstAttest s.time p.reattest i.val }
  match p.slots[i.val]? with
  | none => if x.present || x.state != .unknown then becomeAbsent i s1 else s1
  | some c =>
    if old.any fun o => o.bus != c.bus || o.address != c.address then
      (if x.present || x.state != .unknown then becomeAbsent i s1 else s1)
    else
      match x.state with
      | .unknown => s1
      | .quarantined => if x.reason = rOwner then s1 else releaseSlot i s1
      | .refused => releaseSlot i s1
      | _ =>
        let s2 := judge i p c s1
        if leaseNeeded p (s2.slot i) then s2 else dropLease i s2

/-- The policy becomes active at once (R307, R310). -/
def swapAdmission (b : Bytes) (p : AdmPolicy) (s : State) : State :=
  let old := fun (i : Fin 1024) => s.slotCfg i
  let s1 := { s.modNvm (fun v => { v with admission := some b }) with adm := some p }
  let s2 := publishSnap (raiseCounter p.counter s1)
  (fins 1024).foldl (fun s i => swapSlot (old i) p s i) s2

/-- PUT_STRUCTURE of KIND 4 (R408, R409). -/
def execPutStructureAdmissionPolicy (r : Req) (s : State) : Out :=
  if reqKind r = 4 then
    .next (serve (cmdPut fun c b s => match acceptAdmission s b with
      | .ok p => c.reply 0x0201 .done [] (swapAdmission b p s)
      | .error _ => s) r s)
  else .next s

/-! ### Reading the admission table (R315, R318, R413) -/

/-- The 96-byte entry of a slot (R318). -/
def slotEntry (s : State) (i : Nat) : Bytes :=
  match (fin? i : Option (Fin 1024)) with
  | none => leBytes 2 i ++ zeros 94
  | some k =>
    let x := s.slot k
    leBytes 2 i ++ [BitVec.ofNat 8 (admCode x.state), x.reason]
      ++ leBytes 2 (((s.slotCfg k).map (·.fgroup)).getD 0xFFFF) ++ leBytes 2 (x.matched.getD 0xFFFF)
      ++ leBytes 8 x.tokenSerial ++ leBytes 8 x.tokenFloor ++ leBytes 8 x.notAfter ++ padTo x.componentId 32
      ++ padTo x.profile 32

/-- GET_ADMISSION (R413). -/
def cmdGetAdmission : Cmd :=
  { op := 0x0402
    need := fun _ _ => 4
    run := fun c s =>
      let first := u16 c.cmd 0
      let n := u16 c.cmd 2
      if n = 0 ∨ 512 < n then c.reply 0x0402 .deniedPolicy [] s
      else
        c.reply 0x0402 .done (leBytes 8 s.time ++ leBytes 2 first ++ leBytes 2 n ++ zeros 4
          ++ (List.range n).flatMap fun k => slotEntry s (first + k)) s }

def execGetAdmission (r : Req) (s : State) : Out := .next (serve cmdGetAdmission r s)

/-- GET_TOKEN (R413). -/
def cmdGetToken : Cmd :=
  { op := 0x0403
    need := fun _ _ => 4
    badField := fun _ b => reservedAt b 2 2
    locks := aliasLocks
    run := fun c s => match (fin? (u16 c.cmd 0) : Option (Fin 1024)) with
      | none => c.reply 0x0403 .deniedPolicy [] s
      | some i => if (s.slot i).token = [] then c.reply 0x0403 .deniedPolicy [] s else c.reply 0x0403 .done (s.slot i).token s }

def execGetToken (r : Req) (s : State) : Out := .next (serve cmdGetToken r s)

end Sys2Proof.Machine
end

