-- ==== Sys2Proof/Machine/Held.lean ====
section
/-! DEFINITION. Evidence bundles, log exports and the reading of the ring log (R318, R319, R405, R413, R416, R417, R479,
R480). -/
namespace Sys2Proof.Machine
open Sys2Proof

/-! ### Held objects (R405) -/

/-- The chunk of an object, with its TOTAL, as GET_EVIDENCE and LOG_EXPORT answer it. -/
def heldChunk (o : HeldObj) (k : Nat) : Bytes :=
  leBytes 4 o.id.toNat ++ leBytes 4 k ++ leBytes 4 o.data.length ++ zeros 4 ++ slice o.data (k * chunkBytes) chunkBytes

/-- A new object is held; the fifth takes the place of the oldest (R405). Its identifier is never 0, which asks for a new
one. -/
def holdObject (isExport : Bool) (data : Bytes) (first : Nat) (s : State) : HeldObj × State :=
  let id : Word := if s.stolik.nextHeld = 0 then 1 else s.stolik.nextHeld
  let o : HeldObj := { id := id, isExport := isExport, data := data, since := s.tick, first := first }
  (o, s.modStolik fun k =>
    let l := k.held ++ [o]
    { k with held := l.drop (l.length - 4), nextHeld := id + 1 })

/-- The held object of an identifier. -/
def State.heldObj (s : State) (isExport : Bool) (id : Nat) : Option HeldObj :=
  s.stolik.held.find? fun o => o.isExport == isExport && o.id.toNat == id

/-- Slow ticks for which an object is held (R405). -/
def heldLife : Nat := 120 * ticksPerSec

/-- HELD_OBJECT_EXPIRY (R405). -/
def execHeldObjectExpiry (s : State) : Out :=
  .next (s.modStolik fun k => { k with held := drop? k.held fun o => decide (o.since + heldLife ≤ s.tick) })

/-! ### Evidence (R318, R319) -/

/-- A section: TYPE, LENGTH and its data, filled up to a multiple of eight (R318, R523). -/
def section_ (type : Nat) (data : Bytes) : Bytes :=
  leBytes 2 type ++ [0, 0] ++ leBytes 4 data.length ++ padTo data ((data.length + 7) / 8 * 8)

/-- Leaves of a lane in a flash state. -/
def Lane.leavesIn (l : Lane) (f : FlashState) : Nat := ((l.leaves.flatten).filter fun x => x.flash == f).length

/-- The LANES entry of a lane (R318): outcome, mismatches as far as a byte counts them, BAD and ERROR leaves,
MANIFEST_ID. -/
def laneEvidence (l : Lane) : Bytes :=
  [laneOutcomeByte l, BitVec.ofNat 8 (min 255 l.counts.mismatches)] ++ leBytes 4 (l.leavesIn .bad)
    ++ leBytes 4 (l.leavesIn .error) ++ leBytes 6 ((l.manifest.map (·.manifestId.toNat)).getD 0)

/-- The signed bytes of a bundle (R318). -/
def evidenceBody (s : State) (nonce : Bytes) : Bytes :=
  let body := section_ 1 (s.nvm.gicDevice ++ s.keys.gicAlias ++ (neededEarlier s).flatten)
    ++ section_ 2 (s.snap.blocks.flatMap measBytes)
    ++ section_ 3 ((fins 8).flatMap fun n => laneEvidence (s.lane n))
    ++ section_ 4 ((List.range ((s.adm.map (·.slots.length)).getD 0)).flatMap (slotEntry s))
    ++ section_ 5 ((logHeadBytes s).take 40)
  let len := 0x40 + body.length
  [0x47, 0x45, 0x42, 0x31, 1, 0, 5, 0] ++ leBytes 4 (len + 4723) ++ leBytes 4 len ++ nonce ++ leBytes 8 s.time
    ++ leBytes 2 s.node.toNat ++ zeros 6 ++ body

/-- A body with the HYBRID signature of the Alias key (R318, R479). -/
def signBody (k : KeyPair) (body : Bytes) (c : Fin 5) (s : State) : Bytes × State :=
  let g := signHybrid true k body (jobDone c s)
  (body ++ g.1, g.2)

/-- GET_EVIDENCE (R318, R405, R413). -/
def cmdGetEvidence : Cmd :=
  { op := 0x0404
    need := fun _ _ => 0x28
    badField := fun _ b => if u32 b 0x20 = 0 ∧ u32 b 0x24 ≠ 0 then some 0x24 else none
    locks := aliasLocks
    run := fun c s =>
      if u32 c.cmd 0x20 = 0 then
        match s.aliasPair with
        | none => c.reply 0x0404 .busyOwned [] s
        | some k =>
          let g := signBody k (evidenceBody s (c.cmd.take 32)) 2 s
          let o := holdObject false g.1 0 g.2
          c.reply 0x0404 .done (heldChunk o.1 0) o.2
      else
        match s.heldObj false (u32 c.cmd 0x20) with
        | none => c.reply 0x0404 .aborted [] s
        | some o => c.reply 0x0404 .done (heldChunk o (u32 c.cmd 0x24)) s }

def execGetEvidence (r : Req) (s : State) : Out := .next (serve cmdGetEvidence r s)

/-! ### Reading the ring log (R416, R417) -/

/-- At most n retained entries from a number on, oldest first. -/
def logFrom (l : RingLog) (first n : Nat) : List LogEntry := (l.entries.filter fun e => decide (first ≤ e.number)).take n

/-- LOG_READ (R397, R416, R417). A COUNT outside 1 to 1,023 is refused. -/
def cmdLogRead : Cmd :=
  { op := 0x0703
    headwater := fun _ => true
    need := fun _ _ => 16
    badField := fun _ b => reservedAt b 10 6
    run := fun c s =>
      let n := u16 c.cmd 8
      let first := max (u64 c.cmd 0) (logOldest s.nvm.log)
      let es := logFrom s.nvm.log first n
      if n = 0 ∨ 1023 < n then c.reply 0x0703 .deniedPolicy [] s
      else c.reply 0x0703 .done (leBytes 8 first ++ leBytes 2 es.length ++ zeros 6 ++ es.flatMap entryBytes) s }

def execLogRead (r : Req) (s : State) : Out := .next (serve cmdLogRead r s)

/-! ### Exports (R479, R480) -/

/-- CHAIN of the entry before a retained one (R479): of that entry, of the anchor, or CHAIN_SEED. An export of no entry
beyond the head has a PREV_CHAIN that the manual does not state, a free value. -/
def prevChain (s : State) (first : Nat) : Bytes × State :=
  let l := s.nvm.log
  if first = 0 then (chainSeed s, s)
  else
    match l.entries.find? (fun e => e.number + 1 == first), l.anchor with
    | some e, _ => (e.chain, s)
    | none, some a => if a.1 + 1 = first then (a.2, s) else drawBytes 32 s
    | none, none => drawBytes 32 s

/-- The signed bytes of an export (R479). -/
def exportBody (s : State) (key : KeyPair) (nonce prev : Bytes) (first : Nat) (es : List LogEntry) : Bytes :=
  let len := 0xB0 + 64 * es.length
  let l := s.nvm.log
  [0x47, 0x4C, 0x45, 0x31, 1, 0] ++ leBytes 2 s.node.toNat ++ leBytes 4 (len + 4723) ++ leBytes 4 len ++ nonce
    ++ leBytes 8 s.time ++ leBytes 8 first ++ leBytes 4 es.length ++ zeros 4 ++ prev ++ leBytes 8 l.count ++ headChain s
    ++ keyId key.block ++ leBytes 8 (logOldest l) ++ leBytes 8 l.lostUnexported ++ leBytes 8 l.dropped
    ++ es.flatMap entryBytes

/-- An export is assembled (R479, R480): FIRST is raised to OLDEST, COUNT cut at the head, and EXPORTED_TO follows where
entries were included. -/
def makeExport (k : KeyPair) (nonce : Bytes) (first n : Nat) (s : State) : HeldObj × State :=
  let first := max first (logOldest s.nvm.log)
  let es := logFrom s.nvm.log first n
  let p := prevChain s first
  let g := signBody k (exportBody p.2 k nonce p.1 first es) 3 p.2
  let s1 := g.2.modLog fun l => { l with exportedTo := if es = [] then l.exportedTo else max l.exportedTo (first + es.length) }
  holdObject true g.1 first s1

/-- A chunk of an export includes an entry that has been overwritten since (R480). -/
def chunkOverwritten (s : State) (o : HeldObj) (k : Nat) : Bool :=
  let signed := o.data.length - 4723
  (List.range ((signed - 0xB0) / 64)).any fun i =>
    decide (o.first + i < logOldest s.nvm.log) && decide (0xB0 + 64 * i < (k + 1) * chunkBytes)
      && decide (k * chunkBytes < 0xB0 + 64 * (i + 1))

/-- A chunk of a held export. -/
def exportChunk (c : Call) (o : HeldObj) (k : Nat) (s : State) : State :=
  if chunkOverwritten s o k then c.reply 0x0704 .aborted [] s else c.reply 0x0704 .done (heldChunk o k) s

/-- LOG_EXPORT (R405, R416, R417, R479, R480). -/
def cmdLogExport : Cmd :=
  { op := 0x0704
    need := fun _ _ => 0x38
    badField := fun _ b => reservedAt b 0x34 4
    locks := aliasLocks
    run := fun c s =>
      let k := u32 c.cmd 0x30
      if u32 c.cmd 0x2C = 0 then
        match s.aliasPair with
        | none => c.reply 0x0704 .busyOwned [] s
        | some key =>
          let o := makeExport key (c.cmd.take 32) (u64 c.cmd 0x20) (u32 c.cmd 0x28) s
          exportChunk c o.1 k o.2
      else
        match s.heldObj true (u32 c.cmd 0x2C) with
        | none => c.reply 0x0704 .aborted [] s
        | some o => exportChunk c o k s }

def execLogExport (r : Req) (s : State) : Out := .next (serve cmdLogExport r s)

end Sys2Proof.Machine
end

