-- ==== Sys2Proof/Machine/Snapshots.lean ====
section
/-! DEFINITION. Stillwater snapshots of this device and of the fabric: their requests, the capture, the record and its
reading (R405, R416, R519 to R524, R546 to R548). -/
namespace Sys2Proof.Machine
open Sys2Proof

/-! ### Requests (R416, R522, R547) -/

/-- SCOPE and AT of a request. -/
def snapScope (b : Bytes) : Nat := u8 b 0
def snapAt (b : Bytes) : Nat := u64 b 8

/-- AT lies in the past or too far ahead (R522). -/
def atRefused (s : State) (t : Nat) : Bool := t != 0 && (decide (t < s.time) || decide (s.time + 86400 * nsPerSec < t))

/-- Captures that may be scheduled and not yet taken (R522). -/
def captureRoom (s : State) : Bool := decide (s.stolik.captures.length < 4)

/-- SNAPSHOT_COUNTERS, with the capture that each form schedules (R522). -/
def cmdSnapshot (schedule : Call → State → State) : Cmd :=
  { op := 0x0701
    level := fun _ b => if snapScope b = 1 then .owner else .open_
    need := fun _ _ => 16
    badField := fun _ b => reservedAt b 1 7
    run := fun c s =>
      if 2 ≤ snapScope c.cmd ∨ atRefused s (snapAt c.cmd) ∨ (snapScope c.cmd = 1 ∧ s.sourceNow ≠ 2) then
        c.reply 0x0701 .deniedPolicy [] s
      else if !captureRoom s then c.reply 0x0701 .queueFull [] s
      else schedule c s }

/-- A capture is scheduled. -/
def addCapture (x : Capture) (s : State) : State := s.modStolik fun k => { k with captures := k.captures ++ [x] }

/-- The SCOPE of a request, behind its record. -/
def reqScope (r : Req) : Nat := snapScope (r.payload.drop (cmdOffset r))

/-- SNAPSHOT_COUNTERS of SCOPE 0 (R522). A SCOPE that R416 does not list comes here too, and is refused. -/
def execSnapshotCounters (r : Req) (s : State) : Out :=
  if reqScope r = 1 then .next s
  else
    .next (serve (cmdSnapshot fun c s =>
      let o := acceptOp c 0x0701 s
      addCapture { opId := o.1, at_ := snapAt c.cmd, fabric := false, initiator := none, late := false, acks := [] } o.2) r s)

/-- The data of a SNAP_SCHEDULE (R547). -/
def scheduleBytes (initiator : BitVec 12) (opId : Word) (t : Nat) : Bytes :=
  leBytes 2 initiator.toNat ++ zeros 2 ++ leBytes 4 opId.toNat ++ leBytes 8 t

/-- SNAPSHOT_COUNTERS of SCOPE 1 (R547): this node is the initiator. -/
def execSnapshotCountersFabric (r : Req) (s : State) : Out :=
  if reqScope r = 1 then
    .next (serve (cmdSnapshot fun c s =>
      let t := if snapAt c.cmd = 0 then s.time + 50000000 else snapAt c.cmd
      let o := acceptOp c 0x0701 s
      floodOut 3 (scheduleBytes s.node o.1 t)
        (addCapture { opId := o.1, at_ := t, fabric := true, initiator := none, late := false, acks := [] } o.2)) r s)
  else .next s

/-! ### The capture (R519 to R524) -/

/-- LANES: the entry of an enabled lane (R523). -/
def laneSnapshot (n : Fin 8) (l : Lane) : Bytes :=
  if l.cfg.enable then
    [BitVec.ofNat 8 n.val, l.epoch] ++ leBytes 2 l.rules.length ++ zeros 4 ++ laneCountBytes l.counts
      ++ counts48 ((List.range l.rules.length).map fun i => l.hits.getD i 0)
  else []

/-- The six sections of a record (R523). -/
def snapSections (s : State) : Bytes :=
  section_ 1 ((fins 8).flatMap fun n => laneSnapshot n (s.lane n))
    ++ section_ 2 ((fins 5).flatMap (classBytes s))
    ++ section_ 3 ((fins 64).flatMap (fun k => leBytes 8 (weirStateWord s.weir.st[k])) ++ leBytes 8 (stormWord s.weir)
      ++ leBytes 8 (pinWord s.weir))
    ++ section_ 4 ((fins 12).flatMap fun k => leBytes 8 (kindWord s k))
    ++ section_ 5 ((fins 16).flatMap fun h => leBytes 4 (holdWord (s.host h).hold))
    ++ section_ 6 (logHeadBytes s)

/-- SNFLAGS (R523). -/
def snapFlags (s : State) (x : Capture) : Nat :=
  b2n x.fabric + 2 * b2n x.late + 4 * b2n (x.fabric && s.sourceNow != 2)

/-- Hops to the time root (R546); none where this node knows no way to it. -/
def State.rootHops (s : State) : Option Nat :=
  if s.isRoot then some 0 else s.timeRootNode.bind fun r => s.hopsTo (BitVec.ofNat 12 r)

/-- SKEW_BOUND (R523, R524, R546). A node that knows no way to a root has no hop count, and its bound is a free value. -/
def skewBound (s : State) (x : Capture) : Nat × State :=
  if !x.fabric then (40, s)
  else
    match s.rootHops with
    | some h => (2 * (20 * h + 40) + 40, s)
    | none => drawNat s

/-- The record of a capture taken now (R523). -/
def snapRecord (s : State) (x : Capture) : Bytes × State :=
  let b := skewBound s x
  let body := snapSections s
  let head := [0x47, 0x53, 0x4E, 0x31, 1, 0] ++ leBytes 2 s.node.toNat ++ leBytes 4 (0x30 + body.length + 8) ++ [6, 0]
    ++ leBytes 2 (snapFlags s x) ++ leBytes 4 x.opId.toNat ++ zeros 4 ++ leBytes 8 x.at_ ++ leBytes 8 s.time
    ++ leBytes 4 b.1 ++ zeros 4
  (head ++ body ++ leBytes 8 (crc64 (head ++ body)).toNat, b.2)

/-- The capture whose AT comes first. -/
def firstCapture : List Capture → Option Capture
  | [] => none
  | x :: xs => match firstCapture xs with
    | none => some x
    | some y => if y.at_ < x.at_ then some y else some x

/-- SNAPSHOT_CAPTURE (R520, R522): the strobe copies every counter into a free shadow set. With both sets in use a capture
that is due waits, and is late. -/
def execSnapshotCapture (s : State) : Out :=
  match firstCapture s.stolik.captures with
  | none => .next s
  | some x =>
    if s.time < x.at_ ∨ !s.lanesPowered then .next s
    else if 2 ≤ s.stolik.shadows.length then
      .next (s.modStolik fun k =>
        { k with captures := k.captures.map fun y => if y.at_ ≤ s.time then { y with late := true } else y })
    else
      let r := snapRecord s x
      .next (r.2.modStolik fun k => { k with captures := k.captures.erase x, shadows := k.shadows ++ [⟨x, r.1⟩] })

/-- SNFLAGS of a record. -/
def recordFlags (record : Bytes) : Nat := u16 record 0x0E

/-- The data of a SNAP_ACK (R547). -/
def ackBytes (node : BitVec 12) (opId : Word) (flags : Nat) : Bytes :=
  leBytes 2 node.toNat ++ leBytes 4 opId.toNat ++ leBytes 2 flags

/-- The node that another one asked for its record answers with SNAP_ACK (R547). -/
def sendSnapAck (x : Shadow) (s : State) : State :=
  match x.cap.initiator with
  | none => endOp x.cap.opId .done 0 s
  | some n =>
    let m := takeMsgId s
    sendRouted n 4 m.1 (ackBytes s.node x.cap.opId (recordFlags x.record)) m.2

/-- SNAPSHOT_COPY (R405, R522): firmware copies a shadow set into a record and the set is free; a ninth record takes the
place of the oldest. -/
def execSnapshotCopy (s : State) : Out :=
  match s.stolik.shadows, s.mode with
  | x :: xs, .firmware =>
    let rec_ : Snapshot :=
      { opId := x.cap.opId, initiator := x.cap.initiator, record := x.record, fabric := x.cap.fabric, at_ := x.cap.at_, nodes := x.cap.acks }
    let s1 := s.modStolik fun k =>
      let l := k.snapshots ++ [rec_]
      { k with shadows := xs, snapshots := l.drop (l.length - 8) }
    .next (sendSnapAck x s1)
  | _, _ => .next s

/-! ### Reading (R405, R416, R548) -/

/-- A chunk of a record (R405). -/
def snapChunk (record : Bytes) (k : Nat) : Bytes := slice record (k * chunkBytes) chunkBytes

/-- The response of GET_SNAPSHOT. -/
def snapAnswer (total : Nat) (chunk : Bytes) : Bytes := leBytes 4 total ++ zeros 4 ++ chunk

/-- The snapshot that this node holds for its own operation. -/
def State.ownSnapshot (s : State) (id : Nat) : Option Snapshot :=
  s.stolik.snapshots.find? fun x => x.initiator.isNone && x.opId.toNat == id

/-- The data of a SNAP_FETCH (R548). -/
def fetchBytes (opId : Nat) (node : BitVec 12) (chunk : Nat) : Bytes :=
  leBytes 4 opId ++ leBytes 2 node.toNat ++ zeros 2 ++ leBytes 4 chunk

/-- A request waits for another node's answer (R548). -/
def startFetch (c : Call) (node : BitVec 12) (s : State) : State :=
  let m := takeMsgId (markInFlight c s)
  let r : Req := { port := c.port, flags := 0, tag := c.tag, payload := c.cmd }
  sendRouted node 5 m.1 (fetchBytes (u32 c.cmd 0) node (u32 c.cmd 8))
    (m.2.modStolik fun k => { k with fetches := k.fetches ++ [(r, m.1, s.tick)] })

/-- GET_SNAPSHOT (R416, R548). -/
def cmdGetSnapshot : Cmd :=
  { op := 0x0702
    need := fun _ _ => 12
    badField := fun _ b => reservedAt b 6 2
    run := fun c s =>
      match s.ownSnapshot (u32 c.cmd 0) with
      | none => c.reply 0x0702 .aborted [] s
      | some x =>
        let node := u16 c.cmd 4
        if node = s.node.toNat then
          c.reply 0x0702 .done (snapAnswer x.record.length (snapChunk x.record (u32 c.cmd 8))) s
        else if x.nodes.any fun n => n.toNat == node then startFetch c (BitVec.ofNat 12 node) s
        else c.reply 0x0702 .deniedPolicy [] s }

def execGetSnapshot (r : Req) (s : State) : Out := .next (serve cmdGetSnapshot r s)

end Sys2Proof.Machine
end

