-- ==== Sys2Proof/Machine/InnerJobs.lean ====
section
/-! DEFINITION. The digest jobs of internal submitters whose source is cut off or whose length disagrees (R346, R347). Such a job is
not held in a descriptor of the model (assumption 36): the command of the work that it belongs to is its end with a result, and
RIFFLE_JOB_END names it where it ends otherwise. -/
namespace Sys2Proof.Machine
open Sys2Proof

/-- An engine of the pool is usable under the supplies (R327). -/
def riffleUsable (s : State) (i : Fin 32) : Bool :=
  pooled i && (s.riffle i).inService && (s.riffle i).boundTo.isNone && (!s.chuck.mainFromVsb || vsbRiffle i)

def mandrelUsable (s : State) (m : Fin 8) : Bool :=
  (s.mandrel m).inService && (!s.chuck.mainFromVsb || vsbMandrel m)

/-- The engine may run the job (R320, R325, R362): leaves of class 0 run on the lane's Riffle, those of platform verification on the
bound one, the others on the pool. -/
def runsInner (s : State) (i : Fin 32) (j : InnerJob) : Bool :=
  match j with
  | .leaf _ .scrub => riffleUsable s i
  | .leaf n (.verify _ _) => i.val == n.val && (s.riffle i).inService
  | .leaf n _ => (s.lane n).riffle == some i && (s.riffle i).inService
  | _ => riffleUsable s i

/-- The job may run on another engine (R347). -/
def otherEngine (s : State) (i : Fin 32) (j : InnerJob) : Bool := (fins 32).any fun k => k != i && runsInner s k j

/-- A length disagreement is reported on the engine's source (R347, R425). -/
def lengthEvent (i : Fin 32) (cls : EvClass) (declared : Nat) (s : State) : State :=
  if i.val < 8 then weirReport (Fin.ofNat 64 i.val) cls 5 1 declared s
  else weirReport (Fin.ofNat 64 (24 + (i.val - 8) / 3)) cls 0x30 ((i.val - 8) % 3) declared s

/-- The state after a command of the model. -/
def stateOf (s : State) : Out → State
  | .next t => t
  | _ => s

/-- A tracker whose leaf cannot be digested is free, and its leaf is mismatched with a read fault of its source (R130, R131,
R347). -/
def trackerUnread (n : Fin 8) (t : Fin 64) (src : Option Sel) (s : State) : State :=
  let k := (s.lane n).trackers[t]
  let s1 := s.modLane n fun l => l.modTracker t fun _ => Tracker.free
  let s2 := match src with
    | some x => reservoirMismatch n k.ref x k.foundBy s1
    | none => flashMismatch n k.ref k.foundBy true none s1
  s2.modLane n startHash

/-- A leaf whose digest job ends with a length result for the second time: a read fault of its source (R347). -/
def leafUnread (n : Fin 8) (k : LeafJob) (s : State) : State :=
  match k with
  | .hash => (match (s.lane n).nextHash with
    | none => s
    | some t => if (s.lane n).hashing then trackerUnread n t ((s.lane n).trackers[t]).res s else s)
  | .fill t =>
    if ((s.lane n).trackers[t]).st = .filling then trackerUnread n t (s.fillSource n ((s.lane n).trackers[t]).region) s else s
  | .check => stateOf s (execFlashCheck n [] true s)
  | .confirm => stateOf s (execConfirmationReads n [] [] true s)
  | .scrub => stateOf s (execScrub n [] true s)
  | .mirror region leaf => stateOf s (execMirrorFill n region leaf [] ((s.lane n).leafBad ⟨region.val, leaf⟩) true s)
  | .verify region leaf => s.modLane n fun l => { l with pv := { l.pv with unread := ⟨region.val, leaf⟩ :: l.pv.unread } }

/-- The second disagreement of a job, with the engine's result (R347). A FATAL fault of the engine has the CODE of the length
disagreement (assumption 62). -/
def secondLength (i : Fin 32) (e : InnerEnd) (r : Res) (s : State) : State :=
  match e.job with
  | .leaf n k => leafUnread n k s
  | .session target => if (s.target target.toNat).xfer = .none then s else endTransfer target.toNat r s
  | .node _ => lengthEvent i .fatal e.declared (if (s.riffle i).inService then riffleDown i s else s)

/-- An internal job ends on a Riffle (R344 to R347). One whose source was cut off is withdrawn; one with a result goes on with the
command of its work; a length result is reported, and the job is submitted again, on another engine where its class allows
one. -/
def endInner (i : Fin 32) (delivered : Nat) (e : InnerEnd) (s : State) : State :=
  if !runsInner s i e.job || e.cut || delivered == e.declared then s
  else
    let r : Res := if e.declared < delivered then .lengthLong else .lengthShort
    match s.conf.lengths.find? fun x => x.1 == e.job with
    | none => (lengthEvent i .ucc e.declared s).modConf fun c => { c with lengths := c.lengths ++ [(e.job, i)] }
    | some x =>
      if x.2 = i ∧ otherEngine s i e.job then s
      else
        secondLength i e r ((lengthEvent i .ucc e.declared s).modConf fun c =>
          { c with lengths := drop? c.lengths fun y => y.1 == e.job })

end Sys2Proof.Machine
end

