-- ==== Sys2Proof/Machine/Engines.lean ====
section
/-! DEFINITION. The engine services of Stolik, the jobs of Confluence and the engines that run them (R320 to R384, R414,
R415, R595). -/
namespace Sys2Proof.Machine
open Sys2Proof

/-! ### Functions and contexts (R339, R348, R354) -/

/-- The functions of R354: the hash, and whether it is HMAC. -/
def fnOf (b : Byte) : Option (HashFn × Bool) :=
  match b.toNat with
  | 1 => some (.sha256, false)
  | 2 => some (.sha384, false)
  | 3 => some (.sha512, false)
  | 4 => some (.sha512t256, false)
  | 5 => some (.sha3t256, false)
  | 6 => some (.sha3t384, false)
  | 7 => some (.shake256, false)
  | 0x11 => some (.sha256, true)
  | 0x12 => some (.sha384, true)
  | 0x13 => some (.sha512, true)
  | _ => none

/-- FUNCTION is an HMAC. -/
def isHmac (b : Byte) : Bool := (fnOf b).any (·.2)

/-- The result of a whole message (R339, R343). -/
def digestOut (c : Ctx) : Bytes :=
  match fnOf c.fn with
  | none => []
  | some (f, true) => hmac f c.key c.absorbed
  | some (f, false) => hashN f c.absorbed (if f = .shake256 then c.outLen else hashLen f)

/-- The greatest message (R342). -/
def maxMessage : Nat := 2 ^ 61 - 1

/-- The comparisons of R344 for a job that delivers some bytes against the JOB_BYTES it declared: the length result, if
any. -/
def lengthResult (c : Ctx) (declared delivered : Nat) (final : Bool) : Option Res :=
  let n := c.absorbed.length + delivered
  if declared < delivered then some .lengthLong
  else if (c.total.any fun t => decide (t < n)) ∨ maxMessage < n then some .lengthLong
  else if delivered < declared then some .lengthShort
  else if final && c.total.any fun t => decide (n < t) then some .lengthShort
  else none

/-! ### Descriptors and session slots (R321, R322) -/

/-- Descriptors reserved to a class. -/
def descReserve (c : Fin 5) : Nat := [640, 512, 1024, 512, 256].getD c.val 0

/-- Descriptors of the shared part. -/
def descShared : Nat := 1152

/-- Shared descriptors in use. -/
def State.sharedUsed (s : State) : Nat := ((fins 5).map fun c => s.inUse c - descReserve c).foldl (· + ·) 0

/-- Class-3 descriptors of a port. -/
def State.portJobs (s : State) (p : Port) : Nat := (s.allJobs.filter fun j => j.cls == 3 && j.port == some p).length

/-- A Stolik request finds no class-3 descriptor (R322). -/
def noDescriptor (s : State) (p : Port) : Bool :=
  decide (64 ≤ s.portJobs p) || (decide (descReserve 3 ≤ s.inUse 3) && decide (descShared ≤ s.sharedUsed))

/-- No session slot is free (R321). -/
def noSession (s : State) : Bool := decide (160 ≤ s.conf.sessions.length)

/-- One answer QUEUE_FULL of R322 is counted (R338). -/
def countQueueFull (s : State) : State :=
  s.modConf fun k => { k with counts := vmod k.counts 3 fun x => { x with queueFull := inc48 x.queueFull } }

/-- A refusal of R322 counts; one of the port's 64 requests in flight does not (R393). -/
def engineRefused (c : Call) (e : Refused) (s : State) : State :=
  if e.res = .queueFull ∧ (s.stolik.inFlight.filter fun x => x.1 == c.port).length < 64 then countQueueFull s else s

def engineLocks (s : State) (c : Call) : Option Res := if noDescriptor s c.port then some .queueFull else none

def openLocks (s : State) (c : Call) : Option Res :=
  if noDescriptor s c.port ∨ noSession s then some .queueFull else none

/-- A session by its number. -/
def State.session (s : State) (id : Word) : Option Session := s.conf.sessions.find? fun x => x.id == id

/-- Another port's session is BUSY_OWNED (R350). -/
def sessionLocks (s : State) (c : Call) : Option Res :=
  match s.session (BitVec.ofNat 32 (u32 c.cmd 0)) with
  | some x => if x.port ≠ c.port then some .busyOwned else engineLocks s c
  | none => none

/-! ### Engines in service (R324, R327, R595) -/

/-- The work needs a Mandrel. -/
def onMandrel : JobWork → Bool
  | .ecdsa .. => true
  | .rsa .. => true
  | .mldsa .. => true
  | _ => false

/-- A block that will return from its BLOCK reset (R431). -/
def returning (s : State) (lo hi : Nat) : Bool :=
  s.weir.blocks.any fun b => decide (lo ≤ b.1.val) && decide (b.1.val ≤ hi) && !b.2.2

/-- No engine of the kind is in service or returning (R595). -/
def noEngine (s : State) (mandrel : Bool) : Bool :=
  if mandrel then ((fins 8).all fun m => !(s.mandrel m).inService) && !returning s 32 39
  else ((fins 32).all fun i => !(pooled i && (s.riffle i).inService && (s.riffle i).boundTo.isNone)) && !returning s 24 31

/-! ### Submission (R321, R328, R595) -/

/-- The answer of a job's requester; an internal job has none. -/
def jobReply (j : Job) (r : Res) (payload : Bytes) (s : State) : State :=
  match j.port with
  | none => s
  | some p => reply p j.opcode.toNat j.tag r payload s

/-- The session that a job continues. -/
def jobSession : JobWork → Option Word
  | .update x _ => some x
  | .finish x _ => some x
  | .suspend x => some x
  | _ => none

/-- A session closes: its slot is wiped and freed, and its queued requests are answered ABORTED (R352, R353). -/
def closeSession (id : Word) (s : State) : State :=
  let mine := fun (j : Job) => jobSession j.work == some id
  let s1 := s.modConf fun k =>
    { k with sessions := drop? k.sessions fun x => x.id == id, queue := k.queue.filter fun j => !mine j }
  (s.conf.queue.filter mine).foldl (fun s j => jobReply j .aborted [] s) s1

/-- The session that a job continues, if any, closes with the job's ABORTED (R352). -/
def closeSessionOf (w : JobWork) (s : State) : State :=
  match jobSession w with
  | none => s
  | some x => closeSession x s

/-- A class-3 job of a Stolik request is submitted, or ended where no engine can run it (R595). -/
def submitJob (c : Call) (op : Nat) (w : JobWork) (s : State) : State :=
  if noEngine s (onMandrel w) then
    weirReport 40 .fatal 0x41 (b2n (onMandrel w)) 0 (closeSessionOf w (c.reply op .aborted [] s))
  else
    (markInFlight c s).modConf fun k =>
      let j : Job :=
        { id := k.nextJob, cls := 3, port := some c.port, tag := c.tag, opcode := BitVec.ofNat 16 op, work := w, runs := 1,
          submitted := s.time, ahead := false }
      { k with queue := k.queue ++ [j], nextJob := k.nextJob + 1 }

/-- A session has received a request (R353). -/
def touchSession (id : Word) (s : State) : State :=
  s.modConf fun k => { k with sessions := k.sessions.map fun x => if x.id == id then { x with lastUse := s.tick } else x }

/-- A session opens (R352, R415). -/
def openSession (p : Port) (ctx : Ctx) (s : State) : Word × State :=
  let id := s.conf.nextSession
  (id, s.modConf fun k =>
    { k with sessions := k.sessions ++ [{ id := id, port := p, ctx := ctx, lastUse := s.tick }], nextSession := id + 1 })

/-! ### The digest commands (R352 to R356, R414, R415) -/

/-- The first of FUNCTION, the reserved byte, KEY_LENGTH and OUT_LENGTH that no rule admits (R339, R340, R414). -/
def digestBad (b : Bytes) : Option Nat :=
  let fn := b.getD 0 0
  let kl := u16 b 2
  let ol := u32 b 4
  if (fnOf fn).isNone then some 0
  else if u8 b 1 ≠ 0 then some 1
  else if (if isHmac fn then kl = 0 ∨ 1024 < kl else kl ≠ 0) then some 2
  else if (if fn = 7 then ol = 0 ∨ 65536 < ol else ol ≠ 0) then some 4
  else none

/-- The context that a command opens. -/
def startCtx (b : Bytes) (total : Option Nat) : Ctx :=
  { fn := b.getD 0 0, key := slice b 16 (u16 b 2), outLen := u32 b 4, absorbed := [], total := total, keyBlock := false }

/-- DIGEST. -/
def cmdDigest : Cmd :=
  { op := 0x0501
    need := fun _ c => 16 + u16 c.cmd 2 + u32 c.cmd 8
    badField := fun _ b => (digestBad b).or (reservedAt b 12 4)
    locks := engineLocks
    refused := engineRefused
    run := fun c s =>
      submitJob c 0x0501 (.digest (startCtx c.cmd (some (u32 c.cmd 8))) (c.cmd.drop (16 + u16 c.cmd 2))) s }

def execDigest (r : Req) (s : State) : Out := .next (serve cmdDigest r s)

/-- DIGEST_START. -/
def cmdDigestStart : Cmd :=
  { op := 0x0502
    need := fun _ c => 16 + u16 c.cmd 2
    badField := fun _ b => digestBad b
    locks := openLocks
    refused := engineRefused
    run := fun c s =>
      let t := u64 c.cmd 8
      let o := openSession c.port (startCtx c.cmd (if t = 2 ^ 64 - 1 then none else some t)) s
      c.reply 0x0502 .done (leBytes 4 o.1.toNat) (jobDone 3 o.2) }

def execDigestStart (r : Req) (s : State) : Out := .next (serve cmdDigestStart r s)

/-- A command on a session: closed or unknown is ABORTED (R415). -/
def cmdSession (op : Nat) (need : Call → Nat) (work : Word → Bytes → JobWork) : Cmd :=
  { op := op
    need := fun _ c => need c
    badField := fun _ b => reservedAt b 4 4
    locks := sessionLocks
    refused := engineRefused
    run := fun c s =>
      let id : Word := BitVec.ofNat 32 (u32 c.cmd 0)
      match s.session id with
      | none => c.reply op .aborted [] s
      | some _ => submitJob c op (work id (c.cmd.drop 8)) (touchSession id s) }

/-- DIGEST_UPDATE (R352). -/
def execDigestUpdate (r : Req) (s : State) : Out :=
  .next (serve (cmdSession 0x0503 (fun c => max 8 c.cmd.length) .update) r s)

/-- DIGEST_FINISH (R344, R352). -/
def execDigestFinish (r : Req) (s : State) : Out :=
  .next (serve (cmdSession 0x0504 (fun c => max 8 c.cmd.length) .finish) r s)

/-- DIGEST_SUSPEND (R354): it runs after every queued job of the session. -/
def execDigestSuspend (r : Req) (s : State) : Out :=
  .next (serve (cmdSession 0x0505 (fun _ => 8) fun id _ => .suspend id) r s)

/-- PORT and ORIGIN of a sealed context (R354). -/
def sealPort : Port → Nat × Nat
  | .hp n => (n.val, 0)
  | .mb b => (b.val + 32, 0)
  | .pl k o => (k.val + 64, o.toNat)

/-- The first 48 bytes of a sealed context (R354). -/
def sealHead (p : Port) (c : Ctx) (serial : Nat) (nonce : Bytes) : Bytes :=
  [0x47, 0x53, 0x43, 0x31, 1, 0, c.fn, 0] ++ leBytes 8 c.absorbed.length ++ [BitVec.ofNat 8 (sealPort p).1, 0]
    ++ leBytes 2 (sealPort p).2 ++ zeros 4 ++ leBytes 8 serial ++ nonce

/-- TAG of a sealed context (R354, R355). -/
def sealTag (kSeal body : Bytes) : Bytes := hmac .sha384 (slice kSeal 48 48) body

/-- A context is sealed (R354, R355). The encoding of its plaintext is not given, so STATE is a free value. -/
def sealContext (p : Port) (c : Ctx) (kSeal : Bytes) (s : State) : Bytes × State :=
  let n := drawBytes 16 s
  let st := drawBytes 400 n.2
  let serial := s.keys.sealSerial + 1
  let body := sealHead p c serial n.1 ++ st.1
  let out := body ++ sealTag kSeal body
  (out, (st.2.modKeys fun k => { k with sealSerial := serial }).modConf fun k => { k with sealed := (out, c) :: k.sealed })

/-- The fields of step 1 of R356, in their order in the layout. -/
def sealedBad (b : Bytes) : Option Nat :=
  if b.take 4 ≠ [0x47, 0x53, 0x43, 0x31] then some 0
  else if u16 b 4 ≠ 1 then some 4
  else if (fnOf (b.getD 6 0)).isNone then some 6
  else if u8 b 7 ≠ 0 then some 7
  else if 96 ≤ u8 b 0x10 then some 0x10
  else if u8 b 0x11 ≠ 0 then some 0x11
  else if 4096 ≤ u16 b 0x12 then some 0x12
  else reservedAt b 0x14 4

/-- The context that a sealed one opens (R355): the one sealed in it; for bytes that no seal of this model gave and whose
TAG agrees, a context of as many free bytes. -/
def openSealed (b : Bytes) (s : State) : Ctx × State :=
  match s.conf.sealed.find? fun x => x.1 == b with
  | some x => (x.2, s)
  | none =>
    let d := drawBytes (u64 b 8) s
    ({ fn := b.getD 6 0, key := [], outLen := 0, absorbed := d.1, total := none, keyBlock := false }, d.2)

/-- DIGEST_RESUME (R356). -/
def cmdDigestResume : Cmd :=
  { op := 0x0506
    need := fun _ _ => 496
    badField := fun _ b => sealedBad b
    locks := engineLocks
    refused := engineRefused
    run := fun c s =>
      let tagOk := s.keys.kSeal.any fun k => sealTag k (c.cmd.take 0x1C0) == c.cmd.drop 0x1C0
      if !tagOk ∨ (u8 c.cmd 0x10, u16 c.cmd 0x12) ≠ sealPort c.port then c.reply 0x0506 .notAuthorised [] s
      else if noSession s then c.reply 0x0506 .queueFull [] (countQueueFull s)
      else
        let x := openSealed c.cmd s
        let o := openSession c.port x.1 x.2
        c.reply 0x0506 .done (leBytes 4 o.1.toNat) (jobDone 3 o.2) }

def execDigestResume (r : Req) (s : State) : Out := .next (serve cmdDigestResume r s)

/-! ### The public-key commands (R363 to R370, R414) -/

/-- The CURVE codes. -/
def curveOf (n : Nat) : Option Curve :=
  match n with
  | 1 => some .p256
  | 2 => some .p384
  | 3 => some .p521
  | _ => none

/-- Bytes of a coordinate of a curve. -/
def coordBytes (cv : Curve) : Nat := (curveParams cv).size

/-- ECDSA_VERIFY. -/
def cmdEcdsaVerify : Cmd :=
  { op := 0x0507
    need := fun _ c => match curveOf (u8 c.cmd 0) with
      | none => max 16 c.cmd.length
      | some cv => 16 + 4 * coordBytes cv + u16 c.cmd 2
    badField := fun _ b =>
      if (curveOf (u8 b 0)).isNone then some 0 else (reservedAt b 1 1).or (reservedAt b 4 12)
    locks := engineLocks
    refused := engineRefused
    run := fun c s =>
      match curveOf (u8 c.cmd 0) with
      | none => s
      | some cv =>
        let z := coordBytes cv
        submitJob c 0x0507 (.ecdsa cv (slice c.cmd 16 (2 * z)) (slice c.cmd (16 + 2 * z) z) (slice c.cmd (16 + 3 * z) z)
          (c.cmd.drop (16 + 4 * z))) s }

def execEcdsaVerify (r : Req) (s : State) : Out := .next (serve cmdEcdsaVerify r s)

/-- Modulus bytes of a SIZE code. -/
def rsaBytes (n : Nat) : Option Nat :=
  match n with
  | 0 => some 256
  | 1 => some 384
  | 2 => some 512
  | 3 => some 1024
  | _ => none

/-- RSA_VERIFY (R366). -/
def cmdRsaVerify : Cmd :=
  { op := 0x0508
    need := fun _ c => match rsaBytes (u8 c.cmd 0) with
      | none => max 4 c.cmd.length
      | some l => 4 + 2 * l
    badField := fun _ b => if (rsaBytes (u8 b 0)).isNone then some 0 else reservedAt b 1 3
    locks := engineLocks
    refused := engineRefused
    run := fun c s =>
      match rsaBytes (u8 c.cmd 0) with
      | none => s
      | some l => submitJob c 0x0508 (.rsa (slice c.cmd 4 l) (slice c.cmd (4 + l) l)) s }

def execRsaVerify (r : Req) (s : State) : Out := .next (serve cmdRsaVerify r s)

/-- Bytes of the public key and signature of a SET code (R363). -/
def mldsaSizes (n : Nat) : Option (Nat × Nat) :=
  match n with
  | 1 => some (1952, 3309)
  | 2 => some (2592, 4627)
  | _ => none

/-- MLDSA_VERIFY. -/
def cmdMldsaVerify : Cmd :=
  { op := 0x0509
    need := fun _ c => match mldsaSizes (u8 c.cmd 0) with
      | none => max 4 c.cmd.length
      | some z => 4 + z.1 + 64 + z.2
    badField := fun _ b => if (mldsaSizes (u8 b 0)).isNone then some 0 else reservedAt b 1 3
    locks := engineLocks
    refused := engineRefused
    run := fun c s =>
      match mldsaSizes (u8 c.cmd 0) with
      | none => s
      | some z =>
        submitJob c 0x0509
          (.mldsa (c.cmd.getD 0 0) (slice c.cmd 4 z.1) (slice c.cmd (4 + z.1) 64) (slice c.cmd (4 + z.1 + 64) z.2)) s }

def execMldsaVerify (r : Req) (s : State) : Out := .next (serve cmdMldsaVerify r s)

/-! ### Order and eligibility (R328, R329, R333, R595) -/

/-- A port's place in the round robin of class 3. -/
def portKey : Port → Nat
  | .hp n => n.val
  | .mb b => 8 + b.val
  | .pl k o => 24 + 4096 * k.val + o.toNat

/-- No earlier job of the same session waits, runs or is suspended (R333, R352). -/
def sessionTurn (s : State) (j : Job) : Bool :=
  match jobSession j.work with
  | none => true
  | some x =>
    !((s.conf.queue.takeWhile fun k => k.id != j.id).any fun k => jobSession k.work == some x)
      && !(s.conf.riffles.toList.any fun r => (r.job.toList ++ r.suspended).any fun k => jobSession k.work == some x)

/-- The jobs of a class that wait for one kind of engine and may start on engine e. -/
def readyJobs (s : State) (e : Engine) (c : Fin 5) : List Job :=
  s.conf.queue.filter fun j =>
    j.cls == c && sessionTurn s j && (match e, j.work with
      | .riffle i, .kat k _ => i == k
      | .riffle _, w => !onMandrel w
      | .mandrel _, w => onMandrel w)

/-- The job whose port comes next after the port last served (R328). -/
def roundRobin (last : Option Port) (js : List Job) : Option Job :=
  let key := fun (j : Job) => (j.port.map portKey).getD 0
  let l := (last.map portKey).getD 0
  let after := js.filter fun j => last.isNone || decide (l < key j)
  let pool := if after = [] then js else after
  pool.foldl (fun b j => match b with
    | none => some j
    | some (x : Job) => if key j < key x then some j else some x) none

/-- The first eligible job of a class for an engine (R328); one that is dispatched again goes ahead (R332, R334). -/
def firstOf (s : State) (e : Engine) (c : Fin 5) : Option Job :=
  ((readyJobs s e c).find? (·.ahead)).or
    (if c = 3 then roundRobin s.conf.lastPort (readyJobs s e c) else (readyJobs s e c).head?)

/-- The reserved class of an engine; on VSB group 1 and both Mandrels have none (R327). -/
def reserveOf (s : State) (e : Engine) : Option (Fin 5) :=
  match e with
  | .riffle i => if s.chuck.mainFromVsb ∧ 11 ≤ i.val then none else (s.riffle i).reserve
  | .mandrel m => if s.chuck.mainFromVsb then none else (s.mandrel m).reserve

/-- A Mandrel takes a class (R329). -/
def mandrelTakes (s : State) (m : Fin 8) (c : Fin 5) : Bool :=
  match reserveOf s (.mandrel m) with
  | none => true
  | some r => decide (c.val ≤ r.val)

/-- A class has no Mandrel in service that its rules admit (R595). -/
def noAllowedMandrel (s : State) (c : Fin 5) : Bool := (fins 8).all fun m => !(mandrelUsable s m && mandrelTakes s m c)

/-- An engine may take a class at all (R327, R329, R595). -/
def engineTakes (s : State) (e : Engine) (c : Fin 5) : Bool :=
  match e with
  | .riffle i => !(s.chuck.mainFromVsb && decide (11 ≤ i.val) && c == 4)
  | .mandrel m => mandrelTakes s m c || noAllowedMandrel s c

/-- The first eligible job of a list of classes. -/
def firstAmong (s : State) (e : Engine) (cs : List (Fin 5)) : Option Job :=
  (cs.filterMap fun c => if engineTakes s e c then firstOf s e c else none).head?

/-- Steps 2 and 3 of R328. -/
def nextJob (s : State) (e : Engine) : Option Job :=
  match (reserveOf s e).bind fun c => firstOf s e c with
  | some j => some j
  | none => firstAmong s e (fins 5)

/-- A free Riffle that can take pool work (R330). -/
def freeRiffle (s : State) : Bool := (fins 32).any fun i => riffleUsable s i && (s.riffle i).job.isNone

/-- The job for which a busy Riffle gives way (R330). -/
def preempting (s : State) (i : Fin 32) (running : Job) : Option Job :=
  let higher := (fins 5).filter fun c => decide (c.val < running.cls.val)
  match (if freeRiffle s then none else firstAmong s (.riffle i) higher), reserveOf s (.riffle i) with
  | some j, _ => some j
  | none, some r => if running.cls = r ∨ running.cls = 0 then none else firstOf s (.riffle i) r
  | none, none => none

/-! ### Dispatch (R326, R328, R330, R331, R376, R377) -/

/-- A job leaves the queue, with its wait (R338) and the turn of its port. -/
def takeJob (j : Job) (s : State) : State :=
  s.modConf fun k =>
    { k with
      queue := k.queue.erase j
      lastPort := if j.cls = 3 then j.port else k.lastPort
      counts := vmod k.counts j.cls fun x => { x with waitMax := max x.waitMax (min (2 ^ 32 - 1) ((s.time - j.submitted) / 10)) } }

/-- A job starts on a Riffle. -/
def startRiffle (i : Fin 32) (j : Job) (s : State) : State :=
  noteJob (.riffle i) (powerEngine (.riffle i) ((takeJob j s).modRiffle i fun r =>
    { r with job := some { j with ahead := false } }))

/-- The owner of a job's submitter (R375). -/
def jobOwner (j : Job) : OpOwner :=
  match j.port with
  | none => .headstock
  | some p => .port p

/-- The operands of a public-key job in the order of R363. -/
def jobOperands : JobWork → List Bytes
  | .ecdsa _ q r t h => [q, r, t, h]
  | .rsa n sig => [n, sig]
  | .mldsa _ pk mu sig => [pk, mu, sig]
  | _ => []

/-- A job is loaded into a powered Mandrel (R376); a secret of another owner is wiped first (R377). -/
def loadMandrel (m : Fin 8) (j : Job) (s : State) : State :=
  noteJob (.mandrel m) ((powerEngine (.mandrel m) s).modMandrel m fun x =>
    { x with
      job := some { j with ahead := false }
      wiping := x.secret
      owner := jobOwner j
      mem := if x.secret then x.mem else jobOperands j.work })

/-- A job starts on a Mandrel. -/
def startMandrel (m : Fin 8) (j : Job) (s : State) : State := loadMandrel m j (takeJob j s)

/-- A job whose operand lengths R363 does not give (R365). -/
def operandLength : JobWork → Option Res
  | .ecdsa cv _ _ _ h =>
    let lo := match cv with
      | .p256 => 32
      | .p384 => 48
      | .p521 => 64
    if h.length < lo then some .lengthShort else if 64 < h.length then some .lengthLong else none
  | _ => none

/-- The first bytes of a public-key response: MANDREL and RUNS (R414). -/
def mandrelHead (m : Fin 8) (j : Job) : Bytes := [BitVec.ofNat 8 m.val, BitVec.ofNat 8 j.runs, 0, 0]

/-- A job is dispatched to a Mandrel, or refused there without engine time (R365). -/
def dispatchMandrel (m : Fin 8) (j : Job) (s : State) : State :=
  match operandLength j.work with
  | some r => jobReply j r (mandrelHead m j) (takeJob j s)
  | none => startMandrel m j s

/-- A running job is suspended (R330, R331). -/
def suspendJob (i : Fin 32) (j : Job) (s : State) : State :=
  (s.modRiffle i fun r => { r with job := none, suspended := j :: r.suspended }).modConf fun k =>
    { k with counts := vmod k.counts j.cls fun x => { x with preempted := inc48 x.preempted } }

/-- Every waiting job of a kind ends with ABORTED, with the event of R595. -/
def abortKind (mandrel : Bool) (s : State) : State :=
  let mine := fun (j : Job) => onMandrel j.work == mandrel && j.cls != 0
  let js := s.conf.queue.filter mine
  if js = [] then s
  else
    weirReport 40 .fatal 0x41 (b2n mandrel) 0
      (js.foldl (fun s j => closeSessionOf j.work (jobReply j .aborted [] s)) (s.modConf fun k => { k with queue := k.queue.filter fun j => !mine j }))

/-- JOB_DISPATCH (R328): the named engine takes the first eligible job, or gives way to one (R330). -/
def execJobDispatch (e : Engine) (s : State) : Out :=
  match e with
  | .riffle i =>
    let r := s.riffle i
    if noEngine s false then .next (abortKind false s)
    else if !riffleUsable s i then .next s
    else
      (match r.job, r.suspended with
      | none, j :: js => .next (s.modRiffle i fun x => { x with job := some j, suspended := js })
      | none, [] =>
        (match nextJob s e with
        | none => .next s
        | some j => .next (startRiffle i j s))
      | some running, _ =>
        (match preempting s i running with
        | none => .next s
        | some j => .next (startRiffle i j (suspendJob i running s))))
  | .mandrel m =>
    let x := s.mandrel m
    if noEngine s true then .next (abortKind true s)
    else if !mandrelUsable s m ∨ x.job.isSome ∨ x.wiping then .next s
    else
      match nextJob s e with
      | none => .next s
      | some j => .next (dispatchMandrel m j s)

/-! ### The end of a Riffle job (R344, R345, R352, R354, R360 to R362) -/

/-- A session's context is replaced. -/
def setCtx (id : Word) (c : Ctx) (s : State) : State :=
  s.modConf fun k => { k with sessions := k.sessions.map fun x => if x.id == id then { x with ctx := c } else x }

/-- A job that continues a session (R352, R415): a length result closes it. -/
def endSessionJob (j : Job) (x : Session) (data : Bytes) (delivered : Nat) (final : Bool) (s : State) : State :=
  match lengthResult x.ctx data.length delivered final with
  | some r => jobReply j r [] (closeSession x.id s)
  | none =>
    let c := { x.ctx with absorbed := x.ctx.absorbed ++ data }
    if final then jobReply j .done (digestOut c) (closeSession x.id s) else jobReply j .done [] (setCtx x.id c s)

/-- DIGEST_SUSPEND ends: the context leaves sealed, and the session is closed; a context whose HMAC key is the key block's is
not sealed, and its session stays open (R351, R354). -/
def endSuspend (j : Job) (x : Session) (s : State) : State :=
  match s.keys.kSeal with
  | none => jobReply j .aborted [] (closeSession x.id s)
  | some k =>
    if x.ctx.keyBlock then jobReply j .deniedPolicy [] s else
    let o := sealContext x.port x.ctx k s
    jobReply j .done o.1 (closeSession x.id o.2)

/-- RIFFLE_JOB_END (R344, R346, R347): the source has delivered some bytes and its end mark, or one byte too many. inner names a
job of an internal submitter, which the descriptors of the model do not hold (assumption 36). -/
def execRiffleJobEnd (i : Fin 32) (delivered : Nat) (inner : Option InnerEnd) (s : State) : Out :=
  match (s.riffle i).job, inner with
  | none, none => .next s
  | none, some e => .next (endInner i delivered e s)
  | some j, _ =>
    let s1 := noteJob (.riffle i) (s.modRiffle i fun r => { r with job := none })
    let done := jobDone j.cls s1
    let inSession := fun (id : Word) (f : Session → State) =>
      match s.session id with
      | none => jobReply j .aborted [] s1
      | some x => f x
    match j.work with
    | .digest ctx data =>
      (match lengthResult ctx data.length delivered true with
      | some r => .next (jobReply j r [] done)
      | none => .next (jobReply j .done (digestOut { ctx with absorbed := ctx.absorbed ++ data }) done))
    | .update id data => .next (inSession id fun x => endSessionJob j x data delivered false done)
    | .finish id data => .next (inSession id fun x => endSessionJob j x data delivered true done)
    | .suspend id => .next (inSession id fun x => endSuspend j x done)
    | .kat k failed =>
      (match failed with
      | some t => .next (weirEvents [katEvent (.riffle k) t.val] s1)
      | none =>
        .next (done.modConf fun c => { c with lastKat := vmod c.lastKat (Fin.ofNat 24 (k.val - 8)) fun _ => s.tick }))
    | _ => .next s1

/-! ### Words of the Confluence store that are lost (R335) -/

/-- A job leaves Confluence. -/
def removeJob (id : Nat) (s : State) : State :=
  s.modConf fun c =>
    { c with
      queue := c.queue.filter fun j => j.id != id
      riffles := vmap c.riffles fun r =>
        { r with job := r.job.filter fun j => j.id != id, suspended := r.suspended.filter fun j => j.id != id }
      mandrels := vmap c.mandrels fun m => { m with job := m.job.filter fun j => j.id != id } }

/-- A descriptor (R335, R352): a Stolik request is answered ABORTED; an internal submitter submits its job again. -/
def descriptorLost (i : Nat) (s : State) : State :=
  match s.allJobs[i]? with
  | none => s
  | some j => if j.port = none then s else closeSessionOf j.work (jobReply j .aborted [] (removeJob j.id s))

/-- A context slot (R335): its session ends. -/
def contextLost (i : Nat) (s : State) : State :=
  match s.conf.sessions[i]? with
  | none => s
  | some x => closeSession x.id s

/-- DIGEST_SESSION_TIMEOUT (R353). -/
def execDigestSessionTimeout (session : Word) (s : State) : Out :=
  match s.session session with
  | none => .next s
  | some x => if x.lastUse + 60 * ticksPerSec ≤ s.tick then .next (closeSession session s) else .next s

/-- RIFFLE_PERIODIC_KAT (R361): a pooled Riffle's test is due and enters class 4; the test that fails, if any, is known at
its end. -/
def execRifflePeriodicKat (i : Fin 24) (failedTest : Option (Fin 6)) (s : State) : Out :=
  let k : Fin 32 := ⟨8 + i.val, by omega⟩
  let there := s.allJobs.any fun j => match j.work with
    | .kat x _ => x == k
    | _ => false
  if (s.riffle k).inService ∧ (s.riffle k).boundTo = none ∧ !there ∧ s.conf.lastKat[i] + 86400 * ticksPerSec ≤ s.tick then
    .next (s.modConf fun c =>
      let j : Job :=
        { id := c.nextJob, cls := 4, port := none, tag := 0, opcode := 0, work := .kat k failedTest, runs := 1,
          submitted := s.time, ahead := false }
      { c with queue := c.queue ++ [j], nextJob := c.nextJob + 1 })
  else .next s

/-! ### The end of a Mandrel job (R365 to R377) -/

/-- The result of a public-key operation, with EM (R366, R368). -/
def mandrelResult (w : JobWork) : Res × Bytes :=
  match w with
  | .ecdsa cv q r t h => (ecdsaVerify cv q r t h, [])
  | .rsa n sig =>
    (match rsaVerify n sig with
    | .ok em => (.done, em)
    | .error e => (e, []))
  | .mldsa set pk mu sig => (mldsaVerify (if set = 1 then 65 else 87) pk mu sig, [])
  | _ => (.aborted, [])

/-- A free Mandrel that the class rules admit for a second run (R374). -/
def otherMandrel (s : State) (m : Fin 8) (c : Fin 5) : Option (Fin 8) :=
  (fins 8).find? fun k =>
    k != m && mandrelUsable s k && (s.mandrel k).job.isNone && !(s.mandrel k).wiping && engineTakes s (.mandrel k) c

/-- The check of R373 is one of the operation's. -/
def checkApplies (w : JobWork) (k : Nat) : Bool :=
  match w with
  | .ecdsa .. => [1, 4, 10].contains k
  | .rsa .. => [1, 6, 10].contains k
  | .mldsa .. => [7, 8, 10].contains k
  | _ => false

/-- INVARIANT_FAIL of a check of R373: the whole operand memory is wiped and the failure reported (R374). -/
def invariantFail (m : Fin 8) (check : Nat) (s : State) : State :=
  weirReport (Fin.ofNat 64 (32 + m.val)) .ucc 0x32 0 check (s.modMandrel m fun x => { x with wiping := true })

/-- MANDREL_JOB_END (R363, R373, R374, R376): an operation ends; a check of R373 that is the operation's has failed, or none. -/
def execMandrelJobEnd (m : Fin 8) (invariantCheck : Option (Fin 11)) (s : State) : Out :=
  match (s.mandrel m).job with
  | none => .next s
  | some j =>
    if (s.mandrel m).wiping then .next s
    else
      let s1 := noteJob (.mandrel m) (s.modMandrel m fun x => { x with job := none })
      match invariantCheck.filter fun k => checkApplies j.work k.val with
      | some k =>
        if j.runs = 1 then
          let again := { j with runs := 2 }
          let s2 := match otherMandrel s1 m j.cls with
            | some o => loadMandrel o again s1
            | none => s1.modMandrel m fun x => { x with job := some again }
          .next (invariantFail m k.val s2)
        else .next (invariantFail m k.val (jobReply j .invariantFail (mandrelHead m j) (jobDone j.cls s1)))
      | none =>
        let r := mandrelResult j.work
        let out := if r.2 = [] then leBytes 2 (resCode r.1) else r.2
        .next (jobReply j r.1 (mandrelHead m j ++ r.2) (jobDone j.cls (s1.modMandrel m fun x => { x with mem := x.mem ++ [out] })))

/-- CHECKED_WIPE_END (R377): a read-back that fails withdraws the engine, and its domain is powered down.
The word that failed is a free value. -/
def execCheckedWipeEnd (m : Fin 8) (readBackOk : Bool) (s : State) : Out :=
  if !(s.mandrel m).wiping then .next s
  else if readBackOk then
    .next (s.modMandrel m fun x =>
      { x with wiping := false, secret := false, mem := (x.job.map fun j => jobOperands j.work).getD [] })
  else
    let a := drawNat (keepDomains (s.chuck.enginePd.filter fun d => d != 42 + m.val) s)
    .next (weirReport (Fin.ofNat 64 (32 + m.val)) .fatal 0x33 0 a.1 a.2)

/-- KEY_RESIDENCY_TIMEOUT (R377). -/
def execKeyResidencyTimeout (m : Fin 8) (s : State) : Out :=
  let x := s.mandrel m
  if x.secret ∧ x.job = none ∧ x.lastUse + 65536 ≤ s.tick then .next (s.modMandrel m fun y => { y with wiping := true })
  else .next s

end Sys2Proof.Machine
end

