-- ==== Sys2Proof/Machine/Platform.lean ====
section
/-! DEFINITION. The commands on the platform, its hosts, lanes and power states, on the life cycle, the anchors and the
counters, and the debug port (R105, R106, R169, R176, R242, R418 to R421, R498 to R502, R506, R509). -/
namespace Sys2Proof.Machine
open Sys2Proof

/-! ### PLATFORM_POWER (R418, R419) -/

/-- A platform policy that Chuck would run (R231). -/
def State.runnable (s : State) : Bool := (storedPlatform s).isSome

/-- START: the program from its first step. Without a policy Chuck runs none, and the command is refused. -/
def powerStart (c : Call) (s : State) : State :=
  if !s.platformOff ∨ !s.startable ∨ !s.runnable then c.reply 0x0801 .deniedPolicy [] s
  else
    let o := acceptOp c 0x0801 s
    beginProgram (o.2.modChuck fun k => { k with mainOp := some o.1 })

/-- DOWN: OWNER on every host, and the take-down of R236. -/
def powerDown (c : Call) (s : State) : State :=
  let o := acceptOp c 0x0801 s
  let s1 := (endOp? o.2.chuck.mainOp .aborted 0 o.2).modChuck fun k => { k with mainOp := some o.1 }
  platformDown false (s1.policyHosts.foldl (fun s h => holdHost (fun w => { w with owner := true }) h s) s1)

/-- PLATFORM reset (R243). Its operation ends with the trigger. -/
def powerReset (c : Call) (s : State) : State :=
  let o := acceptOp c 0x0801 s
  platformReset .platform true (endOp o.1 .done 0 o.2)

/-- PLATFORM_POWER. -/
def cmdPlatformPower (act : Call → State → State) : Cmd :=
  { op := 0x0801
    level := fun _ _ => .owner
    need := fun _ _ => 4
    badField := fun _ b => reservedAt b 1 3
    run := fun c s => if 3 ≤ u8 c.cmd 0 then c.reply 0x0801 .deniedPolicy [] s else act c s }

/-- The first byte of a request's command payload, which names the row. -/
def reqByte (r : Req) (o : Nat) : Nat := u8 (r.payload.drop (cmdOffset r)) o

/-- PLATFORM_POWER of ACTION 0, or of no ACTION that R418 lists. -/
def execPlatformPowerStart (r : Req) (s : State) : Out :=
  if reqByte r 0 = 1 ∨ reqByte r 0 = 2 then .next s else .next (serve (cmdPlatformPower powerStart) r s)

/-- PLATFORM_POWER of ACTION 1. -/
def execPlatformPowerDown (r : Req) (s : State) : Out :=
  if reqByte r 0 = 1 then .next (serve (cmdPlatformPower powerDown) r s) else .next s

/-- PLATFORM_POWER of ACTION 2. -/
def execPlatformPowerReset (r : Req) (s : State) : Out :=
  if reqByte r 0 = 2 then .next (serve (cmdPlatformPower powerReset) r s) else .next s

/-! ### HOST_HOLD and HOST_RELEASE (R242, R419) -/

/-- A host of the policy. -/
def State.namedHost (s : State) (b : Bytes) : Option (Fin 16) :=
  (fin? (u8 b 0)).filter fun h => s.policyHosts.contains h

/-- LANE_MASK of the host that a command names (R419). -/
def hostLanes (s : State) (b : Bytes) : Nat :=
  match s.namedHost b, s.chuck.policy with
  | some h, some p => ((p.hosts[h]).laneMask).toNat
  | _, _ => 0

/-- The hold word as a response (R418). -/
def wordAnswer (s : State) (h : Fin 16) : Bytes := leBytes 4 (holdWord (s.host h).hold)

/-- HOST_HOLD. -/
def cmdHostHold : Cmd :=
  { op := 0x0802
    level := fun _ _ => .owner
    need := fun _ _ => 4
    badField := fun _ b => reservedAt b 1 3
    lanes := hostLanes
    run := fun c s =>
      match s.namedHost c.cmd with
      | none => c.reply 0x0802 .deniedPolicy [] s
      | some h =>
        let s1 := holdHost (fun w => { w with owner := true }) h s
        c.reply 0x0802 .done (wordAnswer s1 h) s1 }

def execHostHold (r : Req) (s : State) : Out := .next (serve cmdHostHold r s)

/-- The named bits clear (R419); POWER ends the limit of R238. -/
def clearBits (h : Fin 16) (bits : Nat) (s : State) : State :=
  let s1 := s.modHold h fun w =>
    { w with
      mismatch := w.mismatch && !bit bits 0
      owner := w.owner && !bit bits 1
      power := w.power && !bit bits 2 }
  s1.modHost h fun x =>
    { x with causes := if bit bits 0 then [] else x.causes, actions := if bit bits 2 then [] else x.actions }

/-- A host that the release leaves without a hold bit is re-sequenced, unless a run of its own is under way or the program
has still to reach its RELEASE_HOST. A host that the limit of R238 had taken down is re-sequenced all the same. -/
def releaseHeld (h : Fin 16) (bits : Nat) (s : State) : State :=
  let before := (s.host h).hold
  let s1 := logHold h (clearBits h bits s)
  let now := (s1.host h).hold
  if before.any && !now.beyondProgram && (s1.host h).run == .none && (s1.host h).resetAsserted
      && (!now.program || (before.power && bit bits 2)) then resequence h s1
  else s1

/-- HOST_RELEASE. -/
def cmdHostRelease : Cmd :=
  { op := 0x0803
    level := fun _ _ => .owner
    need := fun _ _ => 4
    badField := fun _ b => if 8 ≤ u8 b 1 then some 1 else reservedAt b 2 2
    lanes := hostLanes
    run := fun c s =>
      match s.namedHost c.cmd with
      | none => c.reply 0x0803 .deniedPolicy [] s
      | some h =>
        let s1 := releaseHeld h (u8 c.cmd 1) s
        c.reply 0x0803 .done (wordAnswer s1 h) s1 }

def execHostRelease (r : Req) (s : State) : Out := .next (serve cmdHostRelease r s)

/-! ### LANE_DENY_ALL (R105, R106) and LANE_RESET (R506) -/

/-- LANE_DENY_ALL. -/
def cmdLaneDeny : Cmd :=
  { op := 0x0804
    level := fun _ _ => .owner
    need := fun _ _ => 4
    badField := fun _ b => reservedAt b 2 2
    lanes := fun _ b => laneBit b
    run := fun c s =>
      match (fin? (u8 c.cmd 0) : Option (Fin 8)) with
      | none => c.reply 0x0804 .deniedPolicy [] s
      | some n =>
        if 2 ≤ u8 c.cmd 1 then c.reply 0x0804 .deniedPolicy [] s
        else c.reply 0x0804 .done [] (s.modLane n fun l => { l with denyOwner := u8 c.cmd 1 == 1 }) }

/-- LANE_DENY_ALL of ON 1, or of no ON that R418 lists. -/
def execLaneDenyAllOn (r : Req) (s : State) : Out :=
  if reqByte r 1 = 0 then .next s else .next (serve cmdLaneDeny r s)

/-- LANE_DENY_ALL of ON 0. -/
def execLaneDenyAllOff (r : Req) (s : State) : Out :=
  if reqByte r 1 = 0 then .next (serve cmdLaneDeny r s) else .next s

/-- Operations that wait for the lane's tables end with them (R506 steps 1 and 2). -/
def endLaneOps (n : Fin 8) (s : State) : State :=
  let l := s.lane n
  let ops := (l.pending.toList.flatMap fun q => [q.opId, q.manifestOp]) ++ [l.nextManifest.map (·.2.2), l.provingOp, l.repairOp, l.resetOp]
  ops.foldl (fun s o => endOp? o .aborted 0 s) s

/-- A landing or prestage in progress on a window ends (R282, R506 step 2). -/
def stopWindow (n w : Fin 8) (s : State) : State :=
  let code := (windowCode n w).toNat
  match (s.win n w).phase with
  | .landing => if (s.target code).xfer = .none then cutWindow n w s else endTransfer code .aborted s
  | .prestaging =>
    let op := (s.stolik.activations.find? fun a => a.lane == n && a.window == w).map (·.op)
    endActivation n w op .aborted s |>.modWin n w fun x => { x with phase := .idle, inactive := .landed }
  | _ => s

/-- A Reservoir's refresh of the lane's entry stops with the prestage; the entry stays WRITING (R272, R282). -/
def stopRefresh (n : Fin 8) (x : Sel) (s : State) : State :=
  match (s.res x).refreshing, s.laneEntryAt x n with
  | some i, some j => if i = j then s.modRes x fun r => { r with refreshing := none, suspended := false } else s
  | _, _ => s

/-- Whether a prestage is under way on a lane. -/
def State.prestaging (s : State) (n : Fin 8) : Bool := (fins 8).any fun w => (s.win n w).phase == .prestaging

/-- A LANE reset (R506). Its port's mailbox is cleared and stays served. -/
def laneReset (n : Fin 8) (s : State) : State :=
  let s0 := if s.prestaging n then stopRefresh n .b (stopRefresh n .a s) else s
  let s1 := (fins 8).foldl (fun s w => stopWindow n w s) (endLaneOps n s0)
  let s2 := dropClaims n (freeMirrors n [] s1)
  let s3 := settleCache (s2.modLane n fun l => { wipeLane n l with mb := { Mailbox.reset with paused := l.mb.paused } })
  let s4 := s3.modStolik fun k => { k with waiting := drop? k.waiting fun w => w.port == .hp n }
  let s5 := (s4.laneHosts n).foldl (fun s h => (hostDown true h s).modHost h fun x => { x with waitLanes := true }) s4
  if (s5.lane n).cfg.enable then startVerification n s5 else s5

/-- LANE_RESET: its operation ends with the lane's outcome, or at once on a lane that is not verified. -/
def cmdLaneReset : Cmd :=
  { op := 0x0805
    level := fun _ _ => .owner
    need := fun _ _ => 4
    badField := fun _ b => reservedAt b 1 3
    lanes := fun _ b => laneBit b
    run := fun c s =>
      match (fin? (u8 c.cmd 0) : Option (Fin 8)) with
      | none => c.reply 0x0805 .deniedPolicy [] s
      | some n =>
        let o := acceptOp c 0x0805 (laneReset n s)
        if (o.2.lane n).pv.active then o.2.modLane n fun l => { l with resetOp := some o.1 } else endOp o.1 .done 0 o.2 }

def execLaneReset (r : Req) (s : State) : Out := .next (serve cmdLaneReset r s)

/-! ### POWER_STATE (R216, R218, R418, R509) -/

/-- POWER_STATE: the response is sent before the entry. Work that R509 waits for refuses the command. -/
def cmdPowerState : Cmd :=
  { op := 0x0806
    level := fun _ _ => .owner
    need := fun _ _ => 8
    badField := fun _ b => reservedAt b 1 3
    run := fun c s =>
      let state := u8 c.cmd 0
      let wake := if u32 c.cmd 4 = 0 then none else some (s.time + u32 c.cmd 4 * nsPerSec)
      if (state ≠ 2 ∧ state ≠ 3) ∨ !s.maySleep then c.reply 0x0806 .deniedPolicy [] s
      else
        let s1 := c.reply 0x0806 .done [] s
        if state = 2 then enterRetain wake s1 else enterDeep wake s1 }

/-- POWER_STATE of STATE 2, or of no STATE that R418 lists. -/
def execPowerStateRetain (r : Req) (s : State) : Out :=
  if reqByte r 0 = 3 then .next s else .next (serve cmdPowerState r s)

/-- POWER_STATE of STATE 3. -/
def execPowerStateDeep (r : Req) (s : State) : Out :=
  if reqByte r 0 = 3 then .next (serve cmdPowerState r s) else .next s

/-! ### Life cycle (R420, R421, R493, R498, R499) -/

/-- Every job's requester is answered ABORTED (R380). -/
def abortJobs (s : State) : State :=
  s.allJobs.foldl (fun s j => jobReply j .aborted [] s) { s with conf := { s.conf with
    queue := []
    riffles := vmap s.conf.riffles fun r => { r with job := none, suspended := [] }
    mandrels := vmap s.conf.mandrels fun m => { m.cleared with job := none }
    sessions := []
    sealed := [] } }

/-- The order of R499 after the response: PENDING_TARGET, DENY_ALL, the wipes and clears, the fuses, the new word, the CHIP
reset. -/
def runTransition (t : LifeCycle) (s : State) : State :=
  let s1 := (s.modNvm fun v => { v with pendingTarget := some t }).modLanes fun _ l => { l with denyNoPolicy := true }
  chipReset .other (finishTransition t (abortJobs s1))

/-- The level of a transition (R421); none where R421 admits none. -/
def transitionLevel (lc target : LifeCycle) : Option Level :=
  match lc, target with
  | .manufacture, .unowned => some .vendor
  | .owned, .unowned => some .owner
  | .owned, .returned => some .ownerVendor
  | .owned, .scrapped => some .owner
  | .unowned, .scrapped => some .vendor
  | .returned, .scrapped => some .vendor
  | _, _ => none

/-- TARGET_STATE (R420). -/
def targetState (b : Bytes) : Option LifeCycle :=
  match u8 b 0 with
  | 1 => some .manufacture
  | 2 => some .unowned
  | 3 => some .owned
  | 4 => some .returned
  | 5 => some .scrapped
  | _ => none

/-- The transition that a payload names from the present state. -/
def State.transition (s : State) (b : Bytes) : Option (LifeCycle × Level) :=
  (targetState b).bind fun t => (transitionLevel s.lc t).map fun l => (t, l)

/-- LIFECYCLE_TRANSITION. -/
def cmdLifecycle : Cmd :=
  { op := 0x0904
    level := fun s b => ((s.transition b).map (·.2)).getD .owner
    need := fun _ _ => 4
    badField := fun _ b => reservedAt b 1 3
    life := fun s b => (s.transition b).isSome
    run := fun c s =>
      match s.transition c.cmd with
      | none => c.reply 0x0904 .deniedLifecycle [] s
      | some t => if !s.platformOff then c.reply 0x0904 .deniedPolicy [] s else runTransition t.1 (c.reply 0x0904 .done [] s) }

def execLifecycleTransition (r : Req) (s : State) : Out := .next (serve cmdLifecycle r s)

/-- An ANCHOR entry (R477). -/
def logAnchor (i : Nat) (a : Anchor) (s : State) : State :=
  logNow 0x0081 0x01 ([BitVec.ofNat 8 i, match a.state with
    | .empty => 0
    | .active => 1
    | .revoked => 2, 0, 0] ++ a.digest.take 8) s

def setAnchor (i : Fin 4) (a : Anchor) (s : State) : State :=
  logAnchor i.val a (s.modNvm fun v => { v with anchors := vmod v.anchors i fun _ => a })

/-- The anchors of the payload become ACTIVE (R498). -/
def takeAnchors (as : List Anchor) (s : State) : State :=
  as.zipIdx.foldl (fun s x => match (fin? x.2 : Option (Fin 4)) with
    | none => s
    | some i => setAnchor i x.1 s) s

/-- A PURPOSE word at an offset has a bit set that R170 reserves. -/
def purposeReserved (b : Bytes) (o : Nat) : Option Nat := if u32 b o < 2 ^ 7 then none else some o

/-- Reserved fields of TAKE_OWNERSHIP (R170, R420). -/
def ownershipReserved (b : Bytes) : Option Nat :=
  (reservedAt b 1 3).or (((List.range (u8 b 0)).filterMap fun k =>
    (purposeReserved b (4 + 40 * k + 32)).or (reservedAt b (4 + 40 * k + 36) 4)).head?)

/-- TAKE_OWNERSHIP (R421). A count outside 1 to 4 is refused. -/
def cmdTakeOwnership : Cmd :=
  { op := 0x0901
    level := fun _ _ => .ownership
    need := fun _ c => 4 + 40 * u8 c.cmd 0
    badField := fun _ b => ownershipReserved b
    life := fun s _ => s.lc == .unowned
    run := fun c s =>
      let as := payloadAnchors c.cmd
      if as = [] ∨ 4 < as.length ∨ !s.platformOff then c.reply 0x0901 .deniedPolicy [] s
      else runTransition .owned (takeAnchors as (c.reply 0x0901 .done [] s)) }

def execTakeOwnership (r : Req) (s : State) : Out := .next (serve cmdTakeOwnership r s)

/-! ### Anchors and counters (R169, R176, R420, R421) -/

/-- The anchor that SET_ANCHOR leaves, where R421 and R169 admit the change. -/
def newAnchor (s : State) (b : Bytes) : Option (Fin 4 × Anchor) :=
  match (fin? (u8 b 0) : Option (Fin 4)) with
  | none => none
  | some i =>
    let a := s.nvm.anchors[i]
    let active := (s.nvm.anchors.toList.filter fun x => x.state == .active).length
    match u8 b 1, a.state with
    | 1, .empty => some (i, { digest := slice b 8 32, purpose := BitVec.ofNat 32 (u32 b 4), state := .active })
    | 2, .active => if s.lc = .owned ∧ active ≤ 1 then none else some (i, { a with state := .revoked })
    | _, _ => none

/-- SET_ANCHOR. -/
def cmdSetAnchor : Cmd :=
  { op := 0x0902
    level := fun _ _ => .owner
    need := fun _ _ => 40
    badField := fun _ b => (reservedAt b 2 2).or (purposeReserved b 4)
    run := fun c s =>
      match newAnchor s c.cmd with
      | none => c.reply 0x0902 .deniedPolicy [] s
      | some x => lapseLanes (c.reply 0x0902 .done [] (setAnchor x.1 x.2 s)) }

/-- SET_ANCHOR of STATE 1, or of no STATE that R420 lists. -/
def execSetAnchorActive (r : Req) (s : State) : Out :=
  if reqByte r 1 = 2 then .next s else .next (serve cmdSetAnchor r s)

/-- SET_ANCHOR of STATE 2. -/
def execSetAnchorRevoke (r : Req) (s : State) : Out :=
  if reqByte r 1 = 2 then .next (serve cmdSetAnchor r s) else .next s

/-- RAISE_COUNTER (R176). -/
def cmdRaiseCounter : Cmd :=
  { op := 0x0903
    level := fun _ _ => .owner
    need := fun _ _ => 8
    badField := fun _ b => reservedAt b 1 3
    run := fun c s =>
      match (fin? (u8 c.cmd 0) : Option (Fin 256)) with
      | none => c.reply 0x0903 .deniedPolicy [] s
      | some i =>
        if i.val < 16 then c.reply 0x0903 .deniedPolicy [] s
        else
          let s1 := setCounter i (u32 c.cmd 4) s
          lapseLanes (c.reply 0x0903 .done (leBytes 4 (s1.counter i.val)) s1) }

def execRaiseCounter (r : Req) (s : State) : Out := .next (serve cmdRaiseCounter r s)

/-! ### The debug port (R292, R297, R501, R502) -/

/-- DEBUG_UNLOCK (R502): the port is unlocked, and the DeviceID batch may sign the Alias certificates again. -/
def cmdDebugUnlock : Cmd :=
  { op := 0x0905
    level := fun _ _ => .ownerVendor
    need := fun _ _ => 4
    badField := fun _ b => reservedAt b 0 4
    life := fun s _ => s.lc == .returned
    run := fun c s =>
      c.reply 0x0905 .done [] (publishSnap (s.modKeys fun k => { k with debugUnlocked := true, batchOpen := true })) }

def execDebugUnlock (r : Req) (s : State) : Out := .next (serve cmdDebugUnlock r s)

/-- A state admits an instruction of the debug port (R501). -/
def tapAdmits (s : State) (i : TapInstr) : Bool :=
  match s.lc, i with
  | .manufacture, .bypass => true
  | .manufacture, .idcode => true
  | .manufacture, .samplePreload => true
  | .manufacture, .extest => true
  | .manufacture, .manufacturingTest => true
  | .manufacture, _ => false
  | .unowned, .bypass => true
  | .unowned, .idcode => true
  | .unowned, _ => false
  | .owned, .bypass => true
  | .owned, .idcode => true
  | .owned, _ => false
  | .returned, .bypass => true
  | .returned, .idcode => true
  | .returned, .samplePreload => true
  | .returned, .unassigned => false
  | .returned, _ => s.keys.debugUnlocked
  | .scrapped, .bypass => true
  | .scrapped, _ => false

/-- TAP_INSTRUCTION (R442, R501): an instruction that is not admitted runs as BYPASS and is reported, with a TAP state that
the manual does not give. BYPASS, IDCODE, SAMPLE/PRELOAD, EXTEST and live fault injection, whose registers stand in Weir,
select their register. The manual gives no effect to the manufacturing test instructions, to core halt and step or to
memory access. The port is unpowered with its domain. -/
def execTapInstruction (i : TapInstr) (s : State) : Out :=
  match s.chuck.power with
  | .backup => .next s
  | .unpowered => .next s
  | .deep => .next s
  | _ =>
    if !tapAdmits s i then
      let a := drawNat (s.modKeys fun k => { k with tapIr := .bypass })
      .next (weirReport 60 .ucc 0x71 0 a.1 a.2)
    else
      match i with
      | .manufacturingTest => .fault .manufacturingTest
      | .coreHaltStep => .refused .debugAccess
      | .memoryAccess => .refused .debugAccess
      | _ => .next (s.modKeys fun k => { k with tapIr := i })

end Sys2Proof.Machine
end

