-- ==== Sys2Proof/Machine/WeirRegs.lean ====
section
/-! DEFINITION. Weir's commands: reports on its error lines, injection, its registers and ERR_OUT_N, firmware's service of
its interrupts, and the CHIP, WARM and RST_IN_N resets (R6, R423 to R445, R454, R471, R503, R505). -/
namespace Sys2Proof.Machine
open Sys2Proof

/-! ### Injection (R423 to R444) -/

/-- An event that Weir reacts to wakes Virund from IDLE and RETAIN (R216, R432). -/
def wakeForWeir (evs : List WeirEv) (s : State) : State :=
  match evs, s.chuck.power with
  | [], _ => s
  | _, .idle => wakeIdle s
  | _, .retain => wakeRetain s
  | _, _ => s

/-- A processor that writes Weir's registers runs: the ROM or firmware. In RETAIN Headstock's cores are in retention (R216). -/
def State.headstockRuns (s : State) : Bool :=
  s.lanesPowered && (match s.mode with
  | .held => false
  | .fault => false
  | _ => true)

/-- The injection register has a writer (R442): Headstock, or the unlocked debug port, whose domain is off in RETAIN and DEEP
(R216). -/
def State.injector (s : State) : Bool := s.headstockRuns || (s.lanesPowered && s.keys.debugUnlocked)

/-- CLEAR_TEST (R442). -/
def clearTests (s : State) : State :=
  s.modWeir fun w => { w with st := vmap w.st fun x => { x with testCount := 0, testLasting := false } }

/-- CLASS of an injection (R424, R442). -/
def injectClass (w : Nat) : Option EvClass :=
  match bits w 7 6 with
  | 1 => some .ce
  | 2 => some .ucc
  | 3 => some .fatal
  | _ => none

/-- The injected event of a word (R442). SOURCE 63 and CLASS 0b00 inject nothing. -/
def injectEvent (w : Nat) : Option WeirEv :=
  match injectClass w with
  | none => none
  | some c =>
    if bits w 5 0 = 63 then none
    else some { source := Fin.ofNat 64 (bits w 5 0), cls := c, code := BitVec.ofNat 16 (bits w 31 16), unit := 0xFFFF, detail := 0 }

/-- The injected status bit of a source (R427). -/
def markInjected (e : WeirEv) (s : State) : State :=
  s.modWeir fun w => { w with injected := w.injected ||| (1#64 <<< e.source.val) }

/-- A masked injection (R443, R444): alone says that no real event comes with it, so that it may write a free record. -/
def injectMasked (e : WeirEv) (alone : Bool) (s : State) : State :=
  (markInjected e s).modWeir fun w =>
    let cfg := w.cfg[e.source]
    let st := weirTestCount s.tick32 cfg w.st[e.source]
    { w with
      st := vmod w.st e.source fun _ => st
      record := if alone then weirRecord e true true st.lasting 0 0 false s.time w.record else w.record }

/-- The events of a cycle in which an injection is accepted, and the cycles that further events of their sources wait
for. -/
def acceptInjected (real live : List WeirEv) (s : State) : State :=
  let c := splitCycle (sortEvs real) [] []
  match s.mode with
  | .fault => acceptEvents c.2.length c.2 (acceptFault (c.1 ++ live) s)
  | _ => acceptEvents c.2.length c.2 (acceptCycle c.1 live true s)

/-- WEIR_INJECT (R442 to R444): a write of the injection register, and the real events that arrive with it. LIVE counts
only while the debug port is unlocked. -/
def execWeirInject (word : Dword) (together : List WeirEv) (s : State) : Out :=
  let w := word.toNat
  let s := wakeForWeir together s
  if !s.injector then .next (weirEvents together s)
  else if bit w 9 then .next (weirEvents together (clearTests s))
  else
    match injectEvent w with
    | none => .next (weirEvents together s)
    | some e =>
      if bit w 8 && s.keys.debugUnlocked then .next (acceptInjected together [e] (markInjected e s))
      else .next (if together.isEmpty then injectMasked e true s else acceptInjected together [] (injectMasked e false s))

/-- CLEAR_TEST (R442). -/
def execClearTest (word : Dword) (s : State) : Out :=
  if s.injector && bit word.toNat 9 then .next (clearTests s) else .next s

/-! ### Registers (R6, R426 to R428, R434, R440, R441, R454, R471) -/

/-- PENDING_CLEAR: a write of ones to the status word and the injected status word (R426, R427). -/
def execPendingClear (pending injected : Dword) (s : State) : Out :=
  if s.headstockRuns then
    .next (s.modWeir fun w => { w with pending := w.pending &&& ~~~pending, injected := w.injected &&& ~~~injected })
  else .next s

/-- FIRST_ERROR_CLEAR: a one written to VALID clears the record (R428). -/
def execFirstErrorClear (word : Dword) (s : State) : Out :=
  if s.headstockRuns && bit word.toNat 8 then .next (s.modWeir fun w => { w with record := .empty }) else .next s

/-- Firmware's entries for the record and the status bits have still to reach the ring log (R429, R441). -/
def State.weirEntriesWait (s : State) : Bool :=
  s.nvm.log.waiting.any fun q => q.origin == 0x01 && (q.type == 0x0001 || q.type == 0x0002)

/-- ERR_HOLD cleared (R440). -/
def clearErrHold (w : Weir) : Weir := { w with errHold := false, pin := if w.pin = .software then .released else w.pin }

/-- ERR_HOLD_WRITE (R440, R441): firmware clears ERR_HOLD only after its entries have been written, so that before then
there is no such write. -/
def execErrHoldWrite (value : Bool) (s : State) : Out :=
  if !s.headstockRuns then .next s
  else if value then .next (s.modWeir setErrHold)
  else if s.mode = .firmware ∧ !s.weirEntriesWait then .next (s.modWeir clearErrHold)
  else .next s

/-- ERR_PULSE_END: the fifth slow-tick edge (R440). -/
def execErrPulseEnd (s : State) : Out :=
  .next (s.modWeir fun w => { w with pin := if w.pin = .pulse then (if w.errHold then .software else .released) else w.pin })

/-- A WEIR_STATUS entry (R429, R477). -/
def logStatusBit (overflow : Byte) (s : State) (k : Fin 64) : State :=
  logNow 0x0002 0x01 (leBytes 8 (2 ^ k.val) ++ [overflow]) s

/-- WEIR_IRQ_SERVICE (R429): firmware takes the interrupt, queues an entry for the record and one for each status bit, and
clears what it logged. -/
def execWeirIrqService (s : State) : Out :=
  if s.mode = .firmware ∧ s.powered ∧ (s.weir.irq ∨ s.weir.nmi) then
    let r := s.weir.record
    let s1 := if r.valid then logErrRecord r s else s
    let s2 := ((fins 64).filter fun k => s.weir.pending.getLsbD k.val).foldl (logStatusBit r.overflowCount) s1
    .next (s2.modWeir fun w => { w with record := .empty, pending := 0, irq := false, nmi := false })
  else .next s

/-- REGISTER_WRITE (R6, R434, R454, R471): a word that locks keeps what it holds once it is locked. A SCOPE that R460 does
not encode is not stored. -/
def execRegisterWrite (reg : RegName) (value : Dword) (s : State) : Out :=
  if !s.headstockRuns then .next s
  else
    let v := value.toNat
    match reg with
    | .weirCfg k =>
      .next (s.modWeir fun w =>
        { w with cfg := vmod w.cfg k fun c =>
            if c.locked then c else if k = 63 then { c with locked := true } else weirCfgOf k.val v })
    | .leveeScope k =>
      .next (s.modLevee fun l =>
        { l with kinds := vmod l.kinds k fun x =>
            if x.scopeLocked || !scopeConfigurable k then x
            else if bits v 5 4 = 1 ∨ bits v 5 4 = 2 then { x with scope := BitVec.ofNat 2 (bits v 5 4), scopeLocked := true }
            else { x with scopeLocked := true } })
    | .enclosureWord =>
      .next (s.modBackup fun b => { b with encEnable := BitVec.ofNat 8 (bits v 7 0), encDebounce := BitVec.ofNat 4 (bits v 11 8) })

/-! ### Resets (R457, R503, R505) -/

/-- Something holds Virund in reset: an alarm, or RST_IN_N low. -/
def State.resetHeld (s : State) : Bool := s.levee.holding || (s.mode == .held && s.chuck.rstLow)

/-- CHIP_RESET (R503): asserted, and released at once unless a Levee alarm or RST_IN_N holds it. -/
def execChipReset (cause : ResetCause) (s : State) : Out :=
  if !s.powered then .next s
  else if s.resetHeld then .next (chipAssert cause s)
  else .next (chipReset cause s)

/-- WARM_RESET (R503). -/
def execWarmReset (s : State) : Out := if s.powered then .next (warmReset s) else .next s

/-- Virund is held in a CHIP reset that only RST_IN_N prolongs. -/
def State.heldByPin (s : State) : Bool := s.mode == .held && s.chuck.power == .run && !s.levee.holding

/-- RST_IN_N (R505): the sample of a slow tick. A second low sample in a row asserts a CHIP reset, in which Virund stays
while the pin is low. -/
def execRstInN (low : Bool) (s : State) : Out :=
  let s1 := s.modChuck fun c => { c with rstLow := low }
  if !s.powered then .next s1
  else if low then
    if s.chuck.rstLow && (s.mode != .held || s.chuck.power != .run) then .next (chipAssert .rstIn s1) else .next s1
  else if s.chuck.rstLow && s.heldByPin then .next (romRun s1)
  else .next s1

end Sys2Proof.Machine
end

