-- ==== Sys2Proof/Machine/LeveeLog.lean ====
section
/-! DEFINITION. Levee's alarms, disagreements and tests, the NVM controller's writing of the ring log, and the time
checkpoint (R452 to R473, R505, R517). -/
namespace Sys2Proof.Machine
open Sys2Proof

/-! ### Alarms on main power (R452 to R460) -/

/-- Kinds whose alarm also clears the backup key (R459). -/
def intrusionKind (k : Fin 12) : Bool := decide (8 ≤ k.val)

/-- The pairs of an alarm that are enabled (R456). -/
def alarmPairs (s : State) (c : LeveeCond) : Byte := if c.kind = 10 then c.pairs &&& s.backup.encEnable else 0

/-- The condition is an alarm of a kind that watches: a detector has fired (R452, R453), and an enabled pair failed for kind
10 (R456). -/
def State.alarms (s : State) (c : LeveeCond) : Bool :=
  s.leveeArmed c.kind && (c.d1 || c.d2) && (c.kind != 10 || alarmPairs s c != 0)

/-- The wider of two scopes (R458). -/
def widest (a b : BitVec 2) : BitVec 2 := if a.toNat < b.toNat then b else a

/-- The alarm record with an alarm joined in (R457, R458, R460). -/
def joinAlarm (now : Nat) (scope : BitVec 2) (pairs : Byte) (c : LeveeCond) (a : AlarmRec) : AlarmRec :=
  let bit := fun (b : Bool) => if b then (1#12 <<< c.kind.val) else 0
  { kinds := a.kinds ||| bit true
    d1Fired := a.d1Fired ||| bit c.d1
    d2Fired := a.d2Fired ||| bit c.d2
    scope := widest a.scope scope
    valid := true
    time := if a.valid then a.time else BitVec.ofNat 64 now
    encPairs := a.encPairs ||| pairs
    meshTraces := if c.kind = 9 then a.meshTraces ||| c.traces else a.meshTraces }

/-- The alarm is latched and counted (R457, R460, R470). -/
def latchAlarm (c : LeveeCond) (s : State) : State :=
  let scope := (s.levee.kinds[c.kind]).scope
  let pairs := alarmPairs s c
  (s.modLevee fun l =>
    { l with
      alarm := joinAlarm s.time scope pairs c l.alarm
      kinds := vmod l.kinds c.kind fun k => { k with alarms := satAdd 8 k.alarms 1 } }).modBackup fun b =>
    { b with
      key := if intrusionKind c.kind then zeros 32 else b.key
      pending := b.pending || intrusionKind c.kind
      encOpen := b.encOpen ||| pairs }

/-- The hard path of an alarm of scope CHIP plus PLATFORM, once while its cause holds (R243, R457, R458). -/
def alarmHardPath (scope : BitVec 2) (s : State) : State :=
  if scope = 2 ∧ !s.chuck.hardBy.contains (.startUp false) then platformReset (.startUp false) false s else s

/-- LEVEE_ALARM (R457 to R459): latched, a CHIP reset with the hard path where the scope has it, and Virund is held. An alarm
during the hold is latched, and its wider scope acts at once. -/
def execLeveeAlarm (c : LeveeCond) (s : State) : Out :=
  if !s.powered ∨ !s.alarms c then .next s
  else
    let scope := (s.levee.kinds[c.kind]).scope
    let s1 := alarmHardPath scope (latchAlarm c s)
    let s2 := if s.levee.holding then s1 else chipAssert .levee s1
    .next (s2.modLevee fun l =>
      { l with
        holding := true
        kinds := vmod l.kinds c.kind fun k => { k with d1Active := k.d1Active || c.d1, d2Active := k.d2Active || c.d2 } })

/-- LEVEE_RELEASE (R457): 32 slow ticks after the last condition cleared, start-up begins unless RST_IN_N is low. -/
def execLeveeRelease (s : State) : Out :=
  if !s.powered ∨ !s.levee.holding then .next s
  else
    let s1 := (s.modLevee fun l =>
      { l with holding := false, kinds := vmap l.kinds fun k => { k with d1Active := false, d2Active := false } }).modBackup fun b =>
        { b with encOpen := 0 }
    if s1.chuck.rstLow then .next s1 else .next (romRun s1)

/-! ### Disagreement and tests (R461, R463) -/

/-- LEVEE_DISAGREE (R461): counted; presented at once where Weir is armed, else latched for the next start. -/
def execLeveeDisagree (kind : Fin 12) (d1Fired : Bool) (s : State) : Out :=
  match s.chuck.power with
  | .unpowered => .next s
  | _ =>
    let s1 := s.modLevee fun l =>
      { l with kinds := vmod l.kinds kind fun k => { k with disagrees := satAdd 8 k.disagrees 1 } }
    if s.mode = .held ∧ s.chuck.power ≠ .deep then
      .next (s1.modLevee fun l => { l with latched := l.latched ++ [(kind, d1Fired)] })
    else .next (weirEvents [disagreeEvent kind d1Fired] (wakeForWeir [disagreeEvent kind d1Fired] s1))

/-- Slow ticks between two rounds of tests (R463). -/
def testPeriod : Nat := 86400 * ticksPerSec

/-- LEVEE_PERIODIC_TEST (R463): firmware tests the detectors of a kind in a round that is due; the round ends with kind
11. -/
def execLeveePeriodicTest (kind : Fin 12) (d1Fails d2Fails : Bool) (s : State) : Out :=
  if s.mode ≠ .firmware ∨ !s.powered ∨ s.tick < s.levee.lastRound + testPeriod then .next s
  else
    let s1 := s.modLevee fun l => { l with lastRound := if kind = 11 then s.tick else l.lastRound }
    if !s.leveeArmed kind then .next s1
    else
      let s2 := s1.modLevee fun l =>
        { l with kinds := vmod l.kinds kind fun k =>
            { k with testD1Fail := d1Fails, testD2Fail := d2Fails, lastTest := BitVec.ofNat 32 s.tick } }
      if d1Fails || d2Fails then
        .next (weirReport 59 .ucc 0x70 kind.val (2 ^ 17 + b2n d1Fails + 2 * b2n d2Fails) s2)
      else .next s2

/-! ### BACKUP (R464 to R466) -/

/-- DETAIL of a backup entry (R465). -/
def backupDetail (s : State) (c : LeveeCond) : Word :=
  match c.kind.val with
  | 7 => c.detail
  | 9 => c.traces.setWidth 32
  | 10 => (alarmPairs s c).setWidth 32
  | _ => 0

/-- Kinds that watch in BACKUP (R452). -/
def backupKind (k : Fin 12) : Bool := k.val == 2 || (decide (7 ≤ k.val) && decide (k.val ≤ 10))

/-- Entries of the backup log buffer (R465). -/
def backupEntries : Nat := 63

/-- The buffer with an alarm (R466): merged, added, or counted as lost. -/
def backupRecord (now : Nat) (det : Word) (c : LeveeCond) (b : Backup) : Backup :=
  let same := fun (e : BackupEntry) => e.kind == c.kind && e.detail == det
  let fired : BitVec 2 := BitVec.ofNat 2 (b2n c.d1 + 2 * b2n c.d2)
  if b.buffer.any same then
    { b with buffer := b.buffer.map fun e =>
        if same e then { e with repeats := satAdd 16 e.repeats 1, detectors := e.detectors ||| fired } else e }
  else if b.buffer.length < backupEntries then
    { b with buffer := b.buffer ++ [{ time := BitVec.ofNat 64 now, kind := c.kind, detectors := fired, repeats := 0,
                                      detail := det, vbakMv := c.vbakMv, checkOk := true }] }
  else { b with lost := satAdd 32 b.lost 1 }

/-- LEVEE_BACKUP_ALARM (R464): exactly four effects. -/
def execLeveeBackupAlarm (c : LeveeCond) (s : State) : Out :=
  if s.chuck.power ≠ .backup ∨ !backupKind c.kind ∨ !s.alarms c then .next s
  else
    let det := backupDetail s c
    .next ((s.modBackup fun b => { backupRecord s.time det c b with key := zeros 32, pending := true }).modLevee fun l =>
      { l with kinds := vmod l.kinds c.kind fun k => { k with alarms := satAdd 8 k.alarms 1 } })

/-- VBAK_LOW (R452): on main power, one entry each time VBAK falls. -/
def execVbakLow (mv : Half) (s : State) : Out :=
  if s.powered then .next (logNow 0x0013 0x22 (leBytes 2 mv.toNat) (s.modBackup fun b => { b with vbakLow := true })) else .next s

/-- LEVEE_ALARM_CLEAR: a one written to VALID clears the record (R460). -/
def execLeveeAlarmClear (word : Dword) (s : State) : Out :=
  if s.headstockRuns && bit word.toNat 38 then .next (s.modLevee fun l => { l with alarm := .empty }) else .next s

/-! ### The NVM controller's work (R473, R517) -/

/-- The NVM controller runs: outside DEEP and while it is not in reset. -/
def State.nvmRuns (s : State) : Bool := s.powered && s.mode != .held

/-- The entry of a mismatch whose confirmation reads are still to give its cause (R130; assumption 43). -/
def State.entryOpen (s : State) (q : LogReq) : Bool :=
  (fins 8).any fun n => (s.lane n).confirms.any fun c => c.logged && openMismatch n c.leaf q

/-- The oldest entry that can be written, and the queue without it: no entry overtakes an open one of its own producer. -/
def takeReady (isOpen : LogReq → Bool) : List Byte → List LogReq → Option (LogReq × List LogReq)
  | _, [] => none
  | held, q :: qs =>
    if held.contains q.origin || isOpen q then (takeReady isOpen (q.origin :: held) qs).map fun x => (x.1, q :: x.2)
    else some (q, qs)

/-- The entry that the controller writes next, and the queue without it: one that read back wrong, else the oldest that can be
written. -/
def nextEntry (s : State) : Option (LogReq × List LogReq) :=
  match s.nvm.log.writing with
  | some q => some (q, s.nvm.log.queue)
  | none => takeReady s.entryOpen [] s.nvm.log.queue

/-- LOG_ENTRY_WRITE (R473, R474, R476): the oldest queued entry takes its slot; one that reads back wrong is reported, and
written again into the slot that the entry before it has given up. -/
def execLogEntryWrite (readBackOk : Bool) (s : State) : Out :=
  if !s.nvmRuns then .next s
  else
    match nextEntry s with
    | none => .next s
    | some (q, rest) =>
      if readBackOk then
        let s1 := clearPending (logWrite q (s.modLog fun l => { l with queue := rest, writing := none }))
        .next (if rest.any fun x => x.type == 0x0090 then s1 else s1.modFabric fun f => { f with alertIrq := false })
      else .next (weirReport 61 .ucc 0x72 0 (s.nvm.log.count % 2 ^ 32)
        (s.modLog fun l => { giveSlot l with queue := rest, writing := some q }))

/-- TIME_CHECKPOINT (R517): firmware writes device time at every 65,536th slow tick. -/
def execTimeCheckpoint (s : State) : Out :=
  if s.mode = .firmware ∧ s.powered ∧ s.tick % 65536 = 0 then
    .next (s.modNvm fun v => { v with timeCheckpoint := BitVec.ofNat 64 s.time })
  else .next s

end Sys2Proof.Machine
end

