-- ==== Sys2Proof/Machine/Patrol.lean ====
section
/-! DEFINITION. The (72,64) code and the patrol of the memories, with what an uncorrectable word does to each of them (R118,
R137, R335, R481, R487 to R491). -/
namespace Sys2Proof.Machine
open Sys2Proof

/-! ### The code (R487, R488) -/

/-- The number of ones of a byte. -/
def weight (b : Byte) : Nat := ((List.range 8).filter fun k => b.getLsbD k).length

/-- The bytes of a weight, in ascending numerical order. -/
def bytesOf (w : Nat) : List Byte := ((List.range 256).map (BitVec.ofNat 8)).filter fun b => weight b == w

/-- The data columns of H (R487). -/
def dataColumns : List Byte := bytesOf 3 ++ (bytesOf 5).take 8

/-- A_0, A_1 and onwards (R487). -/
def foldColumns : List Byte := bytesOf 2

/-- The XOR of the columns at which a word has a one. -/
def xorColumns (cols : List Byte) (v : Nat) : Byte :=
  cols.zipIdx.foldl (fun a x => if v.testBit x.2 then a ^^^ x.1 else a) 0

/-- The check bits of a data word at an address (R487). -/
def checkBits (addr : Nat) (d : Dword) : Byte := xorColumns dataColumns d.toNat ^^^ xorColumns foldColumns addr

/-- What a syndrome means (R488). -/
inductive Decoded where
  | correct | corrected | uncorrectable | address
deriving DecidableEq, Repr

/-- R488 on a syndrome. -/
def decodeSyndrome (s : Byte) : Decoded :=
  if s = 0 then .correct
  else if weight s % 2 = 1 then
    (if dataColumns.contains s || weight s == 1 then .corrected else .uncorrectable)
  else if foldColumns.contains s then .address
  else .uncorrectable

/-- A word as it is read at an address (R488). -/
def readWord (addr : Nat) (d : Dword) (check : Byte) : Decoded := decodeSyndrome (checkBits addr d ^^^ check)

/-! ### The instances (R425, R481) -/

/-- The Weir source of a memory and its UNIT (R425, R481). -/
def patrolSource : PatrolMem → Fin 64 × Nat
  | .mirror b => (41, b.val)
  | .manifestCache b => (42, b.val)
  | .staging b => (43, b.val)
  | .headstock => (23, 0)
  | .spindle n => (Fin.ofNat 64 (10 + n.val), 0)
  | .tenon k => (Fin.ofNat 64 (18 + k.val), 0)
  | .confluence slot => (40, b2n slot)
  | _ => (44, 0)

/-- Spindle and Tenon local memory, which have codes of their own (R425). -/
def localMemory : PatrolMem → Bool
  | .spindle _ => true
  | .tenon _ => true
  | _ => false

/-- The event of a word (R425, R488). -/
def patrolEvent (m : PatrolMem) (word : Word) (d : Decoded) : Option WeirEv :=
  let x := patrolSource m
  let ev := fun (c : EvClass) (code : Half) => some (⟨x.1, c, code, BitVec.ofNat 16 x.2, word⟩ : WeirEv)
  match d, localMemory m with
  | .correct, _ => none
  | .corrected, true => ev .ce 0x22
  | .corrected, false => ev .ce 0x10
  | .uncorrectable, true => ev .ucc 0x21
  | .address, true => ev .ucc 0x21
  | .uncorrectable, false => ev .ucc 0x11
  | .address, false => ev .ucc 0x12

/-! ### Consequences of an uncorrectable word (R118, R335, R491) -/

/-- A word of the staging buffer (R491): of a unit that a transfer wrote, or of a captured unit. -/
def stagingLost (n w : Fin 8) (k : Nat) (s : State) : State :=
  match (s.stagedUnits n w).find? fun u => u.k == k with
  | none => s
  | some u =>
    let code := (windowCode n w).toNat
    if u.chunk ∨ (s.target code).xfer ≠ .none then endTransfer code .aborted s
    else freeStaged n w (fun _ => true) s

/-- A copy in a firmware slot or the ROM extension (R491): it fails its CRC from now on, unless firmware rewrites it, while
it does not run, from a Reservoir set that holds it. -/
def copyLost (c : Fin 4) (b : Bool) (s : State) : State :=
  let f := s.fwCopy c b
  let sets := [Sel.a, Sel.b].filterMap (newestSet (extVersion false s) s)
  let held := sets.any fun l => l.any fun x => x.2.1 == f.manifest && x.2.2 == f.image
  let runs := if c = 0 then s.romextRan else s.running[c] == b
  if s.mode = .firmware ∧ !runs ∧ held then s
  else s.modNvm fun v =>
    if b then { v with copyB := vmod v.copyB c fun x => { x with damaged := true } }
    else { v with copyA := vmod v.copyA c fun x => { x with damaged := true } }

/-- The first word of the ring log and of the key and anchor store in the NVM (R483). -/
def logBase : Nat := 0x2E0000
def keyBase : Nat := 0x360000

/-- A word of the ring log (R491): it reads as zero in the entry that its slot holds. -/
def logLost (word : Nat) (s : State) : State :=
  if word < logBase ∨ keyBase ≤ word then s
  else s.modLog fun l =>
    { l with entries := l.entries.map fun e =>
        if e.number % logSlots = (word - logBase) / 8 then { e with bad := e.bad ||| (1#8 <<< (word % 8)) } else e }

/-- A word of the key and anchor store of which no copy is intact: of the OWNERSHIP word (R497), or of two counters (R486). What
becomes of an anchor so lost no rule says; it stays (DESIGN CHOICE, log 63). -/
def keyWordLost (word : Nat) (s : State) : State :=
  let o := 8 * (word - keyBase)
  if word < keyBase then s
  else if o < 0x10 then s.modNvm fun v => { v with ownedLost := true }
  else if 0x400 ≤ o ∧ o < 0xC00 then
    s.modNvm fun v =>
      let c := (o - 0x400) % 0x400 / 4
      { v with badCounters := v.badCounters ++ ([c, c + 1].filterMap fun x => fin? x).filter fun i => !v.badCounters.contains i }
  else s

/-- The consequence in the memory that held the word. Mirror words, words of the manifest cache, and the words for which R491
names the reaction set of their source alone, are Weir's. The other copy of a pair is used and rewritten; the commit record
stays without an intact copy, where neither is, until the ROM writes it (R281; log 63). -/
def wordLost (m : PatrolMem) (word : Word) (leaf : Fin 8 × Fin 256 × Nat) (s : State) : State :=
  match m with
  | .mirror _ => s
  | .manifestCache _ => s
  | .staging _ => stagingLost leaf.1 (Fin.ofNat 8 leaf.2.1.val) leaf.2.2 s
  | .headstock => s
  | .spindle _ => s
  | .tenon _ => s
  | .confluence true => contextLost leaf.2.2 s
  | .confluence false => descriptorLost leaf.2.2 s
  | .nvmCopy c b => copyLost c b s
  | .nvmCommit _ => if leaf.2.2 = 0 then s else s.modCommit fun c => { c with intact := false }
  | .nvmPolicyLane n => lapseLane n (s.modNvm fun v => { v with lanePolicy := vmod v.lanePolicy n fun _ => none })
  | .nvmManifestLane n =>
    s.modNvm fun v =>
      if (v.commit.lanes[n]).active then { v with manifest1 := vmod v.manifest1 n fun _ => none }
      else { v with manifest0 := vmod v.manifest0 n fun _ => none }
  | .nvmPlatformPolicy => s.modNvm fun v => { v with platform := none }
  | .nvmAdmissionPolicy => s.modNvm fun v => { v with admission := none }
  | .nvmKeyStore => if leaf.2.2 = 0 then s else keyWordLost word.toNat s
  | .nvmLog => logLost word.toNat s

/-- PATROL_SCRUB (R489 to R491): in RUN and IDLE the patrol reads the next word of a memory. leaf names what the word holds:
for the staging buffer a lane, window and unit; for the Confluence store the number of the job or of the session; for a pair in
NVM its last number is 0 where the other copy is intact. -/
def execPatrolScrub (m : PatrolMem) (word : Word) (data : Dword) (check : Byte) (leaf : Fin 8 × Fin 256 × Nat) (s : State) : Out :=
  if (s.chuck.power ≠ .run ∧ s.chuck.power ≠ .idle) ∨ s.mode = .held then .next s
  else
    let d := readWord word.toNat data check
    let s1 := { s with patrolled := s.patrolled + 1 }
    let s2 := (match d with
      | .correct => s1
      | .corrected => s1
      | _ => wordLost m word leaf s1)
    match patrolEvent m word d with
    | none => .next s2
    | some e => .next (weirEvents [e] s2)

/-! ### Words that a functional read meets (R335, R483, R491) -/

/-- The memory that a word of the NVM belongs to (R483), of which k chooses one where no rule places what the area holds. -/
def nvmHolds (word k : Nat) : Option PatrolMem :=
  if word < 0x100000 then some (.nvmCopy (Fin.ofNat 4 (1 + k % 3)) false)
  else if word < 0x200000 then some (.nvmCopy (Fin.ofNat 4 (1 + k % 3)) true)
  else if word < 0x220000 then some (.nvmCopy 0 false)
  else if word < 0x220080 then some (.nvmCommit false)
  else if word < 0x220100 then some (.nvmCommit true)
  else if word < 0x260000 then none
  else if word < logBase then
    (match k % 18 with
    | 16 => some .nvmPlatformPolicy
    | 17 => some .nvmAdmissionPolicy
    | i => some (if i < 8 then .nvmPolicyLane (Fin.ofNat 8 i) else .nvmManifestLane (Fin.ofNat 8 (i - 8))))
  else if word < keyBase then some .nvmLog
  else if word < 0x380000 then some .nvmKeyStore
  else none

/-- An uncorrectable word that a functional read meets has the consequence of one that the patrol finds (R491). What a word of
the Confluence store, of the staging buffer, or of an NVM area without a layout holds no rule says, so that is a free value; the
other copy of a pair is intact. -/
def functionalLoss (s : State) (e : WeirEv) : State :=
  if !(e.code == 0x11 || e.code == 0x12) then s
  else
    let d := drawNat s
    if e.source = 40 then wordLost (.confluence (e.unit != 0)) e.detail (0, 0, d.1 % 4096) d.2
    else if e.source = 43 then
      (match s.staging[d.1 % 4096]? with
      | none => d.2
      | some u => stagingLost u.lane u.window u.k d.2)
    else if e.source = 44 then
      (match nvmHolds e.detail.toNat d.1 with
      | none => d.2
      | some m => wordLost m e.detail (0, 0, 0) d.2)
    else s

/-- WEIR_EVENT (R423): the events that blocks report together. -/
def execWeirEvent (evs : List WeirEv) (s : State) : Out :=
  .next (weirEvents evs (if s.powered then evs.foldl functionalLoss (wakeForWeir evs s) else s))

end Sys2Proof.Machine
end

