-- ==== Sys2Proof/Machine/FabricLinks.lean ====
section
/-! DEFINITION. The Wiquajo links: training, authentication, membership, and acknowledgement with retry (R216, R525 to
R534). -/
namespace Sys2Proof.Machine
open Sys2Proof

/-- Firmware, or the ROM in Headwater, works the links (R531). -/
def State.fabricRuns (s : State) : Bool :=
  s.lanesPowered && (match s.mode with
  | .firmware => true
  | .paused => true
  | .headwater => s.certsReady
  | _ => false)

/-- Weir's source of a link (R422). -/
def linkSource (k : Fin 4) : Fin 64 := Fin.ofNat 64 (50 + k.val)

/-- The link may train: enabled, and not held (R431, R535). -/
def State.linkTrains (s : State) (k : Fin 4) : Bool := s.linkEn.getLsbD k.val && !(s.link k).held

/-- A link goes down and reports a code (R528, R530, R534). The transport status of PROTOCOL and TIMEOUT is a free value;
ABSENT has none (R425). -/
def linkFails (k : Fin 4) (code : Nat) (s : State) : State :=
  let d := if code = 0x50 then (0, s) else drawNat s
  weirReport (linkSource k) .ucc code k.val d.1 (linkDown k d.2)

/-! ### Training (R527 to R529) -/

/-- Training starts at SIGNAL. -/
def startTraining (k : Fin 4) (s : State) : State :=
  if s.fabricRuns && s.linkTrains k then s.modLink k fun l => { l with st := .signal, blocks := 0 } else s

/-- LINK_SIGNAL_DETECT (R216, R528, R529): a link that is down begins to train. In RETAIN and DEEP the signal wakes Virund
first. -/
def execLinkSignalDetect (k : Fin 4) (s : State) : Out :=
  let wake := fun (s : State) => (match s.chuck.power with
    | .retain => wakeRetain s
    | .deep => wakeDeep s
    | .idle => wakeIdle s
    | _ => s)
  if !s.powered then .next s
  else
    let s1 := (wake s).modLink k fun l => { l with signal := true }
    match (s1.link k).st with
    | .down => .next (startTraining k s1)
    | .leave => .next (startTraining k (s1.modLink k fun l => { l with st := .down }))
    | _ => .next s1

/-- A training block of this node leaves on a link (R527, R528). -/
def sendTraining (k : Fin 4) (st : LState) (s : State) : State :=
  s.modLink k (putBlock (trainingBlock st s.node s.assigned k))

/-- LINK_BLOCK_LOCK: 64 valid sync headers in a row (R528); training blocks with LSTATE SYNC are then sent. -/
def execLinkBlockLock (k : Fin 4) (headers : List (BitVec 2)) (s : State) : Out :=
  if (s.link k).st = .signal ∧ headers.length = 64 ∧ headers.all syncOk then
    .next (sendTraining k .sync (s.modLink k fun l => { l with st := .sync, blocks := 0 }))
  else .next s

/-- A LEAVE takes a link down with its transmitter idle (R529). -/
def linkLeft (k : Fin 4) (s : State) : State :=
  match (s.link k).st with
  | .down => s
  | .leave => s
  | _ => (linkDown k s).modLink k fun l => { l with st := .leave, signal := false }

/-- LINK_LEAVE (R529). -/
def execLinkLeave (k : Fin 4) (s : State) : Out := .next (linkLeft k s)

/-- The AUTH_KEY payload (R530). -/
def authKeyBytes (ephPub : Bytes) (s : State) : Bytes :=
  ephPub ++ leBytes 8 s.fuses.serial.toNat ++ ownerDigest s ++ [if s.mode = .headwater then 1 else 0, BitVec.ofNat 8 (lcCode s.lc)]
    ++ leBytes 2 (s.node.toNat + 2 ^ 15 * b2n s.assigned) ++ zeros 4

/-- AUTH begins: an ephemeral key pair, and the AUTH_KEY payload is sent (R530). -/
def enterAuth (k : Fin 4) (s : State) : State :=
  let d := drawBytes 56 s
  let b := authKeyBytes (ecPublic .p384 (ecScalar .p384 d.1)) d.2
  sendFrame k 0x01 b (d.2.modLink k fun l =>
    { l with st := .auth, blocks := 0, ours := b, seed := d.1, seqTx := 0, ackedTo := 0, seqRx := 0, retry := [], seqExt := 0, wire := [] })

/-- A valid training block has come (R528): eight in a row take SYNC to READY, and eight READY blocks take READY to AUTH. This
side sends one for each it receives, besides the one that it sends on entering the state. -/
def trained (k : Fin 4) (state : LState) (s : State) : State :=
  let l := s.link k
  match state, l.st with
  | .leave, _ => linkLeft k s
  | _, .sync =>
    if 7 ≤ l.blocks then sendTraining k .ready (s.modLink k fun l => { l with st := .ready, blocks := 0 })
    else sendTraining k .sync (s.modLink k fun l => { l with blocks := l.blocks + 1 })
  | .ready, .ready =>
    if 7 ≤ l.blocks then enterAuth k s else sendTraining k .ready (s.modLink k fun l => { l with blocks := l.blocks + 1 })
  | _, _ => s

/-- LINK_TRAINING_BLOCK (R525, R527 to R529): a block as it stands on the line behind the given bits, with P and N as the
receiver has found them. An ordered set that is no training block breaks the row. NODE and ASSIGNED are those of AUTH_KEY,
which membership goes by. -/
def execLinkTrainingBlock (k : Fin 4) (prev : BitVec 58) (block : LineBlock) (s : State) : Out :=
  match receiveTraining (s.link k).swapped prev block with
  | some (swapped, st) => .next (trained k st (s.modLink k fun l => { l with swapped := swapped }))
  | none => .next (s.modLink k fun l => { l with blocks := 0 })

/-- LINK_TRAIN_TIMEOUT: 20 ms without UP (R528). -/
def execLinkTrainTimeout (k : Fin 4) (s : State) : Out :=
  match (s.link k).st with
  | .down => .next s
  | .leave => .next s
  | .up => .next s
  | _ => .next (linkFails k 0x52 s)

/-- LINK_RETRAIN: 32 slow ticks in DOWN with a signal present (R528). -/
def execLinkRetrain (k : Fin 4) (s : State) : Out :=
  if (s.link k).st = .down ∧ (s.link k).signal then .next (startTraining k s) else .next s

/-- LINK_LOCK_LOSS: block lock lost for 16 blocks on an UP link (R528). -/
def execLinkLockLoss (k : Fin 4) (s : State) : Out :=
  if (s.link k).st = .up then .next (linkFails k 0x50 s) else .next s

/-! ### Authentication (R530 to R532) -/

/-- A sequenced frame of the peer has been accepted; the next ACK field counts it (R533, R534). -/
def acceptFrame (k : Fin 4) (s : State) : State :=
  sendUnsequenced k 0x05 [] ((wakeIdle s).modLink k fun l => { l with seqRx := l.seqRx + 1 })

/-- A sequenced frame that fails a check is discarded, and NAK names the next SEQ expected; a link that discards 16 frames for
TAG failure within 32,768 slow ticks goes down (R534). Below UP a frame has no TAG to fail (R533). -/
def discardFrame (k : Fin 4) (check : FrameCheck) (s : State) : State :=
  let l := s.link k
  let nak := sendUnsequenced k 0x06 []
  match check, l.st with
  | .good, _ => s
  | .tag, .up =>
    let seen := s.tick :: l.tagFails.filter fun t => decide (s.tick < t + 32768)
    let s1 := s.modLink k fun l => { l with tagFails := seen }
    if 16 ≤ seen.length then linkFails k 0x51 s1 else nak s1
  | .tag, _ => s
  | _, .auth => nak s
  | _, .up => nak s
  | _, _ => s

/-- AUTH (R530): the peer's AUTH_KEY. -/
def execAuth (k : Fin 4) (key : AuthKey) (s : State) : Out :=
  if (s.link k).st = .auth then .next ((acceptFrame k s).modLink k fun l => { l with peer := some key }) else .next s

/-- The bytes of the peer's AUTH_KEY payload. -/
def peerKeyBytes (a : AuthKey) : Bytes :=
  a.ephPub ++ leBytes 8 a.serial.toNat ++ a.aOwner ++ [if a.headwater then 1 else 0, a.lc]
    ++ leBytes 2 (a.node.toNat + 2 ^ 15 * b2n a.assigned) ++ zeros 4

/-- The nonce of a side: of its AUTH_KEY payload (R530 step 3). -/
def authNonce (payload : Bytes) : Bytes := (sha384 (ascii "VRND-WQ" ++ payload)).take 32

/-- K_AB and K_BA (R530 step 5), none where the peer's point is not one of the curve. -/
def linkKeys (s : State) (l : Link) (p : AuthKey) : Option (Bytes × Bytes) :=
  match ecdh (ecScalar .p384 l.seed) p.ephPub with
  | .error _ => none
  | .ok z =>
    let mine := authNonce l.ours
    let other := authNonce (peerKeyBytes p)
    let lower := decide (s.fuses.serial.toNat < p.serial.toNat)
    let prk := hmac .sha384 (if lower then mine ++ other else other ++ mine) z
    some (hkdfExpand .sha384 prk (ascii "VRND-WQ-AB") 48, hkdfExpand .sha384 prk (ascii "VRND-WQ-BA") 48)

/-- Membership (R532). -/
def membershipOf (s : State) (p : AuthKey) : Membership :=
  if s.mode = .headwater ∨ p.headwater then .restricted
  else if s.lc ≠ .owned ∨ p.lc.toNat ≠ lcCode .owned ∨ !s.assigned ∨ !p.assigned then .restricted
  else if ownerDigest s ≠ p.aOwner then .restricted
  else .fabric

/-- The Tvedvaholt Identity Root digest that the ROM holds (R530). -/
def identityRoot : Bytes := (List.range 48).map Config.identityRootByte

/-- Step 4 of R530 on the peer's chain: its first certificate is the Identity Root, and each other is signed by the one before. -/
def peerChainOk (chain : List ChainCert) : Bool :=
  match chain with
  | [] => false
  | c :: rest => sha384 c.der == identityRoot && rest.all (·.signedByPrev)

/-- LINK_AUTH_COMPLETE (R530 to R532): steps 2 to 5 have ended, with the peer's chain as read and its measurement signature
found right or not. This side's measurement signature leaves the Alias key as every signature does. -/
def execLinkAuthComplete (k : Fin 4) (chain : List ChainCert) (sigOk : Bool) (s : State) : Out :=
  let l := s.link k
  match l.st, l.peer with
  | .auth, some p =>
    if !s.fabricRuns then .next s
    else
      match peerChainOk chain && sigOk, linkKeys s l p with
      | true, some keys =>
        .next ((s.aliasPair.elim s fun a => keyJob true (beBytes 48 a.scalar) (jobDone 2 s)).modLink k fun l =>
          { l with st := .up, member := some (membershipOf s p), keyAB := keys.1, keyBA := keys.2, seqExt := 0, resends := 0, wire := [] })
      | _, _ => .next (linkFails k 0x51 s)
  | _, _ => .next s

/-! ### Acknowledgement and retry (R533, R534) -/

/-- The link carries frames. -/
def Link.carries (l : Link) : Bool := l.st == .auth || l.st == .up

/-- Frames of the retry buffer with a given place are put on the wire. -/
def transmitFrom (serial : Dword) : Nat → Nat → Link → Link
  | 0, _, l => l
  | n + 1, i, l => transmitFrom serial n (i + 1) (transmitAt serial i l)

/-- The frames that an ACK field acknowledges: those before the next SEQ that the peer expects, none where the field names no
frame of the window. -/
def ackCount (next : Half) (l : Link) : Nat :=
  let n := (next - l.ackedTo).toNat
  if n ≤ min retryWindow l.retry.length then n else 0

/-- Acknowledged frames leave the retry buffer, and the frames that now fit the window leave on the wire (R534). -/
def ackFrames (serial : Dword) (next : Half) (l : Link) : Link :=
  let n := ackCount next l
  if n = 0 then l
  else
    let sent := min retryWindow l.retry.length
    let l1 := { l with retry := l.retry.drop n, ackedTo := l.ackedTo + BitVec.ofNat 16 n, resends := 0 }
    transmitFrom serial (min retryWindow l1.retry.length - (sent - n)) (sent - n) l1

/-- The window is resent from its oldest frame; after the eighth time the link goes down (R534). -/
def resendWindow (k : Fin 4) (s : State) : State :=
  let l := s.link k
  if l.retry = [] then s
  else if 8 ≤ l.resends then linkFails k 0x51 s
  else s.modLink k fun l =>
    transmitFrom s.fuses.serial (min retryWindow l.retry.length) 0 { l with resends := l.resends + 1 }

/-- ACK. -/
def execAck (k : Fin 4) (next : Half) (s : State) : Out :=
  if (s.link k).carries then .next (s.modLink k (ackFrames s.fuses.serial next)) else .next s

/-- NAK: resend from the SEQ that the peer expects. -/
def execNak (k : Fin 4) (next : Half) (s : State) : Out :=
  if (s.link k).carries then .next (resendWindow k (s.modLink k (ackFrames s.fuses.serial next))) else .next s

/-- LINK_RETRY_TIMEOUT: no ACK has advanced for 20 µs. -/
def execLinkRetryTimeout (k : Fin 4) (s : State) : Out :=
  if (s.link k).carries then .next (resendWindow k s) else .next s

end Sys2Proof.Machine
end

