-- ==== Sys2Proof/Machine/FabricRoutes.lean ====
section
/-! DEFINITION. The services of the fabric: announcements and routes, routed and flooded messages, command relay and the
MCTP bridge, fabric time, fabric-wide snapshots and sibling alerts (R21, R535 to R548, R551). -/
namespace Sys2Proof.Machine
open Sys2Proof

/-! ### Announcements (R536 to R538) -/

/-- An ANNOUNCE payload (R536). -/
def announceBytes (m : AnnounceMsg) : Bytes :=
  leBytes 2 m.node.toNat ++ leBytes 4 m.aseq.toNat ++ [m.hops, if m.timeRoot then 1 else 0] ++ leBytes 8 m.serial.toNat

/-- An ANNOUNCE leaves on every FABRIC link but one. -/
def sendAnnounce (m : AnnounceMsg) (except : Option (Fin 4)) (s : State) : State :=
  (fins 4).foldl (fun s k => if s.fabricLink k && except != some k then sendFrame k 0x03 (announceBytes m) s else s) s

/-- Another node uses this node's identifier (R538). -/
def State.foreign (s : State) (node : BitVec 12) (serial : Dword) : Bool := node == s.node && serial != s.fuses.serial

/-- The entry of an announcement (R536). -/
def recordAnnounce (k : Fin 4) (m : AnnounceMsg) (s : State) : State :=
  let hops := some (m.hops.toNat + 1)
  let mine := fun (r : Route) => r.node == m.node && r.serial == m.serial
  s.modFabric fun f =>
    { f with
      duplicate := f.duplicate || s.foreign m.node m.serial
      routes :=
        if f.routes.any mine then
          f.routes.map fun r =>
            if mine r then
              { r with aseq := m.aseq, timeRoot := m.timeRoot, hops := vmod r.hops k fun _ => hops, heard := vmod r.heard k fun _ => s.tick }
            else r
        else f.routes ++ [{ node := m.node, serial := m.serial, aseq := m.aseq, timeRoot := m.timeRoot,
                            hops := vmod (Vector.replicate 4 none) k fun _ => hops, heard := Vector.replicate 4 s.tick }] }

/-- ANNOUNCE (R536, R538): recorded and forwarded where its ASEQ is higher than the last from that node and serial. An
announcement of this node's own comes back unused; its identifier from another serial is reported, with IRQ, NMI and ERR_PIN
alone, since nothing that arrives resets the link, which stays UP (R21, R538). -/
def execAnnounce (k : Fin 4) (m : AnnounceMsg) (s : State) : Out :=
  if !s.fabricRuns ∨ !s.fabricLink k then .next s
  else
    let s1 := acceptFrame k s
    let held := s1.fabric.routes.find? fun r => r.node == m.node && r.serial == m.serial
    if (m.node = s1.node ∧ m.serial = s1.fuses.serial) ∨ held.any (fun r => decide (m.aseq.toNat ≤ r.aseq.toNat)) then .next s1
    else
      let s2 := recordAnnounce k m s1
      let s3 := if m.hops.toNat + 1 < 63 then sendAnnounce { m with hops := m.hops + 1 } (some k) s2 else s2
      if s1.foreign m.node m.serial then
        let d := drawNat s3
        .next (romEvent ⟨linkSource k, .ucc, 0x51, BitVec.ofNat 16 k.val, BitVec.ofNat 32 d.1⟩ d.2)
      else .next s3

/-- ANNOUNCE_PERIOD (R536): this node's own announcement. -/
def execAnnouncePeriod (s : State) : Out :=
  if s.fabricRuns && s.inFabric then
    let s1 := s.modFabric fun f => { f with aseq := f.aseq + 1 }
    .next (sendAnnounce { node := s.node, aseq := s1.fabric.aseq, hops := 0, timeRoot := s.timeRoot, serial := s.fuses.serial } none s1)
  else .next s

/-- An entry that a link has not heard for four periods expires (R536). -/
def expireRoute (now : Nat) (r : Route) : Route :=
  { r with hops := Vector.ofFn fun k => if r.heard[k] + 4 * ticksPerSec ≤ now then none else r.hops[k] }

/-- ROUTE_EXPIRY (R536, R538). -/
def execRouteExpiry (s : State) : Out :=
  let l := (s.fabric.routes.map (expireRoute s.tick)).filter (·.known)
  .next (s.modFabric fun f => { f with routes := l, duplicate := l.any fun r => s.foreign r.node r.serial })

/-! ### Command relay and the bridge (R541, R542) -/

/-- A relayed Stolik frame comes to the port of its arrival link and origin, and waits there to be served (R393, R541). -/
def relayIn (k : Fin 4) (src : BitVec 12) (msgId : Word) (frame : Bytes) (s : State) : State :=
  let p : Port := .pl k src
  let tag : Word := BitVec.ofNat 32 (u32 (padTo frame 16) 4)
  (wakeIdle s).modStolik fun q =>
    let q1 := { q with relayed := q.relayed ++ [(p, tag, msgId)] }
    if 1024 ≤ s.deviceLoad then { q1 with parked := q1.parked ++ [⟨p, frame⟩] }
    else { q1 with waiting := q1.waiting ++ [⟨p, frame⟩] }

/-- The node that a bridged EID reaches (R535). -/
def State.bridgeNode (s : State) (eid : Byte) : Option (BitVec 12) :=
  if s.eidBase = 0 ∨ eid.toNat < s.eidBase.toNat then none else s.bridge[eid.toNat - s.eidBase.toNat]?

/-- The answer to a claim that this node sent (R311). -/
def claimAnswer (src : BitVec 12) (frame : Bytes) (s : State) : State :=
  match (fin? (u32 frame 4) : Option (Fin 1024)) with
  | none => s
  | some i =>
    if u16 frame 0 = 0x8408 ∧ s.coordinatorOf i = some src then
      quotaAnswered i (u16 frame 2 == 0) (BitVec.ofNat 32 (u32 frame 16)) (u32 frame 20) s
    else s

/-- A RELAY_RESPONSE comes back: to the endpoint behind the bridge, or to this node's own claim (R541, R542). -/
def relayBack (src : BitVec 12) (msgId : Word) (frame : Bytes) (s : State) : State :=
  match s.fabric.bridged.find? fun b => b.msgId == msgId && s.bridgeNode b.eid == some src with
  | some b =>
    (s.modFabric fun f => { f with bridged := f.bridged.erase b }).modBus b.bus fun x => { x with bridgeOut := some (b.endpoint, b.eid, frame) }
  | none => if 16 ≤ frame.length ∧ crcOk frame then claimAnswer src frame s else s

/-- BRIDGE_MESSAGE (R542): a Stolik message of a bus endpoint to a bridged EID. -/
def execBridgeMessage (bus : Fin 16) (endpoint eid : Byte) (frame : Bytes) (s : State) : Out :=
  if s.mode ≠ .firmware ∨ !s.lanesPowered ∨ (s.buses[bus]).role ≠ 0b01 then .next s
  else
    match s.bridgeNode eid with
    | none => .next s
    | some n =>
      let m := takeMsgId s
      .next (sendRouted n 1 m.1 frame (m.2.modFabric fun f =>
        { f with bridged := f.bridged ++ [{ bus := bus, endpoint := endpoint, eid := eid, msgId := m.1, sentTick := s.tick }] }))

/-- BRIDGE_TIMEOUT (R542): 5 s. -/
def execBridgeTimeout (s : State) : Out :=
  .next (s.modFabric fun f => { f with bridged := f.bridged.filter fun b => decide (s.tick < b.sentTick + 5 * ticksPerSec) })

/-! ### Snapshots (R547, R548) -/

/-- A SNAP_SCHEDULE: a capture for its initiator, late where AT has passed. A fifth scheduled capture has no room (R522). -/
def scheduleIn (initiator : BitVec 12) (opId : Word) (at_ : Nat) (s : State) : State :=
  if initiator = s.node ∨ !s.inFabric ∨ !captureRoom s then s
  else addCapture { opId := opId, at_ := at_, fabric := true, initiator := some initiator, late := decide (at_ < s.time), acks := [] } s

/-- The acknowledgement of a node is counted within 1 s of AT. -/
def countAck (now : Nat) (node : BitVec 12) (c : Capture) : Capture :=
  if c.acks.contains node ∨ c.at_ + nsPerSec < now then c else { c with acks := c.acks ++ [node] }

/-- A SNAP_ACK reaches the initiator (R547, R548). -/
def ackIn (node : BitVec 12) (opId : Word) (s : State) : State :=
  let mine := fun (c : Capture) => c.fabric && c.initiator.isNone && c.opId == opId
  s.modStolik fun k =>
    { k with
      captures := k.captures.map fun c => if mine c then countAck s.time node c else c
      shadows := k.shadows.map fun x => if mine x.cap then { x with cap := countAck s.time node x.cap } else x
      snapshots := k.snapshots.map fun x =>
        if x.fabric && x.initiator.isNone && x.opId == opId && !x.nodes.contains node && decide (s.time ≤ x.at_ + nsPerSec) then
          { x with nodes := x.nodes ++ [node] }
        else x }

/-- The data of a SNAP_DATA (R548). -/
def snapDataBytes (r : Res) (total : Nat) (chunk : Bytes) : Bytes := leBytes 2 (resCode r) ++ zeros 2 ++ leBytes 4 total ++ chunk

/-- A SNAP_FETCH is answered with the chunk, or ABORTED where the record is no longer held (R548). -/
def fetchIn (src : BitVec 12) (msgId : Word) (opId : Word) (node : BitVec 12) (chunk : Nat) (s : State) : State :=
  if node ≠ s.node then s
  else
    match s.stolik.snapshots.find? fun x => x.initiator == some src && x.opId == opId with
    | some x => sendRouted src 6 msgId (snapDataBytes .done x.record.length (snapChunk x.record chunk)) s
    | none => sendRouted src 6 msgId (snapDataBytes .aborted 0 []) s

/-- A SNAP_DATA answers the GET_SNAPSHOT that waits for it (R548). -/
def dataIn (msgId : Word) (r : Res) (total : Nat) (data : Bytes) (s : State) : State :=
  match s.stolik.fetches.find? fun x => x.2.1 == msgId with
  | none => s
  | some x =>
    reply x.1.port 0x0702 x.1.tag r (if r = .done then snapAnswer total data else [])
      (s.modStolik fun k => { k with fetches := drop? k.fetches fun y => y.2.1 == msgId })

/-- SNAP_FETCH_TIMEOUT (R548): 2 s. -/
def execSnapFetchTimeout (s : State) : Out :=
  let late := s.stolik.fetches.filter fun x => decide (x.2.2 + 2 * ticksPerSec ≤ s.tick)
  .next (late.foldl (fun s x => reply x.1.port 0x0702 x.1.tag .aborted [] s)
    (s.modStolik fun k => { k with fetches := k.fetches.filter fun x => !decide (x.2.2 + 2 * ticksPerSec ≤ s.tick) }))

/-! ### Alerts (R21, R551) -/

/-- An ALERT raises an interrupt, with which firmware writes one entry. -/
def alertIn (src : BitVec 12) (kind detail : Byte) (nodeTime : Nat) (s : State) : State :=
  logNow 0x0090 0x01 (leBytes 2 src.toNat ++ [kind, detail] ++ leBytes 8 nodeTime)
    (s.modFabric fun f => { f with alertIrq := true })

/-! ### Routed messages (R539, R540) -/

/-- The result that a code names; a code that R398 does not list counts as ABORTED. -/
def resOf (code : Nat) : Res :=
  ([Res.done, .accepted, .busyOwned, .queueFull, .lengthShort, .lengthLong, .badFrame, .badSignature, .badPoint, .outOfRange,
    .invariantFail, .retryExhausted, .rollback, .incompatible, .deniedPolicy, .deniedLifecycle, .notAuthorised, .aborted,
    .faultState].find? fun r => resCode r == code).getD .aborted

/-- A complete message comes to its service (R539). -/
def deliverMessage (k : Fin 4) (src : BitVec 12) (msgId : Word) (service : Nat) (d : Bytes) (s : State) : State :=
  match service with
  | 1 => relayIn k src msgId d s
  | 2 => relayBack src msgId d s
  | 3 => scheduleIn (BitVec.ofNat 12 (u16 d 0)) (BitVec.ofNat 32 (u32 d 4)) (u64 d 8) s
  | 4 => ackIn (BitVec.ofNat 12 (u16 d 0)) (BitVec.ofNat 32 (u32 d 2)) s
  | 5 => fetchIn src msgId (BitVec.ofNat 32 (u32 d 0)) (BitVec.ofNat 12 (u16 d 4)) (u32 d 8) s
  | 6 => dataIn msgId (resOf (u16 d 0)) (u32 d 4) (d.drop 8) s
  | 7 => alertIn src (BitVec.ofNat 8 (u8 d 0)) (BitVec.ofNat 8 (u8 d 1)) (u64 d 4) s
  | _ => s

/-- Messages that may be in reassembly (R540). -/
def reasmRoom : Nat := 64

/-- A fragment reaches its destination (R540). -/
def reassemble (k : Fin 4) (h : RoutedHdr) (d : Bytes) (s : State) : State :=
  let mine := fun (x : Reasm) => x.src == h.src && x.msgId == h.msgId
  let drop := fun (s : State) => s.modFabric fun f => { f with reasm := drop? f.reasm mine }
  match s.fabric.reasm.find? mine with
  | none =>
    if h.frag ≠ 0 then s
    else if h.last then deliverMessage k h.src h.msgId h.service.toNat d s
    else if reasmRoom ≤ s.fabric.reasm.length then s
    else s.modFabric fun f =>
      { f with reasm := f.reasm ++ [{ src := h.src, msgId := h.msgId, link := k, service := h.service, data := d, next := 1, firstTick := s.tick }] }
  | some x =>
    if h.frag.toNat ≠ x.next then drop s
    else if h.last then deliverMessage k h.src h.msgId x.service.toNat (x.data ++ d) (drop s)
    else s.modFabric fun f =>
      { f with reasm := f.reasm.map fun y => if mine y then { y with data := y.data ++ d, next := y.next + 1 } else y }

/-- A fragment goes on, one hop fewer (R539). -/
def forwardOn (k : Fin 4) (h : RoutedHdr) (d : Bytes) (s : State) : State :=
  sendRoutedOn k { h with hopsLeft := h.hopsLeft - 1 } d s

/-- A flooded message: once for each SRC and MSG_ID, on every FABRIC link but the one it came on, and to this node itself
(R540). -/
def floodIn (k : Fin 4) (h : RoutedHdr) (d : Bytes) (s : State) : State :=
  if s.pairSeen h.src h.msgId then s
  else
    let s1 := if h.last then rememberPair h.src h.msgId s else s
    let s2 := if h.hopsLeft = 0 then s1
      else (fins 4).foldl (fun s j => if s.fabricLink j && j != k then forwardOn j h d s else s) s1
    reassemble k h d s2

/-- ROUTED (R534, R539, R540): for this node, flooded, or forwarded on the route to its destination. A frame that fails a check
is discarded, whatever its type would have been. -/
def execRouted (k : Fin 4) (h : RoutedHdr) (data : Bytes) (check : FrameCheck) (s : State) : Out :=
  if check ≠ .good then .next (if s.fabricRuns then discardFrame k check s else s)
  else if !s.fabricRuns ∨ !s.fabricLink k ∨ fragBytes < data.length then .next s
  else
    let s1 := acceptFrame k s
    if h.flood then .next (floodIn k h data s1)
    else if h.dst = s1.node then .next (reassemble k h data s1)
    else if h.hopsLeft = 0 then .next s1
    else
      match s1.routeTo h.dst with
      | none => .next s1
      | some j => .next (forwardOn j h data s1)

/-- REASSEMBLY_TIMEOUT (R540): 1 s. -/
def execReassemblyTimeout (s : State) : Out :=
  .next (s.modFabric fun f => { f with reasm := f.reasm.filter fun x => decide (s.tick < x.firstTick + ticksPerSec) })

/-- A complete message of the service, from the node's place in the fabric. -/
def onFabric (f : State → State) (s : State) : Out := if s.fabricRuns && s.inFabric then .next (f s) else .next s

/-- RELAY_REQUEST (R541): a complete message. -/
def execRelayRequest (k : Fin 4) (src : BitVec 12) (msgId : Word) (frame : Bytes) (s : State) : Out :=
  if s.fabricRuns && s.fabricLink k then .next (relayIn k src msgId frame s) else .next s

/-- RELAY_RESPONSE (R541, R542). -/
def execRelayResponse (k : Fin 4) (src : BitVec 12) (msgId : Word) (frame : Bytes) (s : State) : Out :=
  if s.fabricRuns && s.fabricLink k then .next (relayBack src msgId frame s) else .next s

/-- SNAP_SCHEDULE (R547). -/
def execSnapSchedule (k : Fin 4) (initiator : BitVec 12) (opId : Word) (at_ : Dword) (s : State) : Out :=
  if s.fabricRuns && s.fabricLink k then .next (scheduleIn initiator opId at_.toNat s) else .next s

/-- SNAP_ACK (R547, R548). SNFLAGS stands in the node's own record. -/
def execSnapAck (node : BitVec 12) (opId : Word) (_flags : Half) (s : State) : Out := onFabric (ackIn node opId) s

/-- SNAP_FETCH (R548). -/
def execSnapFetch (src : BitVec 12) (msgId : Word) (opId : Word) (node : BitVec 12) (chunk : Word) (s : State) : Out :=
  onFabric (fetchIn src msgId opId node chunk.toNat) s

/-- SNAP_DATA (R548). -/
def execSnapData (_src : BitVec 12) (msgId : Word) (result : Res) (total : Word) (data : Bytes) (s : State) : Out :=
  onFabric (dataIn msgId result total.toNat data) s

/-- ALERT (R21, R551). -/
def execAlert (src : BitVec 12) (kind detail : Byte) (nodeTime : Dword) (s : State) : Out :=
  onFabric (alertIn src kind detail nodeTime.toNat) s

/-! ### Fabric time (R543 to R545) -/

/-- Device time in 1/16 ns (R544). -/
def State.time16 (s : State) : Nat := s.time * 16 + s.timeFrac / 8

/-- A TIME payload (R544). -/
def timeBytes (m : TimeMsg) : Bytes :=
  [if m.response then 1 else 0, if m.synced then 1 else 0] ++ leBytes 2 m.root.toNat ++ leBytes 4 m.syncId.toNat
    ++ leBytes 8 m.t1.toNat ++ leBytes 8 m.t2.toNat ++ leBytes 8 m.t3.toNat

/-- A TIME frame leaves. -/
def sendTime (k : Fin 4) (m : TimeMsg) (s : State) : State :=
  (sendUnsequenced k 0x04 (timeBytes m) s).modFabric fun f => { f with timeSent := (k, m) :: f.timeSent }

/-- The node that is followed for time, and the parent's link (R543). -/
def State.parent (s : State) : Option (BitVec 12 × Fin 4) :=
  if s.isRoot then none
  else s.timeRootNode.bind fun r => (s.routeTo (BitVec.ofNat 12 r)).map fun k => (BitVec.ofNat 12 r, k)

/-- TIME_EXCHANGE (R543): a request to the parent. -/
def execTimeExchange (s : State) : Out :=
  match s.fabricRuns, s.parent with
  | true, some (root, k) =>
    let s1 := s.modFabric fun f => { f with syncId := f.syncId + 1 }
    .next (sendTime k { response := false, synced := s.sourceNow == 2, root := root, syncId := s1.fabric.syncId,
                        t1 := BitVec.ofNat 64 s.time16, t2 := 0, t3 := 0 } s1)
  | _, _ => .next s

/-- The parent's answer to a request (R544). Where it knows no root, ROOT is a free value. -/
def answerTime (k : Fin 4) (m : TimeMsg) (arrival : Dword) (s : State) : State :=
  let root := match s.timeRootNode with
    | some r => (r, s)
    | none => drawNat s
  sendTime k { response := true, synced := s.sourceNow == 2, root := BitVec.ofNat 12 root.1, syncId := m.syncId, t1 := m.t1,
               t2 := arrival, t3 := BitVec.ofNat 64 s.time16 } root.2

/-- offset (R544), in 1/16 ns. -/
def timeOffset (m : TimeMsg) (t4 : Dword) : Int :=
  (((m.t2.toNat : Int) - m.t1.toNat) - ((t4.toNat : Int) - m.t3.toNat)) / 2

/-- Device time is stepped forwards by an offset in 1/16 ns (R545). -/
def stepTime (off : Int) (s : State) : State :=
  let t := s.time * 128 + s.timeFrac + (off * 8).toNat
  { s with time := min timeMax (t / 128), timeFrac := t % 128 }

/-- An offset within 100 ns (R545). -/
def smallOffset (x : Int) : Bool := decide (-1600 < x ∧ x < 1600)

/-- A valid exchange (R545): an offset above 1 µs is stepped, a smaller one removed by rate; the last four offsets decide
whether the node is synchronised. -/
def correctTime (off : Int) (s : State) : State :=
  let s1 := s.modFabric fun f =>
    let l := (off :: f.offsets).take 4
    { f with
      offsets := l
      lastExchange := s.tick
      synced := l.length == 4 && l.all smallOffset
      slew := if 16000 < off then 0 else off }
  if 16000 < off then stepTime off s1 else s1

/-- TIME (R544, R545): a request is answered; a response of the parent that is synchronised, names the same root and answers
the last request corrects device time. -/
def execTime (k : Fin 4) (m : TimeMsg) (arrival : Dword) (s : State) : Out :=
  if !s.fabricRuns || !s.fabricLink k then .next s
  else if !m.response then .next (answerTime k m arrival s)
  else
    match s.parent with
    | some (root, j) =>
      if j = k ∧ m.synced ∧ m.root = root ∧ m.syncId = s.fabric.syncId then .next (correctTime (timeOffset m arrival) s) else .next s
    | none => .next s

end Sys2Proof.Machine
end

