-- ==== Sys2Proof/Machine/Recovery.lean ====
section
/-! DEFINITION. Peer recovery: what a node serves from its Reservoirs, and the rounds in which a node in Headwater asks its
neighbours for a set (R193, R194, R285 to R287, R549, R550). -/
namespace Sys2Proof.Machine
open Sys2Proof

/-- A RECOVERY frame leaves (R549). -/
def sendRecovery (k : Fin 4) (op : Byte) (body : Bytes) (s : State) : State :=
  let p := [op, 0, 0, 0] ++ body
  (sendFrame k 0x07 p s).modFabric fun f => { f with recovery := (k, p) :: f.recovery }

/-! ### Serving a set (R550) -/

/-- The complete set areas of a Reservoir. -/
def completeSets (s : State) (x : Sel) : List DirEntry :=
  let r := s.res x
  if r.present && !r.held then r.dir.filter fun e => e.isSet && e.state == .complete else []

/-- The set with the highest GENERATION. -/
def State.offeredSet (s : State) : Option DirEntry :=
  match s.mode with
  | .headwater => none
  | _ =>
    (completeSets s .a ++ completeSets s .b).foldl (fun b e => match b with
      | none => some e
      | some (d : DirEntry) => if d.generation < e.generation then some e else b) none

/-- The components of a set in the order of R412. -/
def setParts (e : DirEntry) : List (Bytes × Bytes) :=
  [2, 3, 4, 1].filterMap fun t => e.comps.find? fun c => (readComponent c.1).any fun m => m.target == t

/-- The manifests of a set, and its byte stream (R412, R550). -/
def setManifestBytes (e : DirEntry) : Bytes := (setParts e).flatMap Prod.fst
def setStream (e : DirEntry) : Bytes := setManifestBytes e ++ (setParts e).flatMap Prod.snd

/-- The OFFER of a set (R549, R550). -/
def offerBytes (e : DirEntry) : Bytes :=
  let man := setManifestBytes e
  let version := (((setParts e).head?.bind fun c => readComponent c.1).map (·.version)).getD 0
  leBytes 4 version ++ leBytes 4 ((setStream e).length - man.length) ++ leBytes 4 e.generation ++ leBytes 4 man.length

/-- The link carries recovery frames and its node works it (R532, R549). -/
def State.recoveryRuns (s : State) (k : Fin 4) : Bool := s.fabricRuns && s.recoveryLink k

/-- RECOVERY_QUERY (R550). -/
def execRecoveryQuery (k : Fin 4) (s : State) : Out :=
  if !s.recoveryRuns k then .next s
  else
    let s1 := acceptFrame k s
    match s1.offeredSet with
    | some e => .next (sendRecovery k 2 (offerBytes e) s1)
    | none => .next (sendRecovery k 3 [] s1)

/-- Data bytes of a DATA frame (R549). -/
def dataBytes : Nat := 4080

/-- The DATA frames of a piece of the stream, in order. -/
def sendData (k : Fin 4) (offset : Nat) (b : Bytes) (s : State) : State :=
  (chunksOf dataBytes b).zipIdx.foldl (fun s x => sendRecovery k 5 (leBytes 4 (offset + dataBytes * x.2) ++ x.1) s) s

/-- RECOVERY_GET (R549, R550): at most 65,536 bytes. A node that no longer holds a set answers NONE. -/
def execRecoveryGet (k : Fin 4) (offset length : Word) (s : State) : Out :=
  if !s.recoveryRuns k then .next s
  else
    let s1 := acceptFrame k s
    match s1.offeredSet with
    | some e => .next (sendData k offset.toNat (slice (setStream e) offset.toNat (min 65536 length.toNat)) s1)
    | none => .next (sendRecovery k 3 [] s1)

/-! ### A round in Headwater (R193, R287) -/

/-- Some port holds the HEADWATER_SET lock. -/
def State.setLocked (s : State) : Bool := (s.lockHolder headwaterCode).isSome

/-- The bytes of an offered stream. -/
def Offer.total (o : Offer) : Nat := o.manifestLength.toNat + o.setLength.toNat

/-- Copies in WRITING are dropped with a download that has not committed (R257). -/
def dropSetCopies (s : State) : State := (fins 4).foldl (fun s c => dropWriting c s) s

/-- The order of R287: the higher HS_VERSION, then the lower link. -/
def offerBefore (a b : Offer) : Bool :=
  decide (b.hsVersion.toNat < a.hsVersion.toNat) || (a.hsVersion == b.hsVersion && decide (a.link.val < b.link.val))

/-- The best offer that the ROM can accept: its HEADSTOCK_FW is not below the counter, and its link still carries frames. -/
def bestOffer (s : State) (l : List Offer) : Option Offer :=
  (l.filter fun o => decide (s.counter 1 ≤ o.hsVersion.toNat) && s.recoveryLink o.link).foldl (fun b o => match b with
    | none => some o
    | some (x : Offer) => if offerBefore o x then some o else b) none

/-- The next GET of a download. -/
def askNext (o : Offer) (have_ : Nat) (s : State) : State :=
  sendRecovery o.link 4 (leBytes 4 have_ ++ leBytes 4 (min 65536 (o.total - have_))) s

/-- The best of the offers left is downloaded; without one the round ends (R287). -/
def startDownload (s : State) : State :=
  let s1 := dropSetCopies (s.modFabric fun f => { f with download := none })
  match bestOffer s1 s1.fabric.offers with
  | none => s1.modFabric fun f => { f with offers := [] }
  | some o => askNext o 0 (s1.modFabric fun f => { f with download := some (o, []), offers := f.offers.erase o })

/-- A download goes on while its link carries frames. -/
def State.downloading (s : State) : Bool :=
  match s.fabric.download with
  | none => false
  | some d => s.recoveryLink d.1.link

/-- HEADWATER_PEER_REQUEST (R193, R287): a QUERY on every authenticated link, where no port holds the lock. A download whose
link has gone has failed, and the next offer of its round is tried. -/
def execHeadwaterPeerRequest (s : State) : Out :=
  if s.mode ≠ .headwater ∨ !s.lanesPowered ∨ s.setLocked ∨ s.downloading ∨ s.fabric.round.isSome then .next s
  else if s.fabric.download.isSome then .next (startDownload s)
  else
    .next ((fins 4).foldl (fun s k => if s.recoveryLink k then sendRecovery k 1 [] s else s)
      (s.modFabric fun f => { f with round := some s.tick, offers := [] }))

/-- RECOVERY_OFFER (R287, R549): collected in a round. -/
def execRecoveryOffer (k : Fin 4) (hsVersion setLength generation manifestLength : Word) (s : State) : Out :=
  if !s.recoveryRuns k then .next s
  else
    let s1 := acceptFrame k s
    if s1.mode = .headwater ∧ s1.fabric.round.isSome then
      .next (s1.modFabric fun f =>
        { f with offers := (drop? f.offers fun o => o.link == k) ++
            [{ link := k, hsVersion := hsVersion, setLength := setLength, generation := generation, manifestLength := manifestLength }] })
    else .next s1

/-- HEADWATER_OFFER_WINDOW_END (R287): 32,768 slow ticks after the request. -/
def execHeadwaterOfferWindowEnd (s : State) : Out :=
  match s.mode, s.fabric.round with
  | .headwater, some t =>
    if s.tick < t + ticksPerSec then .next s
    else
      let s1 := s.modFabric fun f => { f with round := none }
      if s1.setLocked then .next (s1.modFabric fun f => { f with offers := [] }) else .next (startDownload s1)
  | _, _ => .next s

/-- RECOVERY_NONE (R549): the peer has nothing to serve, which ends a download from it. -/
def execRecoveryNone (k : Fin 4) (s : State) : Out :=
  if !s.recoveryRuns k then .next s
  else
    let s1 := acceptFrame k s
    match s1.fabric.download with
    | some d => if d.1.link = k ∧ s1.mode = .headwater then .next (startDownload s1) else .next s1
    | none => .next s1

/-- The manifests of a download are complete: accepted under R189 and R285, and their copies in WRITING. None where the set is
not accepted. -/
def acceptDownload (man : Bytes) (s : State) : Option State :=
  match setManifests man with
  | none => none
  | some l =>
    if (l.all fun x => (acceptInSet s x.1).isNone && (x.2.target != 1 || romextBacked s x.1)) then
      some ((l.filterMap fun x => compFin x.2.target).foldl (fun s k => markCopy k (s.setCopy k) .writing s) s)
    else none

/-- A whole set has arrived: committed through the verify-gated path, with the CHIP reset that ends Headwater (R194, R285,
R286); otherwise the next offer is tried. -/
def commitDownload (o : Offer) (b : Bytes) (s : State) : State :=
  match setManifests (b.take o.manifestLength.toNat) with
  | none => startDownload s
  | some l =>
    let r := commitSet (l.map Prod.fst) (b.drop o.manifestLength.toNat) s
    if r.1 = .done then headwaterDone r.2 else startDownload r.2

/-- RECOVERY_DATA (R287, R549): the next bytes of the download; bytes of another place fail it. -/
def execRecoveryData (k : Fin 4) (offset : Word) (data : Bytes) (s : State) : Out :=
  if !s.recoveryRuns k then .next s
  else
    let s1 := acceptFrame k s
    match s1.fabric.download with
    | none => .next s1
    | some (o, got) =>
      if s1.mode ≠ .headwater ∨ o.link ≠ k then .next s1
      else if offset.toNat ≠ got.length ∨ dataBytes < data.length ∨ o.total < got.length + data.length then .next (startDownload s1)
      else
        let b := got ++ data
        let m := o.manifestLength.toNat
        let accepted := if got.length < m ∧ m ≤ b.length then acceptDownload (b.take m) s1 else some s1
        match accepted with
        | none => .next (startDownload s1)
        | some s2 =>
          let s3 := s2.modFabric fun f => { f with download := some (o, b) }
          if b.length = o.total then .next (commitDownload o b s3)
          else if b.length % 65536 = 0 then .next (askNext o b.length s3)
          else .next s3

end Sys2Proof.Machine
end

