-- ==== Sys2Proof/Machine/Returns.lean ====
section
/-! DEFINITION. Returns to service: the end of a BLOCK reset, the restart of a management bus after a clock-low timeout, and
the recovery of the entropy source (R305, R324, R361, R383, R431, R451, R528, R585). -/
namespace Sys2Proof.Machine
open Sys2Proof

/-! ### The end of a BLOCK reset (R431) -/

/-- A Riffle returns to service as a shared engine (R324, R361). -/
def riffleBack (i : Fin 32) (s : State) : State :=
  let s1 := s.modRiffle i fun r => { r with inService := true, reserve := none, job := none, suspended := [] }
  match (fin? (i.val - 8) : Option (Fin 24)) with
  | none => s1
  | some k => if i.val < 8 then s1 else s1.modConf fun c => { c with lastKat := vmod c.lastKat k fun _ => s.tick }

/-- A Mandrel returns to service as a shared engine (R324, R383). -/
def mandrelBack (m : Fin 8) (s : State) : State := s.modMandrel m fun x => { x.cleared with inService := true, reserve := none }

/-- A Spindle has restarted: its mailbox is served again where firmware serves Stolik (R397, R431). -/
def spindleBack (n : Fin 8) (s : State) : State :=
  if s.mode ≠ .firmware ∨ !((s.lane n).cfg.enable || (s.lane n).cfg.mailbox) then s
  else
    let s1 := s.modLane n fun l => { l with mb := { l.mb with paused := false } }
    takeFrames n ((s1.lane n).mb.inBuf.length + 2) s1

/-- A Reservoir port has been reset: a lane that needs it may claim it (R139, R431). -/
def portBack (x : Sel) (s : State) : State := endClaim x (s.modRes x fun r => { r with held := false })

/-- The link leaves its reset: training starts at once where a signal is present (R528). -/
def linkBack (k : Fin 4) (s : State) : State :=
  let s1 := s.modLink k fun l => { l with held := false }
  if (s1.link k).signal then startTraining k s1 else s1

/-- The block of a source and UNIT in service again. -/
def blockBack (src : Fin 64) (unit : Nat) (s : State) : State :=
  let v := src.val
  if v ≤ 7 then (if unit = 1 then riffleBack (Fin.ofNat 32 v) s else s)
  else if v ≤ 9 then { s with engines := vmod s.engines (Fin.ofNat 10 v) fun _ => !s.replacedEngines[(Fin.ofNat 10 v : Fin 10)] }
  else if v ≤ 17 then spindleBack (Fin.ofNat 8 (v - 10)) s
  else if v ≤ 21 then restartAttests (fun c => c.bus / 4 == v - 18) s
  else if 24 ≤ v ∧ v ≤ 31 then (groupRiffles (v - 24)).foldl (fun s i => riffleBack i s) s
  else if 32 ≤ v ∧ v ≤ 39 then mandrelBack (Fin.ofNat 8 (v - 32)) s
  else if v = 47 then portBack .a s
  else if v = 48 then portBack .b s
  else if 50 ≤ v ∧ v ≤ 53 then linkBack (Fin.ofNat 4 (v - 50)) s
  else s

/-- The engine whose known-answer tests end the reset of a source and UNIT (R361, R383). -/
def blockEngine (src : Fin 64) (unit : Nat) : Option Engine :=
  let v := src.val
  if v ≤ 7 then (if unit = 1 then some (.riffle (Fin.ofNat 32 v)) else none)
  else if 24 ≤ v ∧ v ≤ 31 then (groupRiffles (v - 24)).head?.map .riffle
  else if 32 ≤ v ∧ v ≤ 39 then some (.mandrel (Fin.ofNat 8 (v - 32)))
  else none

/-- BLOCK_RESET_END (R431): a block that is not held returns to service; an engine that fails its tests is reported, and stays
out of service (R362, R384). The number of the failed test is a free value. -/
def execBlockResetEnd (source : Fin 64) (unit : Fin 16) (testPassed : Bool) (s : State) : Out :=
  let e := s.weir.blocks.find? fun b => b.1 == source && b.2.1 == unit.val && !b.2.2
  match e with
  | none => .next s
  | some b =>
    let s1 := s.modWeir fun w => { w with blocks := w.blocks.erase b }
    match testPassed, blockEngine source unit.val with
    | false, some eng =>
      let d := drawNat s1
      .next (weirEvents [katEvent eng d.1] d.2)
    | _, _ => .next (blockBack source unit.val s1)

/-! ### The buses and the entropy source (R451, R585) -/

/-- CLOCK_LOW_TIMEOUT (R585): Virund releases the bus and restarts its interface. I3C has the timeout of its own protocol. -/
def execClockLowTimeout (bus : Fin 16) (s : State) : Out :=
  let b := s.buses[bus]
  if b.role = 0b00 ∨ b.i3c ∨ !s.powered then .next s
  else .next (s.modBus bus fun b => { b with restarts := b.restarts + 1, spdmOut := none, spdm := .none, ctrlOut := none })

/-- HEALTH_TEST_PASS (R451): the key block draws from the entropy source again. -/
def execHealthTestPass (s : State) : Out := .next (s.modKeys fun k => { k with entropyFailed := false })

end Sys2Proof.Machine
end

