-- ==== Sys2Proof/Machine/Dispatch.lean ====
section
/-! DEFINITION. One arm per command of the table: a direct call of its meaning. -/
namespace Sys2Proof.Machine
open Sys2Proof

/-- The effect of a command on everything but the queue. -/
def exec (i : Instr) (s : State) : Host.Outcome State Fault Refusal :=
  match i with
  | .read t addr len e => Sys2Proof.Machine.execRead t addr len e s
  | .readSfdp t addr len => Sys2Proof.Machine.execReadSfdp t addr len s
  | .readId t len => Sys2Proof.Machine.execReadId t len s
  | .readStatus t len sr0 sr1 => Sys2Proof.Machine.execReadStatus t len sr0 sr1 s
  | .writeEnable t => Sys2Proof.Machine.execWriteEnable t s
  | .program t addr data => Sys2Proof.Machine.execProgram t addr data s
  | .erase t addr blockUnits => Sys2Proof.Machine.execErase t addr blockUnits s
  | .eraseChip t => Sys2Proof.Machine.execEraseChip t s
  | .writeConfig t data => Sys2Proof.Machine.execWriteConfig t data s
  | .addressMode t => Sys2Proof.Machine.execAddressMode t s
  | .reset t => Sys2Proof.Machine.execReset t s
  | .resetConfigRestore lane chip => Sys2Proof.Machine.execResetConfigRestore lane chip s
  | .suspend t => Sys2Proof.Machine.execSuspend t s
  | .resume t => Sys2Proof.Machine.execResume t s
  | .power t len => Sys2Proof.Machine.execPower t len s
  | .securityRegister t addr len => Sys2Proof.Machine.execSecurityRegister t addr len s
  | .unknown t len => Sys2Proof.Machine.execUnknown t len s
  | .mbOpWrite t data => Sys2Proof.Machine.execMbOpWrite t data s
  | .mbOpRead t len => Sys2Proof.Machine.execMbOpRead t len s
  | .mbOpStatus t len => Sys2Proof.Machine.execMbOpStatus t len s
  | .mailboxFrameRelease lane => Sys2Proof.Machine.execMailboxFrameRelease lane s
  | .mailboxGapTimeout lane => Sys2Proof.Machine.execMailboxGapTimeout lane s
  | .wrdiSend lane => Sys2Proof.Machine.execWrdiSend lane s
  | .flashStatusPoll lane chip sr => Sys2Proof.Machine.execFlashStatusPoll lane chip sr s
  | .tableRewrite lane => Sys2Proof.Machine.execTableRewrite lane s
  | .shadowHashResume lane => Sys2Proof.Machine.execShadowHashResume lane s
  | .spareTakeoverComplete lane => Sys2Proof.Machine.execSpareTakeoverComplete lane s
  | .ruleSetSwap lane => Sys2Proof.Machine.execRuleSetSwap lane s
  | .leafHashComplete lane => Sys2Proof.Machine.execLeafHashComplete lane s
  | .pageInComplete lane region page fileA fileB leaves faultLeaves => Sys2Proof.Machine.execPageInComplete lane region page fileA fileB leaves faultLeaves s
  | .partialTimeout lane tracker => Sys2Proof.Machine.execPartialTimeout lane tracker s
  | .trackerFillComplete lane tracker leafBytes readFault => Sys2Proof.Machine.execTrackerFillComplete lane tracker leafBytes readFault s
  | .flashCheck lane leafBytes readFault => Sys2Proof.Machine.execFlashCheck lane leafBytes readFault s
  | .confirmationReads lane read1 read2 readFault => Sys2Proof.Machine.execConfirmationReads lane read1 read2 readFault s
  | .claimEffect res capable => Sys2Proof.Machine.execClaimEffect res capable s
  | .claimRelease res => Sys2Proof.Machine.execClaimRelease res s
  | .mirrorFill lane region leaf leafBytes fromReservoir readFault => Sys2Proof.Machine.execMirrorFill lane region leaf leafBytes fromReservoir readFault s
  | .holdAutoRelease host => Sys2Proof.Machine.execHoldAutoRelease host s
  | .trackerDrainComplete lane => Sys2Proof.Machine.execTrackerDrainComplete lane s
  | .scrub lane leafBytes readFault => Sys2Proof.Machine.execScrub lane leafBytes readFault s
  | .scrubOverrun lane => Sys2Proof.Machine.execScrubOverrun lane s
  | .virundEnter lane chip => Sys2Proof.Machine.execVirundEnter lane chip s
  | .virundExit lane chip => Sys2Proof.Machine.execVirundExit lane chip s
  | .por vsel mbAddr pullMaster => Sys2Proof.Machine.execPor vsel mbAddr pullMaster s
  | .romextOverrun => Sys2Proof.Machine.execRomextOverrun s
  | .headwaterPeerRequest => Sys2Proof.Machine.execHeadwaterPeerRequest s
  | .headwaterOfferWindowEnd => Sys2Proof.Machine.execHeadwaterOfferWindowEnd s
  | .firmwareStart failing reachesStarted => Sys2Proof.Machine.execFirmwareStart failing reachesStarted s
  | .startWatchdog => Sys2Proof.Machine.execStartWatchdog s
  | .aliasCertsSigned retry => Sys2Proof.Machine.execAliasCertsSigned retry s
  | .platformVerifyAcceptance lane chipAbsent0 chipAbsent1 flash0 flash1 => Sys2Proof.Machine.execPlatformVerifyAcceptance lane chipAbsent0 chipAbsent1 flash0 flash1 s
  | .regionRootCompare lane region e => Sys2Proof.Machine.execRegionRootCompare lane region e s
  | .platformVerifyEnd lane => Sys2Proof.Machine.execPlatformVerifyEnd lane s
  | .platformVerifyTimeout lane => Sys2Proof.Machine.execPlatformVerifyTimeout lane s
  | .leafRepair lane region leaf source readBack readBack2 erase4k => Sys2Proof.Machine.execLeafRepair lane region leaf source readBack readBack2 erase4k s
  | .seqStepStart c => Sys2Proof.Machine.execSeqStepStart c s
  | .assert c => Sys2Proof.Machine.execAssert c s
  | .deassert c => Sys2Proof.Machine.execDeassert c s
  | .pulse c => Sys2Proof.Machine.execPulse c s
  | .pulseEnd pin => Sys2Proof.Machine.execPulseEnd pin s
  | .delay c => Sys2Proof.Machine.execDelay c s
  | .delayEnd c => Sys2Proof.Machine.execDelayEnd c s
  | .waitPg c => Sys2Proof.Machine.execWaitPg c s
  | .waitPgMet c seen => Sys2Proof.Machine.execWaitPgMet c seen s
  | .waitPgTimeout c => Sys2Proof.Machine.execWaitPgTimeout c s
  | .waitIn c => Sys2Proof.Machine.execWaitIn c s
  | .waitInMet c ticks => Sys2Proof.Machine.execWaitInMet c ticks s
  | .waitInTimeout c => Sys2Proof.Machine.execWaitInTimeout c s
  | .ifPresent c present => Sys2Proof.Machine.execIfPresent c present s
  | .releaseHost c good => Sys2Proof.Machine.execReleaseHost c good s
  | .platSync c => Sys2Proof.Machine.execPlatSync c s
  | .platSyncReleased => Sys2Proof.Machine.execPlatSyncReleased s
  | .platSyncTimeout => Sys2Proof.Machine.execPlatSyncTimeout s
  | .supervisedFailure src seen => Sys2Proof.Machine.execSupervisedFailure src seen s
  | .takeDownStep c => Sys2Proof.Machine.execTakeDownStep c s
  | .cycleReassert pin seen => Sys2Proof.Machine.execCycleReassert pin seen s
  | .hostBringUp host => Sys2Proof.Machine.execHostBringUp host s
  | .platformRestart => Sys2Proof.Machine.execPlatformRestart s
  | .brownOut => Sys2Proof.Machine.execBrownOut s
  | .brownOutRecovery => Sys2Proof.Machine.execBrownOutRecovery s
  | .vsbLoss => Sys2Proof.Machine.execVsbLoss s
  | .backupEntry => Sys2Proof.Machine.execBackupEntry s
  | .backupLoss => Sys2Proof.Machine.execBackupLoss s
  | .platFollowEvent => Sys2Proof.Machine.execPlatFollowEvent s
  | .platHoldHigh => Sys2Proof.Machine.execPlatHoldHigh s
  | .startInput k ticks => Sys2Proof.Machine.execStartInput k ticks s
  | .idleEntry => Sys2Proof.Machine.execIdleEntry s
  | .idleWake => Sys2Proof.Machine.execIdleWake s
  | .autoRetain => Sys2Proof.Machine.execAutoRetain s
  | .retainWake w => Sys2Proof.Machine.execRetainWake w s
  | .deepAfterExpiry => Sys2Proof.Machine.execDeepAfterExpiry s
  | .deepWake w => Sys2Proof.Machine.execDeepWake w s
  | .enginePowerDown e => Sys2Proof.Machine.execEnginePowerDown e s
  | .updateLockIdle target => Sys2Proof.Machine.execUpdateLockIdle target s
  | .updateRootCheck lane window => Sys2Proof.Machine.execUpdateRootCheck lane window s
  | .landingComplete lane window readBack => Sys2Proof.Machine.execLandingComplete lane window readBack s
  | .gatedSessionCommit target => Sys2Proof.Machine.execGatedSessionCommit target s
  | .activationPreflipCheck lane window readBack => Sys2Proof.Machine.execActivationPreflipCheck lane window readBack s
  | .prestage lane window readBack => Sys2Proof.Machine.execPrestage lane window readBack s
  | .activationFlip lane window => Sys2Proof.Machine.execActivationFlip lane window s
  | .counterRaise lane window => Sys2Proof.Machine.execCounterRaise lane window s
  | .follow lane window readBack => Sys2Proof.Machine.execFollow lane window readBack s
  | .activationPauseEnd => Sys2Proof.Machine.execActivationPauseEnd s
  | .reservoirRefresh res readBack => Sys2Proof.Machine.execReservoirRefresh res readBack s
  | .slotPresent slot presence => Sys2Proof.Machine.execSlotPresent slot presence s
  | .slotPoll slot answers presence => Sys2Proof.Machine.execSlotPoll slot answers presence s
  | .slotAbsent slot => Sys2Proof.Machine.execSlotAbsent slot s
  | .attestationResponse slot answer => Sys2Proof.Machine.execAttestationResponse slot answer s
  | .attestationTimeout slot => Sys2Proof.Machine.execAttestationTimeout slot s
  | .attestationVerdict slot chain sigOk => Sys2Proof.Machine.execAttestationVerdict slot chain sigOk s
  | .attestRetry slot => Sys2Proof.Machine.execAttestRetry slot s
  | .reattest slot => Sys2Proof.Machine.execReattest slot s
  | .discoveryNotify slot => Sys2Proof.Machine.execDiscoveryNotify slot s
  | .quotaAnswer slot granted leaseId leaseTime => Sys2Proof.Machine.execQuotaAnswer slot granted leaseId leaseTime s
  | .quotaClaimRetry slot => Sys2Proof.Machine.execQuotaClaimRetry slot s
  | .leaseRenew slot acknowledged => Sys2Proof.Machine.execLeaseRenew slot acknowledged s
  | .leaseEnd slot => Sys2Proof.Machine.execLeaseEnd slot s
  | .leaseReclaim leaseId => Sys2Proof.Machine.execLeaseReclaim leaseId s
  | .spdmGetVersion r => Sys2Proof.Machine.execSpdmGetVersion r s
  | .spdmGetCapabilities r => Sys2Proof.Machine.execSpdmGetCapabilities r s
  | .spdmNegotiateAlgorithms r => Sys2Proof.Machine.execSpdmNegotiateAlgorithms r s
  | .spdmGetDigests r => Sys2Proof.Machine.execSpdmGetDigests r s
  | .spdmGetCertificate r => Sys2Proof.Machine.execSpdmGetCertificate r s
  | .spdmChallenge r => Sys2Proof.Machine.execSpdmChallenge r s
  | .spdmGetMeasurements r => Sys2Proof.Machine.execSpdmGetMeasurements r s
  | .jobDispatch e => Sys2Proof.Machine.execJobDispatch e s
  | .riffleJobEnd eng delivered inner => Sys2Proof.Machine.execRiffleJobEnd eng delivered inner s
  | .mandrelJobEnd m invariantCheck => Sys2Proof.Machine.execMandrelJobEnd m invariantCheck s
  | .checkedWipeEnd m readBackOk => Sys2Proof.Machine.execCheckedWipeEnd m readBackOk s
  | .keyResidencyTimeout m => Sys2Proof.Machine.execKeyResidencyTimeout m s
  | .digestSessionTimeout session => Sys2Proof.Machine.execDigestSessionTimeout session s
  | .rifflePeriodicKat eng failedTest => Sys2Proof.Machine.execRifflePeriodicKat eng failedTest s
  | .stolikRequestRelease port => Sys2Proof.Machine.execStolikRequestRelease port s
  | .stolikInvalidFrame port frame integrityCheck => Sys2Proof.Machine.execStolikInvalidFrame port frame integrityCheck s
  | .getIdentity r => Sys2Proof.Machine.execGetIdentity r s
  | .getStatus r => Sys2Proof.Machine.execGetStatus r s
  | .getChallenge r => Sys2Proof.Machine.execGetChallenge r s
  | .challengeExpiry => Sys2Proof.Machine.execChallengeExpiry s
  | .diagRead r => Sys2Proof.Machine.execDiagRead r s
  | .getOpStatus r => Sys2Proof.Machine.execGetOpStatus r s
  | .opRecordExpiry => Sys2Proof.Machine.execOpRecordExpiry s
  | .putStructureHostManifest r => Sys2Proof.Machine.execPutStructureHostManifest r s
  | .putStructureLanePolicy r => Sys2Proof.Machine.execPutStructureLanePolicy r s
  | .putStructurePlatformPolicy r => Sys2Proof.Machine.execPutStructurePlatformPolicy r s
  | .putStructureAdmissionPolicy r => Sys2Proof.Machine.execPutStructureAdmissionPolicy r s
  | .structureUploadTimeout port => Sys2Proof.Machine.execStructureUploadTimeout port s
  | .getStructure r => Sys2Proof.Machine.execGetStructure r s
  | .setConfig r => Sys2Proof.Machine.execSetConfig r s
  | .getConfig r => Sys2Proof.Machine.execGetConfig r s
  | .updateBegin r => Sys2Proof.Machine.execUpdateBegin r s
  | .updateChunk r => Sys2Proof.Machine.execUpdateChunk r s
  | .updateEnd r => Sys2Proof.Machine.execUpdateEnd r s
  | .updateAbort r => Sys2Proof.Machine.execUpdateAbort r s
  | .activateHostImage r => Sys2Proof.Machine.execActivateHostImage r s
  | .activateComponent r => Sys2Proof.Machine.execActivateComponent r s
  | .discardStaged r => Sys2Proof.Machine.execDiscardStaged r s
  | .repairLane r => Sys2Proof.Machine.execRepairLane r s
  | .getUpdateStatus r => Sys2Proof.Machine.execGetUpdateStatus r s
  | .stageStatus r => Sys2Proof.Machine.execStageStatus r s
  | .stageDigest r => Sys2Proof.Machine.execStageDigest r s
  | .getCertificates r => Sys2Proof.Machine.execGetCertificates r s
  | .getAdmission r => Sys2Proof.Machine.execGetAdmission r s
  | .getToken r => Sys2Proof.Machine.execGetToken r s
  | .getEvidence r => Sys2Proof.Machine.execGetEvidence r s
  | .heldObjectExpiry => Sys2Proof.Machine.execHeldObjectExpiry s
  | .slotQuarantine r => Sys2Proof.Machine.execSlotQuarantine r s
  | .slotRelease r => Sys2Proof.Machine.execSlotRelease r s
  | .slotReattest r => Sys2Proof.Machine.execSlotReattest r s
  | .quotaClaim r => Sys2Proof.Machine.execQuotaClaim r s
  | .quotaRenew r => Sys2Proof.Machine.execQuotaRenew r s
  | .quotaRelease r => Sys2Proof.Machine.execQuotaRelease r s
  | .digest r => Sys2Proof.Machine.execDigest r s
  | .digestStart r => Sys2Proof.Machine.execDigestStart r s
  | .digestUpdate r => Sys2Proof.Machine.execDigestUpdate r s
  | .digestFinish r => Sys2Proof.Machine.execDigestFinish r s
  | .digestSuspend r => Sys2Proof.Machine.execDigestSuspend r s
  | .digestResume r => Sys2Proof.Machine.execDigestResume r s
  | .ecdsaVerify r => Sys2Proof.Machine.execEcdsaVerify r s
  | .rsaVerify r => Sys2Proof.Machine.execRsaVerify r s
  | .mldsaVerify r => Sys2Proof.Machine.execMldsaVerify r s
  | .getTime r => Sys2Proof.Machine.execGetTime r s
  | .setTime r => Sys2Proof.Machine.execSetTime r s
  | .snapshotCounters r => Sys2Proof.Machine.execSnapshotCounters r s
  | .snapshotCountersFabric r => Sys2Proof.Machine.execSnapshotCountersFabric r s
  | .snapshotCapture => Sys2Proof.Machine.execSnapshotCapture s
  | .snapshotCopy => Sys2Proof.Machine.execSnapshotCopy s
  | .getSnapshot r => Sys2Proof.Machine.execGetSnapshot r s
  | .logRead r => Sys2Proof.Machine.execLogRead r s
  | .logExport r => Sys2Proof.Machine.execLogExport r s
  | .platformPowerStart r => Sys2Proof.Machine.execPlatformPowerStart r s
  | .platformPowerDown r => Sys2Proof.Machine.execPlatformPowerDown r s
  | .platformPowerReset r => Sys2Proof.Machine.execPlatformPowerReset r s
  | .hostHold r => Sys2Proof.Machine.execHostHold r s
  | .hostRelease r => Sys2Proof.Machine.execHostRelease r s
  | .laneDenyAllOn r => Sys2Proof.Machine.execLaneDenyAllOn r s
  | .laneDenyAllOff r => Sys2Proof.Machine.execLaneDenyAllOff r s
  | .laneReset r => Sys2Proof.Machine.execLaneReset r s
  | .powerStateRetain r => Sys2Proof.Machine.execPowerStateRetain r s
  | .powerStateDeep r => Sys2Proof.Machine.execPowerStateDeep r s
  | .wakeTimer => Sys2Proof.Machine.execWakeTimer s
  | .takeOwnership r => Sys2Proof.Machine.execTakeOwnership r s
  | .setAnchorActive r => Sys2Proof.Machine.execSetAnchorActive r s
  | .setAnchorRevoke r => Sys2Proof.Machine.execSetAnchorRevoke r s
  | .raiseCounter r => Sys2Proof.Machine.execRaiseCounter r s
  | .lifecycleTransition r => Sys2Proof.Machine.execLifecycleTransition r s
  | .debugUnlock r => Sys2Proof.Machine.execDebugUnlock r s
  | .weirEvent evs => Sys2Proof.Machine.execWeirEvent evs s
  | .chipReset cause => Sys2Proof.Machine.execChipReset cause s
  | .warmReset => Sys2Proof.Machine.execWarmReset s
  | .rstInN low => Sys2Proof.Machine.execRstInN low s
  | .weirInject word together => Sys2Proof.Machine.execWeirInject word together s
  | .clearTest word => Sys2Proof.Machine.execClearTest word s
  | .pendingClear pending injected => Sys2Proof.Machine.execPendingClear pending injected s
  | .firstErrorClear word => Sys2Proof.Machine.execFirstErrorClear word s
  | .errHoldWrite value => Sys2Proof.Machine.execErrHoldWrite value s
  | .errPulseEnd => Sys2Proof.Machine.execErrPulseEnd s
  | .weirIrqService => Sys2Proof.Machine.execWeirIrqService s
  | .registerWrite reg value => Sys2Proof.Machine.execRegisterWrite reg value s
  | .leveeAlarm c => Sys2Proof.Machine.execLeveeAlarm c s
  | .leveeRelease => Sys2Proof.Machine.execLeveeRelease s
  | .leveeDisagree kind d1Fired => Sys2Proof.Machine.execLeveeDisagree kind d1Fired s
  | .leveePeriodicTest kind d1Fails d2Fails => Sys2Proof.Machine.execLeveePeriodicTest kind d1Fails d2Fails s
  | .leveeBackupAlarm c => Sys2Proof.Machine.execLeveeBackupAlarm c s
  | .vbakLow mv => Sys2Proof.Machine.execVbakLow mv s
  | .leveeAlarmClear word => Sys2Proof.Machine.execLeveeAlarmClear word s
  | .logEntryWrite readBackOk => Sys2Proof.Machine.execLogEntryWrite readBackOk s
  | .timeCheckpoint => Sys2Proof.Machine.execTimeCheckpoint s
  | .patrolScrub m word data check leaf => Sys2Proof.Machine.execPatrolScrub m word data check leaf s
  | .linkSignalDetect k => Sys2Proof.Machine.execLinkSignalDetect k s
  | .linkBlockLock k headers => Sys2Proof.Machine.execLinkBlockLock k headers s
  | .linkTrainingBlock k prev block => Sys2Proof.Machine.execLinkTrainingBlock k prev block s
  | .linkAuthComplete k chain sigOk => Sys2Proof.Machine.execLinkAuthComplete k chain sigOk s
  | .linkTrainTimeout k => Sys2Proof.Machine.execLinkTrainTimeout k s
  | .linkRetrain k => Sys2Proof.Machine.execLinkRetrain k s
  | .linkLockLoss k => Sys2Proof.Machine.execLinkLockLoss k s
  | .linkLeave k => Sys2Proof.Machine.execLinkLeave k s
  | .ack k next => Sys2Proof.Machine.execAck k next s
  | .nak k next => Sys2Proof.Machine.execNak k next s
  | .linkRetryTimeout k => Sys2Proof.Machine.execLinkRetryTimeout k s
  | .announce k m => Sys2Proof.Machine.execAnnounce k m s
  | .announcePeriod => Sys2Proof.Machine.execAnnouncePeriod s
  | .routeExpiry => Sys2Proof.Machine.execRouteExpiry s
  | .routed k h data check => Sys2Proof.Machine.execRouted k h data check s
  | .reassemblyTimeout => Sys2Proof.Machine.execReassemblyTimeout s
  | .relayRequest k src msgId frame => Sys2Proof.Machine.execRelayRequest k src msgId frame s
  | .relayResponse k src msgId frame => Sys2Proof.Machine.execRelayResponse k src msgId frame s
  | .bridgeMessage bus endpoint eid frame => Sys2Proof.Machine.execBridgeMessage bus endpoint eid frame s
  | .bridgeTimeout => Sys2Proof.Machine.execBridgeTimeout s
  | .timeExchange => Sys2Proof.Machine.execTimeExchange s
  | .time k m arrival => Sys2Proof.Machine.execTime k m arrival s
  | .snapSchedule k initiator opId at_ => Sys2Proof.Machine.execSnapSchedule k initiator opId at_ s
  | .snapAck node opId flags => Sys2Proof.Machine.execSnapAck node opId flags s
  | .snapFetch src msgId opId node chunk => Sys2Proof.Machine.execSnapFetch src msgId opId node chunk s
  | .snapData src msgId result total data => Sys2Proof.Machine.execSnapData src msgId result total data s
  | .snapFetchTimeout => Sys2Proof.Machine.execSnapFetchTimeout s
  | .alert src kind detail nodeTime => Sys2Proof.Machine.execAlert src kind detail nodeTime s
  | .recoveryQuery k => Sys2Proof.Machine.execRecoveryQuery k s
  | .recoveryOffer k hsVersion setLength generation manifestLength => Sys2Proof.Machine.execRecoveryOffer k hsVersion setLength generation manifestLength s
  | .recoveryNone k => Sys2Proof.Machine.execRecoveryNone k s
  | .recoveryGet k offset length => Sys2Proof.Machine.execRecoveryGet k offset length s
  | .recoveryData k offset data => Sys2Proof.Machine.execRecoveryData k offset data s
  | .blockResetEnd source unit testPassed => Sys2Proof.Machine.execBlockResetEnd source unit testPassed s
  | .vinWindowEntry => Sys2Proof.Machine.execVinWindowEntry s
  | .vsbWindowReturn => Sys2Proof.Machine.execVsbWindowReturn s
  | .auth k key => Sys2Proof.Machine.execAuth k key s
  | .tapInstruction eng => Sys2Proof.Machine.execTapInstruction eng s
  | .clockLowTimeout bus => Sys2Proof.Machine.execClockLowTimeout bus s
  | .healthTestPass => Sys2Proof.Machine.execHealthTestPass s

end Sys2Proof.Machine
end

