-- ==== Sys2Proof/WellFormed.lean ====
section
/-! DEFINITION. What a command must satisfy to be one that the manual can bring: the codes of R425, and the limits of the
wire formats. The meanings are total, and give every other term a state too. -/
namespace Sys2Proof

/-- The classes and codes that a source reports (R425), UNIT and DETAIL apart. -/
def WeirEv.codeOk (e : WeirEv) : Bool :=
  let s := e.source.val
  let c := e.code.toNat
  let is := fun (x : EvClass) (codes : List Nat) => e.cls == x && codes.contains c
  if s = 62 then c != 0
  else if s = 63 then is .fatal [0x7F]
  else if s = 54 then e.cls != .fatal
  else
    (decide (s ≤ 9) && (is .fatal [1, 2] || is .ucc [3] || is .ce [4]))
    || (decide (s ≤ 7) && (is .ucc [5] || is .fatal [6]))
    || (decide (10 ≤ s ∧ s ≤ 23) && (is .fatal [0x20] || is .ucc [0x21] || is .ce [0x22]))
    || (decide (10 ≤ s ∧ s ≤ 21) && is .ucc [0x23, 0x24])
    || (decide (s = 23 ∨ (40 ≤ s ∧ s ≤ 44)) && (is .ce [0x10] || is .ucc [0x11, 0x12]))
    || (decide (s = 23 ∨ (41 ≤ s ∧ s ≤ 46)) && is .fatal [0x13])
    || (decide (24 ≤ s ∧ s ≤ 39) && (is .ucc [0x30, 0x34] || is .fatal [0x31]))
    || (decide (32 ≤ s ∧ s ≤ 39) && (is .ucc [0x32] || is .fatal [0x33]))
    || (decide (s = 40) && is .fatal [0x40, 0x41])
    || (decide (47 ≤ s ∧ s ≤ 53) && (is .ucc [0x50, 0x51, 0x52] || is .fatal [0x53]))
    || (decide (s = 55) && is .fatal [0x60])
    || (decide (s = 56) && (is .fatal [0x61] || is .ucc [0x62]))
    || (decide (s = 57) && (is .ce [0x63] || is .ucc [0x64]))
    || (decide (s = 58) && is .ucc [0x65])
    || (decide (s = 46) && is .fatal [0x66])
    || (decide (s = 45) && is .fatal [0x67])
    || (decide (s = 59) && (is .ucc [0x70] || is .fatal [0x70]))
    || (decide (s = 60) && is .ucc [0x71])
    || (decide (s = 61) && is .ucc [0x72])

/-- A transaction has a clock (R33). -/
def Txn.wf (t : Txn) : Bool := decide (0 < t.sckKHz)

/-- A detector has fired (R453). -/
def LeveeCond.wf (c : LeveeCond) : Bool := c.d1 || c.d2

/-- The fields of AUTH_KEY have their lengths (R530). -/
def AuthKey.wf (k : AuthKey) : Bool := k.ephPub.length == 96 && k.aOwner.length == 32

/-- Well-formed commands; those not named have no form that their types do not give. -/
def Instr.wf : Instr → Bool
  | .read t _ len _ => t.wf && decide (0 < len)
  | .program t _ data => t.wf && !data.isEmpty
  | .erase t _ blockUnits => t.wf && decide (0 < blockUnits)
  | .mbOpWrite t data => t.wf && !data.isEmpty
  | .weirEvent evs => evs.all (·.codeOk)
  | .weirInject _ together => together.all (·.codeOk)
  | .leveeAlarm c => c.wf
  | .leveeBackupAlarm c => c.wf
  | .announce _ m => decide (m.hops.toNat < 63)
  | .routed _ h data _ => decide (h.hopsLeft.toNat ≤ 63) && decide (data.length ≤ 4084)
  | .recoveryGet _ _ length => decide (length.toNat ≤ 65536)
  | .recoveryData _ _ data => decide (data.length ≤ 4080)
  | .auth _ key => key.wf
  | _ => true

end Sys2Proof
end

