-- ==== Sys2Proof/Safety.lean ====
section
/-! DEFINITION. The terms in which statements about the block are made: that a command completes, that a Stolik request
is admitted and answered, and what every state of the block satisfies. -/
namespace Sys2Proof.Machine
open Sys2Proof

/-- The command ends in a next state, and that state satisfies P. -/
def Completes (i : Instr) (s : State) (P : State → Prop) : Prop := ∃ t, exec i s = .next t ∧ P t

/-- A request as its command sees it (R402). -/
def callOf (r : Req) : Call := ⟨r.port, r.tag, r.payload.drop (cmdOffset r)⟩

/-- Virund serves the request at once as command c, and it passes the checks of R390; ch is the challenge that it uses, if
any (R390, R393, R397, R401). -/
def Admitted (c : Cmd) (r : Req) (s : State) (ch : Option Bytes) : Prop :=
  serviceState c r.port (callOf r).cmd s = .serve ∧ (s.received r.port (reqFrame c r) = true ∨ s.deviceLoad < 1024)
    ∧ headerOk r = true ∧ checkCall c r (callOf r) s = .ok ch

/-- The state in which an admitted request executes: Virund is in RUN (R216), the request waits no longer, the challenge it
uses is closed (R401), and the certificates it came with are recorded (R170). -/
def begun (c : Cmd) (r : Req) (ch : Option Bytes) (s : State) : State := beginCall c r (callOf r) ch s

/-- The latest response is the answer to the request (R387). -/
def Answered (r : Req) (op : Nat) (res : Res) (payload : Bytes) (t : State) : Prop :=
  t.stolik.outbox.head? = some ⟨r.port, BitVec.ofNat 16 op, res, r.tag, payload⟩

/-- A host transaction of a class passes every check that comes before a decision (R33, R41, R49, R105). -/
def Passed (want : OpClass) (t : Txn) (s : State) : Prop := gate want t s = (.pass, s)

/-- Only lane n, and the count of free values drawn, differ between two states. -/
def OnlyLane (n : Fin 8) (s t : State) : Prop :=
  { t with lanes := s.lanes, free := s.free } = s ∧ ∀ k, k ≠ n → t.lane k = s.lane k

/-- Only lane n, the Reservoirs, which follow a claimed lane's reads and modes (R140, R141), and the count of free values
drawn differ between two states. -/
def OnlyLaneRes (n : Fin 8) (s t : State) : Prop :=
  { t with lanes := s.lanes, free := s.free, resA := s.resA, resB := s.resB } = s ∧ ∀ k, k ≠ n → t.lane k = s.lane k

/-- The state in which the Spindle has read a lane's flashes and the Reservoirs' directories can be read (R197, R198). -/
def flashesRead (n : Fin 8) (absent0 absent1 : Bool) (flash0 flash1 : FlashTables) (s : State) : State :=
  let modes := Vector.ofFn fun f : Fin 2 => verifyMode (if f = 0 then flash0.sfdp else flash1.sfdp) (s.flashAt33 n)
  openRes .b (openRes .a (s.modLane n fun l =>
    { l with
      pv := { l.pv with modes := modes }
      chipAbsent := Vector.ofFn fun f : Fin 2 => if f = 0 then absent0 else absent1
      flash := Vector.ofFn fun f : Fin 2 => if f = 0 then flash0 else flash1
      sfdp := true }))

/-- A run of the program stands at an operation of a code, waiting in it or not, and does not pass it by itself (R230,
R237). -/
def Stands (c : SeqCtx) (code : OpCode) (waiting : Bool) (pos : SeqPos) (o : SeqOp) (s : State) : Prop :=
  s.opIs c code waiting = some (pos, o) ∧ ∃ p, s.chuck.policy = some p ∧ settle p c settleFuel pos = some pos

/-- Weir's reactions to an event of a source and class do not reset the chip (R430). -/
def NoChipReset (source : Fin 64) (cls : EvClass) (s : State) : Prop :=
  (s.reactionsOf ⟨source, cls, 0, 0, 0⟩).getLsbD 3 = false

/-- The ring-log queue is empty and owes no LOG_DROPPED (R476). -/
def LogRoom (s : State) : Prop := s.nvm.log.queue = [] ∧ s.nvm.log.drops = []

/-- Some entry of a type waits in the ring-log queue with the present time (R472, R476). -/
def Logged (type : Nat) (t : State) : Prop := ∃ q ∈ t.nvm.log.queue, q.type = BitVec.ofNat 16 type ∧ q.time = t.time

/-- Every host is held in reset (R16). -/
def AllHeld (t : State) : Prop := ∀ h : Fin 16, (t.host h).resetAsserted = true

/-- A job for a request stands last in the queue of Confluence (R321, R328). -/
def Submitted (r : Req) (op : Nat) (w : JobWork) (s t : State) : Prop :=
  ∃ j, t.conf.queue = s.conf.queue ++ [j] ∧ j.cls = 3 ∧ j.port = some r.port ∧ j.tag = r.tag ∧
    j.opcode = BitVec.ofNat 16 op ∧ j.work = w ∧ (r.port, r.tag) ∈ t.stolik.inFlight

/-- A token that a slot held is revoked (R303). -/
def Revoked (i : Fin 1024) (s t : State) : Prop := (s.slot i).token ≠ [] → (s.slot i).tokenSerial < (t.slot i).tokenFloor

/-- Virund sends a component a message (R298, R299). -/
def SentTo (c : SlotCfg) (m : CtrlMsg) (t : State) : Prop := (t.buses[(Fin.ofNat 16 c.bus : Fin 16)]).ctrlOut = some (c.address, m)

/-- The checks of the commands whose rows differ in what they do alone. -/
def cmdSlotAny (op : Nat) : Cmd := cmdSlot op fun _ _ s => s
def cmdSnapshotAny : Cmd := cmdSnapshot fun _ s => s
def cmdPowerAny : Cmd := cmdPlatformPower fun _ s => s

/-- The scopes of the Levee kinds that cannot be configured are those of R454, the backup log buffer holds at most 63 entries
(R465), and the ring log at most 65,536 (R472). -/
structure State.Inv (s : State) : Prop where
  scopes : ∀ k : Fin 12, scopeConfigurable k = false → (s.levee.kinds[k]).scope = (LeveeKind.reset k.val).scope
  buffer : s.backup.buffer.length ≤ backupEntries
  entries : s.nvm.log.entries.length ≤ logSlots

/-- What no command takes back: the counters of the firmware anchors (R176), and burned fuses (R494). -/
structure OneWay (s t : State) : Prop where
  counters : ∀ k : Fin 256, k.val < 16 → (s.nvm.counters[k]).toNat ≤ (t.nvm.counters[k]).toNat
  deployed : s.fuses.deployed = true → t.fuses.deployed = true
  returned : s.fuses.returned = true → t.fuses.returned = true
  scrapped : s.fuses.scrapped = true → t.fuses.scrapped = true
  destroyed : s.fuses.udsDestroyed = true → t.fuses.udsDestroyed = true

/-- PUT_STRUCTURE up to LAST, which does not depend on the kind. -/
def cmdPutAny : Cmd := cmdPut fun _ _ s => s

end Sys2Proof.Machine
end

