-- ==== Sys2Proof/Certificates/Slice0/Obligations.lean ====
section
/-! DEFINITION. The statements for the provers. `Completes i s P` says that the command i ends in a next state of which P
holds; `Admitted`, `begun` and `Answered` speak of Stolik requests (Safety). -/
open Sys2Proof Sys2Proof.Machine

/-! ### Stolik: identity, status, challenges, operations, time (R401, R404, R406, R416, R417) -/

/-- GET_IDENTITY, GET_STATUS, DIAG_READ and GET_TIME answer DONE with the payload of R406, R407 and R416: identity and status as
the fields of State give them, a diagnostic region's size and the part asked for, device time with its source. SET_TIME sets
device time and SOURCE 1, and is refused with DENIED_POLICY, the time unchanged, where the new time lies before the present one or
the device follows fabric time (R416, R417, R545). -/
def Obligations.identityAndTimeCommands : Prop :=
  ∀ (r : Req) (s : State) (ch : Option Bytes),
    (Admitted cmdIdentity r s ch → Completes (.getIdentity r) s fun t =>
      Answered r 0x0101 .done (identityBytes s) t ∧ t.nvm = s.nvm ∧ t.lc = s.lc) ∧
    (Admitted cmdStatus r s ch → Completes (.getStatus r) s fun t =>
      Answered r 0x0102 .done (statusBytes (begun cmdStatus r ch s)) t ∧ t.nvm = s.nvm ∧ t.weir = s.weir) ∧
    (Admitted cmdDiagRead r s ch → Completes (.diagRead r) s fun t =>
      let u := begun cmdDiagRead r ch s
      let cmd := (callOf r).cmd
      ∃ b, diagRegion u (u16 cmd 0) = some b ∧
        Answered r 0x0104 .done (leBytes 4 b.length ++ zeros 4 ++ slice b (u32 cmd 4) (u32 cmd 8)) t ∧ t.nvm = s.nvm) ∧
    (Admitted cmdGetTime r s ch → Completes (.getTime r) s fun t =>
      Answered r 0x0601 .done (leBytes 8 s.time ++ [BitVec.ofNat 8 s.sourceNow] ++ zeros 7) t ∧ t.time = s.time) ∧
    (Admitted cmdSetTime r s ch → setTimeRefused s (u64 (callOf r).cmd 0) = false → Completes (.setTime r) s fun t =>
      Answered r 0x0602 .done [] t ∧ t.time = u64 (callOf r).cmd 0 ∧ t.timeSource = 1 ∧ t.nvm = s.nvm) ∧
    (Admitted cmdSetTime r s ch → setTimeRefused s (u64 (callOf r).cmd 0) = true → Completes (.setTime r) s fun t =>
      Answered r 0x0602 .deniedPolicy [] t ∧ t.time = s.time ∧ t.timeSource = s.timeSource)

/-- A challenge is 32 bytes from the entropy source, closes 3,600 s after issue, and the 65th takes the place of the oldest; an
operation is reported until 600 s after its end, and an unknown one is answered ABORTED (R401, R404, R406). -/
def Obligations.challengesAndOperations : Prop :=
  ∀ (r : Req) (s : State) (ch : Option Bytes),
    (Admitted cmdChallenge r s ch → Completes (.getChallenge r) s fun t =>
      let u := begun cmdChallenge r ch s
      let v := (List.range 32).map fun k => Config.freeByte (s.free + k)
      let l := u.stolik.challenges ++ [⟨v, s.time + challengeLife⟩]
      Answered r 0x0103 .done (v ++ leBytes 8 (s.time + challengeLife)) t ∧
        t.stolik.challenges = l.drop (l.length - 64)) ∧
    (Completes .challengeExpiry s fun t =>
      (∀ c ∈ t.stolik.challenges, s.time < c.expires) ∧
        (∀ c ∈ s.stolik.challenges, s.time < c.expires → c ∈ t.stolik.challenges)) ∧
    (Admitted cmdOpStatus r s ch → Completes (.getOpStatus r) s fun t =>
      match s.stolik.ops.find? fun o => o.id.toNat == u32 (callOf r).cmd 0 with
      | none => Answered r 0x0105 .aborted [] t
      | some o => ∃ st res d, (o.ended = true → st = 1 ∧ res = resCode o.result ∧ d = o.detail.toNat) ∧
          (o.ended = false → st = 0) ∧
          Answered r 0x0105 .done (leBytes 4 o.id.toNat ++ leBytes 2 st ++ leBytes 2 res ++ leBytes 4 d
            ++ leBytes 4 o.progress.toNat) t) ∧
    (Completes .opRecordExpiry s fun t =>
      ∀ o, o ∈ t.stolik.ops ↔ o ∈ s.stolik.ops ∧ ¬ (o.ended = true ∧ o.endedAt + 600 * nsPerSec ≤ s.time))

/-! ### Stolik: structures and configuration records (R283, R408, R409, R512) -/

/-- PUT_STRUCTURE, while it continues no upload, is answered ABORTED and closes the port's upload; a chunk before LAST is kept in
the port's upload and answered DONE, for each kind (R409). -/
def Obligations.putStructureCollectsChunks : Prop :=
  ∀ (r : Req) (s : State) (ch : Option Bytes),
    let cmd := (callOf r).cmd
    let u := begun cmdPutAny r ch s
    let i : Option Instr := match putKind cmd with
      | 1 => some (.putStructureHostManifest r)
      | 2 => some (.putStructureLanePolicy r)
      | 3 => some (.putStructurePlatformPolicy r)
      | 4 => some (.putStructureAdmissionPolicy r)
      | _ => none
    ∀ c, i = some c → putKnown cmd = true → Admitted cmdPutAny r s ch →
      (u.continues r.port cmd = none → Completes c s fun t =>
        Answered r 0x0201 .aborted [] t ∧ ∀ x ∈ t.stolik.uploads, x.port ≠ r.port) ∧
      (∀ d, u.continues r.port cmd = some d → putLast cmd = false → Completes c s fun t =>
        Answered r 0x0201 .done [] t ∧
          (t.uploadOf r.port).map (·.data) = some (d ++ putData cmd) ∧ t.nvm.platform = s.nvm.platform)

/-- GET_STRUCTURE answers DONE with the length of the active structure and the part from OFFSET on, at most 61,440 bytes;
GET_CONFIG answers with the schema, the STATE and the record, and with the default and STATE 1 where it was never written; neither
changes the stores (R405, R408, R512). -/
def Obligations.storedStructuresAreRead : Prop :=
  ∀ (r : Req) (s : State) (ch : Option Bytes),
    let cmd := (callOf r).cmd
    (Admitted cmdGetStructure r s ch → Completes (.getStructure r) s fun t =>
      let b := activeStructure s (u8 cmd 0) (u8 cmd 1)
      Answered r 0x0202 .done (leBytes 4 b.length ++ zeros 4 ++ slice b (u32 cmd 4) 61440) t ∧ t.nvm = s.nvm) ∧
    (Admitted cmdGetConfig r s ch → Completes (.getConfig r) s fun t =>
      t.nvm = s.nvm ∧
      match recordIx cmd with
      | none => Answered r 0x0204 .deniedPolicy [] t
      | some i =>
        match s.nvm.records[i] with
        | none => Answered r 0x0204 .done (leBytes 2 schemaCur ++ leBytes 2 1 ++ leBytes 4 (defaultRecord s i).length
            ++ defaultRecord s i) t
        | some x => Answered r 0x0204 .done (leBytes 2 x.schema.toNat
            ++ leBytes 2 (if s.stolik.keptUnused.contains i then 2 else 0) ++ leBytes 4 x.data.length ++ x.data) t)

/-- SET_CONFIG stores an acceptable record under SCHEMA_CUR, which clears its defaulted and kept-unused marks, and refuses the
others with INCOMPATIBLE or DENIED_POLICY and no change of the store; the settings in force stay (R283, R408, R513). -/
def Obligations.setConfigStoresRecord : Prop :=
  ∀ (r : Req) (s : State) (ch : Option Bytes) (i : Fin 4), Admitted cmdSetConfig r s ch →
    let cmd := (callOf r).cmd
    let d := cmd.drop 8
    recordIx cmd = some i →
    (u16 cmd 2 ≠ schemaCur → Completes (.setConfig r) s fun t =>
      Answered r 0x0203 .incompatible [] t ∧ t.nvm = s.nvm) ∧
    (u16 cmd 2 = schemaCur → 4096 < d.length ∨ recordOk s i d = false → Completes (.setConfig r) s fun t =>
      Answered r 0x0203 .deniedPolicy [] t ∧ t.nvm = s.nvm) ∧
    (u16 cmd 2 = schemaCur → d.length ≤ 4096 → recordOk s i d = true → Completes (.setConfig r) s fun t =>
      Answered r 0x0203 .done [] t ∧ t.nvm.records[i] = some ⟨BitVec.ofNat 16 schemaCur, d⟩ ∧
        t.stolik.defaulted.contains i = false ∧ t.stolik.keptUnused.contains i = false ∧ t.weir = s.weir ∧
        t.levee = s.levee ∧ t.buses = s.buses)

/-! ### Host transactions (R26 to R71, R86 to R100, R597) -/

/-- READ within one unit on a chip in HOST, with no fault met: a unit in READ or OPEN, or of a verified leaf, is served with the
flash's bytes, a mirrored one with its verified copy, a redirected one with the claimed Reservoir's bytes, and one whose source is
POISON with the poison block of its reason at the lane address; the read is forwarded to the flash at the byte that the remap
windows give, with the mode bits 0xFF, and its rule counts one hit; the bytes of a leaf are captured in a tracker (R36, R47, R52,
R55, R88, R95, R119, R121, R133). -/
def Obligations.readServesOneUnit : Prop :=
  ∀ (t : Txn) (addr : Word) (len : Nat) (e : ReadEnv) (s : State),
    let l := s.lane t.lane
    let h := hostAddr l t addr
    let u := mergeUnit l.cfg t.cs (h / 4096)
    let sent := FpAct.forwarded .read t.op (some ((s.flashOf t.lane u).1, (s.flashOf t.lane u).2 * 4096 + h % 4096)) (some 0xFF) []
    Passed .read t s → 0 < len → h % 4096 + len ≤ 4096 → h / 4096 < reachUnits l t → l.drives = true → s.chuck.power = .run →
    (l.chips[(s.flashOf t.lane u).1]).st = .host → l.trackersFree = true → e.disagreeUnit = none → e.tableErrUnit = none →
    e.frontEndUnit = none → e.mirrorUceByte = none → e.strobeFaultByte = none →
    (s.unitSource t.lane u = .flash → Completes (.read t addr len e) s fun x =>
      (x.lane t.lane).rsp = some (padTo (e.flash.take len) len) ∧ (x.lane t.lane).fp = sent ∧
        (x.lane t.lane).hits = (countHit u l).hits ∧ OnlyLaneRes t.lane s x) ∧
    (s.unitSource t.lane u = .mirror → Completes (.read t addr len e) s fun x =>
      (x.lane t.lane).rsp = some (s.mirrorBytes t.lane u (h % 4096) len) ∧ (x.lane t.lane).fp = sent ∧
        (x.lane t.lane).hits = (countHit u l).hits ∧ OnlyLaneRes t.lane s x) ∧
    (∀ y, s.unitSource t.lane u = .reservoir y → Completes (.read t addr len e) s fun x =>
      (x.lane t.lane).rsp = some (padTo (e.reservoir.take len) len) ∧ (x.lane t.lane).fp = sent ∧
        (x.lane t.lane).hits = (countHit u l).hits ∧
        (x.lane t.lane).counts.redirectUnits = inc48 l.counts.redirectUnits ∧ OnlyLaneRes t.lane s x) ∧
    (∀ r, s.unitSource t.lane u = .poison r → Completes (.read t addr len e) s fun x =>
      (x.lane t.lane).rsp = some (poison t.lane r (laneAddr l t.cs h) len) ∧ (x.lane t.lane).fp = sent ∧
        x.chuck = s.chuck ∧ x.mirror = s.mirror ∧ x.weir = s.weir) ∧
    (∀ r m, s.unitSource t.lane u = .flash → s.unitLeaf t.lane u = some r → l.manifest = some m → l.hashing = true →
      Completes (.read t addr len e) s fun x => ∃ k : Fin 64,
        ((x.lane t.lane).trackers[k]).ref = r ∧ ((x.lane t.lane).trackers[k]).st ≠ .free ∧
          ((x.lane t.lane).trackers[k]).lastCapture = s.tick ∧
          ((x.lane t.lane).trackers[k]).data = coverNew [] ((u - leafBase m r) * 4096 + h % 4096) (e.flash.take len))

/-- READ_SFDP answers from the synthesised image of its chip select, and is refused where the lane has none; READ_ID answers
JEDEC_ID, or three bytes of the flash's own where it is all zeros, and then zeros; READ_STATUS shows the primary flash's register
with WIP and WEL from the shadows, which follow it at opcode 0x05, and shows a chip in VIRUND by its shadow alone. The first two
drive nothing to the flash, and none changes anything but the lane and what it draws (R34, R35, R59, R63, R66, R600). -/
def Obligations.readingHostCommands : Prop :=
  ∀ (t : Txn) (addr : Word) (len : Nat) (sr0 sr1 : Byte) (s : State),
    let l := s.lane t.lane
    let p := primaryFlash l.cfg t.cs
    let sr := if p = 0 then sr0 else sr1
    let reach := s.reachList t.lane t.cs
    let quiet := fun (b : Bytes) (x : State) =>
      (x.lane t.lane).rsp = some b ∧ (x.lane t.lane).fp = .idle ∧ (x.lane t.lane).chips = l.chips ∧ OnlyLane t.lane s x
    (Passed .sfdp t s → l.hasImage t.cs = true → Completes (.readSfdp t addr len) s
      (quiet (sfdpRead (sfdpImage (l.tables t.cs) l.cfg t.cs) addr.toNat len))) ∧
    (Passed .sfdp t s → l.hasImage t.cs = false → Completes (.readSfdp t addr len) s fun x =>
      (x.lane t.lane).rsp = some (poison t.lane 0x02 addr.toNat len) ∧ (x.lane t.lane).chips = l.chips ∧ OnlyLane t.lane s x) ∧
    (Passed .ident t s → allZero l.cfg.jedec = false → Completes (.readId t len) s
      (quiet (padTo (l.cfg.jedec.take len) len))) ∧
    (Passed .ident t s → allZero l.cfg.jedec = true → 0 < l.cfg.flash0 → Completes (.readId t len) s
      (quiet (padTo ((drawBytes 3 s).1.take len) len))) ∧
    (Passed .status t s → (l.chips[p]).st ≠ .virund → Completes (.readStatus t len sr0 sr1) s fun x =>
      let c := fun (f : Fin 2) => (x.lane t.lane).chips[f]
      (∀ f, c f = if f = p ∧ t.op = 0x05 then statusSeen sr (l.chips[f]) else l.chips[f]) ∧
        (∃ v : Byte, (x.lane t.lane).rsp = some (List.replicate len v) ∧ v &&& 0xFC = sr &&& 0xFC ∧
          v.getLsbD 0 = reach.any (fun f => (c f).wip) ∧ v.getLsbD 1 = (!reach.isEmpty && reach.all fun f => (c f).wel)) ∧
        OnlyLane t.lane s x) ∧
    (Passed .status t s → (l.chips[p]).st = .virund → Completes (.readStatus t len sr0 sr1) s fun x =>
      (∃ v : Byte, (x.lane t.lane).rsp = some (List.replicate len v) ∧ v &&& 0xFC = 0 ∧
        v.getLsbD 0 = reach.any (fun f => (l.chips[f]).wip) ∧ v.getLsbD 1 = (!reach.isEmpty && reach.all fun f => (l.chips[f]).wel)) ∧
        (x.lane t.lane).fp = .idle ∧ (x.lane t.lane).chips = l.chips ∧ OnlyLane t.lane s x)

/-- WRITE_ENABLE sets or clears WEL in the shadow of every chip that the host chip select reaches where none is busy, and is sent
to those that are not in VIRUND; ADDRESS_MODE is sent to every reached chip and switches the lane's address width; RESET leaves
every reached chip HOST_BUSY until the lane has written its configuration back, which RESET_CONFIG_RESTORE does, and returns the
chip select to its power-on mode; a WRITE_CONFIG of a mode-switch sequence is forwarded whole, leaves the reached chips HOST_BUSY,
and switches the mode at the sequence's last command; one that continues no sequence is refused, clears WEL and owes a WRDI (R35,
R37, R38, R46, R63, R66, R600). -/
def Obligations.configuringHostCommands : Prop :=
  ∀ (t : Txn) (s : State) (data : Bytes) (q : List Bytes) (m : Proto) (n : Fin 8) (f : Fin 2),
    let l := s.lane t.lane
    let reach := s.reachList t.lane t.cs
    let cmd := t.op :: data
    (Passed .writeEnable t s → s.reachIn t.lane t.cs .hostBusy = [] → Completes (.writeEnable t) s fun x =>
      (∀ k : Fin 2, (x.lane t.lane).chips[k] =
          { l.chips[k] with wel := if reach.contains k then t.op == 0x06 else (l.chips[k]).wel }) ∧
        (x.lane t.lane).rsp = some [] ∧ (x.lane t.lane).fp = castAct l t.op (s.sendList t) [] ∧ OnlyLane t.lane s x) ∧
    (Passed .addrMode t s → allHost t s = true → Completes (.addressMode t) s fun x =>
      ((x.lane t.lane).addr4[t.cs]) = (t.op == 0xB7) ∧ (x.lane t.lane).fp = castAct l t.op reach [] ∧
        (x.lane t.lane).chips = l.chips ∧ OnlyLaneRes t.lane s x) ∧
    (Passed .reset t s → allHost t s = true → Completes (.reset t) s fun x =>
      (∀ k : Fin 2, reach.contains k = true →
        ((x.lane t.lane).chips[k]).st = .hostBusy ∧ ((x.lane t.lane).chips[k]).restorePending = true) ∧
        ((x.lane t.lane).mode[t.cs]) = (l.powerOn[primaryFlash l.cfg t.cs]).1 ∧
        ((x.lane t.lane).addr4[t.cs]) = (l.powerOn[primaryFlash l.cfg t.cs]).2 ∧
        (x.lane t.lane).fp = castAct l t.op reach [] ∧ OnlyLaneRes t.lane s x) ∧
    (Completes (.resetConfigRestore n f) s fun x =>
      (x.lane n).chips[f] = { (s.lane n).chips[f] with restorePending := false } ∧ OnlyLane n s x) ∧
    (Passed .config t s → allHost t s = true → configMatch l t.cs cmd = some (q, m) → Completes (.writeConfig t data) s fun x =>
      (∀ k : Fin 2, reach.contains k = true → ((x.lane t.lane).chips[k]).st = .hostBusy) ∧
        (x.lane t.lane).rsp = some [] ∧ (x.lane t.lane).fp = castAct l t.op reach data ∧
        (l.switchSeen[t.cs] ++ [cmd] = q → (x.lane t.lane).mode[t.cs] = m) ∧
        ((l.switchSeen[t.cs] ++ [cmd]).isPrefixOf q = true → l.switchSeen[t.cs] ++ [cmd] ≠ q →
          (x.lane t.lane).mode = l.mode ∧ (x.lane t.lane).switchSeen[t.cs] = l.switchSeen[t.cs] ++ [cmd]) ∧
        OnlyLaneRes t.lane s x) ∧
    (Passed .config t s → allHost t s = true → configMatch l t.cs cmd = none → Completes (.writeConfig t data) s fun x =>
      (∀ k : Fin 2, reach.contains k = true → ((x.lane t.lane).chips[k]).wel = false) ∧
        (l.drives = true → ∀ k : Fin 2, reach.contains k = true → (x.lane t.lane).wrdi.contains k = true) ∧
        (x.lane t.lane).rsp = some [] ∧ (x.lane t.lane).mode = l.mode ∧ OnlyLane t.lane s x)

/-- PROGRAM in OPEN on a chip in HOST is forwarded to the byte that the remap windows give, with its data, and the chip is
HOST_BUSY; in STAGE_WRITE, with WEL set, no other port's lock and a staged or free unit, its data is combined by AND, within the
program page, into its staged unit and nothing is forwarded; in any other class it is refused. ERASE over units that are all open
is forwarded; over units of one STAGE_WRITE entry that admits it, the staged units that it covers are given up; otherwise it is
refused. What is not forwarded clears WEL in every reached chip's shadow, and what is refused leaves the staging buffer as it was
(R45, R46, R63, R88, R90, R92, R94). -/
def Obligations.programAndErase : Prop :=
  ∀ (t : Txn) (addr : Word) (data : Bytes) (size : Nat) (s : State),
    let l := s.lane t.lane
    let h := hostAddr l t addr
    let u := mergeUnit l.cfg t.cs (h / 4096)
    let f := s.flashOf t.lane u
    let c := l.chips[f.1]
    let units := (eraseUnits l f size).map (s.unitOfFlash t.lane t.cs)
    let sent := fun (k : FwdKind) (d : Bytes) (x : State) =>
      (x.lane t.lane).fp = .forwarded k t.op (some (f.1, f.2 * 4096 + h % 4096)) none d ∧
        ((x.lane t.lane).chips[f.1]).st = .hostBusy ∧ (x.lane t.lane).rsp = some [] ∧ x.staging = s.staging ∧ OnlyLane t.lane s x
    let notSent := fun (x : State) =>
      (∀ k : Fin 2, (s.reachList t.lane t.cs).contains k = true → ((x.lane t.lane).chips[k]).wel = false) ∧
        (∀ k o a m d, (x.lane t.lane).fp ≠ .forwarded k o a m d) ∧ (x.lane t.lane).rsp = some []
    h / 4096 < reachUnits l t →
    (Passed .program t s → accessOf l.rules u = .openFlash → c.st = .host → Completes (.program t addr data) s
      (sent .program data)) ∧
    (∀ i w, Passed .program t s → winner l.rules u = some (i, w) → w.access = .stageWrite → c.st ≠ .hostBusy → c.wel = true →
      s.lockedAway t.lane w.window = false →
      ((s.staged t.lane w.window (u - w.base)).isSome || s.stagingFree) = true → Completes (.program t addr data) s fun x =>
        (x.staged t.lane w.window (u - w.base)).map (·.bytes) = some (andPage (flashPage (l.flash[f.1]).sfdp) (h % 4096) 0 data
            (((s.staged t.lane w.window (u - w.base)).map (·.bytes)).getD (List.replicate 4096 0xFF))) ∧
          (∀ y ∈ x.staging, (y.lane = t.lane ∧ y.window = w.window ∧ y.k = u - w.base) ∨ y ∈ s.staging) ∧
          (x.lane t.lane).counts.stageCaptured = inc48 l.counts.stageCaptured ∧ notSent x) ∧
    (Passed .program t s → accessOf l.rules u ≠ .openFlash → accessOf l.rules u ≠ .stageWrite →
      Completes (.program t addr data) s fun x => notSent x ∧ x.staging = s.staging) ∧
    (Passed .erase t s → (units.all fun v => v.any fun y => accessOf l.rules y == .openFlash) = true → c.st = .host →
      Completes (.erase t addr size) s (sent .erase [])) ∧
    (∀ w, Passed .erase t s → eraseVerdict l units = .captured w → c.st ≠ .hostBusy → c.wel = true →
      s.lockedAway t.lane w.window = false → Completes (.erase t addr size) s fun x =>
        (∀ y, y ∈ x.staging ↔ y ∈ s.staging ∧ ¬ (y.lane = t.lane ∧ y.window = w.window ∧
          some y.k ∈ units.map fun v => v.map fun z => z - w.base)) ∧
          (x.lane t.lane).counts.stageCaptured = inc48 l.counts.stageCaptured ∧ notSent x) ∧
    (∀ vs, Passed .erase t s → eraseVerdict l units = .refused vs → Completes (.erase t addr size) s fun x =>
      notSent x ∧ x.staging = s.staging)

/-- SUSPEND is sent to every reached chip that is not in VIRUND where some reached chip is busy, and those chips owe a suspended
operation; RESUME is sent to them where one holds a suspended operation, and returns it to HOST_BUSY. ERASE_CHIP, POWER and
SECURITY_REGISTER, decided, and an opcode of no class are refused with the poison of reason 0x02, at the lane address for
SECURITY_REGISTER and from byte 0 for the others: cut in their command on the flash side and sent to no chip, with no chip's state
changed (R35, R43, R47, R63, R600). -/
def Obligations.suspendResumeAndRefused : Prop :=
  ∀ (t : Txn) (addr : Word) (len : Nat) (s : State),
    let l := s.lane t.lane
    let busy := s.reachIn t.lane t.cs .hostBusy
    let sent := s.sendList t
    let held := sent.filter fun f => (l.chips[f]).suspended
    let refused := fun (from_ n : Nat) (x : State) =>
      (x.lane t.lane).rsp = some (poison t.lane 0x02 from_ n) ∧
        (x.lane t.lane).fp = (if l.drives then .truncated t.op .command else .idle) ∧ (x.lane t.lane).chips = l.chips ∧
        OnlyLane t.lane s x
    (Passed .suspend t s → busy ≠ [] → (busy.any fun f => (l.chips[f]).restorePending) = false → Completes (.suspend t) s fun x =>
      (x.lane t.lane).fp = castAct l t.op sent [] ∧ (∀ f ∈ busy, ((x.lane t.lane).chips[f]).suspendSent = true) ∧
        (x.lane t.lane).rsp = some [] ∧ OnlyLane t.lane s x) ∧
    (Passed .resume t s → held ≠ [] → (sent.any fun f => (l.chips[f]).restorePending) = false → Completes (.resume t) s fun x =>
      (x.lane t.lane).fp = castAct l t.op sent [] ∧
        (∀ f ∈ held, ((x.lane t.lane).chips[f]).st = .hostBusy ∧ ((x.lane t.lane).chips[f]).suspended = false) ∧
        (x.lane t.lane).rsp = some [] ∧ OnlyLane t.lane s x) ∧
    (Passed .eraseChip t s → Completes (.eraseChip t) s (refused 0 0)) ∧
    (Passed .power t s → Completes (.power t len) s (refused 0 len)) ∧
    (Passed .security t s → Completes (.securityRegister t addr len) s
      (refused (laneAddr l t.cs (hostAddr l t addr)) len)) ∧
    (gate .unknown t s = (.refuse 0x02, s) → Completes (.unknown t len) s (refused 0 len))

/-- MB_OP_WRITE appends to the inbound buffer of a port that is not served, MB_OP_READ takes bytes from the outbound buffer and
gives 0x00 beyond it, MB_OP_STATUS gives the status word; a whole frame with a right CRC is handed on when the port is served and
has room, and leaves the buffer; a frame that stays incomplete for T_gap is answered LENGTH_SHORT, or BAD_FRAME where bytes of it
were lost, and the port enters DISCARD (R68, R69, R71, R391, R392, R599). -/
def Obligations.mailboxPortsAndFrames : Prop :=
  (∀ (t : Txn) (data : Bytes) (len : Nat) (s : State),
    let l := s.lane t.lane
    (Passed .mbWrite t s → l.mb.paused = true → l.mb.discard = false → l.mb.inBuf.length + data.length ≤ 4096 →
      Completes (.mbOpWrite t data) s fun x =>
        (x.lane t.lane).mb.inBuf = l.mb.inBuf ++ data ∧ (x.lane t.lane).mb.discardCount = l.mb.discardCount ∧
          (x.lane t.lane).rsp = some [] ∧ (s.chuck.power = .run → OnlyLane t.lane s x)) ∧
    (Passed .mbRead t s → Completes (.mbOpRead t len) s fun x =>
      (x.lane t.lane).rsp = some (padTo (l.mb.outBuf.take len) len) ∧
        (x.lane t.lane).mb.outBuf = l.mb.outBuf.drop len ∧ OnlyLane t.lane s x) ∧
    (Passed .mbStatus t s → Completes (.mbOpStatus t len) s fun x =>
      (x.lane t.lane).rsp = some (padTo ((leBytes 8 (mailboxStatus l)).take len) len) ∧
        (x.lane t.lane).mb = l.mb ∧ OnlyLane t.lane s x)) ∧
  (∀ (n : Fin 8) (f : Bytes) (s : State),
    let mb := (s.lane n).mb
    mb.paused = false → mb.discard = false →
    (mb.inBuf = f → f.head? ≠ some 0 → 16 ≤ f.length → f.length = 16 + u32 f 8 → mb.lost = false → headerBad f = false →
      crcOk f = true → s.portRoom (.hp n) = true → Completes (.mailboxFrameRelease n) s fun x =>
        x.stolik.waiting = s.stolik.waiting ++ [⟨.hp n, f⟩] ∧ (x.lane n).mb.inBuf = []) ∧
    (mb.inBuf = f → f.head? ≠ some 0 → 16 ≤ f.length → f.length < 16 + u32 f 8 → Completes (.mailboxGapTimeout n) s fun x =>
      (x.stolik.outbox.head?.map fun r => (r.port, r.result)) =
          some (.hp n, if mb.lost then .badFrame else .lengthShort) ∧
        (x.lane n).mb.discard = true ∧ (x.lane n).mb.inBuf = []))

/-- A host transaction that is not answered, because its chip select does not answer or the lane has no power, drives nothing and
leaves everything but the lane's last answer as it was (R49). -/
def Obligations.silentTransactions : Prop :=
  ∀ (t : Txn) (addr : Word) (len k : Nat) (data : Bytes) (e : ReadEnv) (b0 b1 : Byte) (s : State),
    (s.lanesPowered = false ∨ csAnswers (s.lane t.lane).cfg t.cs = false) →
    ∀ c ∈ [Instr.read t addr len e, .readSfdp t addr len, .readId t len, .readStatus t len b0 b1, .writeEnable t,
        .program t addr data, .erase t addr k, .eraseChip t, .writeConfig t data, .addressMode t, .reset t, .suspend t,
        .resume t, .power t len, .securityRegister t addr len, .unknown t len, .mbOpWrite t data, .mbOpRead t len,
        .mbOpStatus t len],
      exec c s = .next (s.modLane t.lane fun l => { l with rsp := none, fp := .idle, wait := 0 })

/-! ### The lane's own events (R46, R53, R63 to R67, R75 to R83, R99 to R106, R146) -/

/-- While the Spindles run: the WRDI owed for a refused write is sent to the chips that are not in VIRUND and no longer owed; a
status poll of a busy chip shows its shadow, and WIP = 0 returns it to HOST; Virund takes a chip under the conditions of R64 with
WIP = 0 in its shadow, and gives it back with WREN or WRDI by the shadow's WEL; a table rewrite ends the table's outage; step 4 of
a takeover binds a Riffle and hashing resumes; step 5 ends the takeover (R46, R63, R64, R66, R67, R75, R79 to R81). -/
def Obligations.chipOwnershipAndTakeover : Prop :=
  (∀ (n : Fin 8) (f : Fin 2) (sr : Byte) (s : State),
    let l := s.lane n
    let c := l.chips[f]
    let sent := l.wrdi.filter fun k => (l.chips[k]).st != .virund
    s.spindlesRun = true →
    (l.wrdi ≠ [] → sent ≠ [] → Completes (.wrdiSend n) s fun x =>
      (x.lane n).wrdi = [] ∧ (x.lane n).fp = .own 0x04 sent ∧
        (∀ k : Fin 2, (x.lane n).chips[k] = { l.chips[k] with wel := (l.chips[k]).wel && !sent.contains k }) ∧ OnlyLane n s x) ∧
    (c.st = .hostBusy → Completes (.flashStatusPoll n f sr) s fun x =>
      let d := (x.lane n).chips[f]
      d.wip = sr.getLsbD 0 ∧ d.wel = sr.getLsbD 1 ∧ (sr.getLsbD 0 = true → d.st = .hostBusy) ∧
        (sr.getLsbD 0 = false → c.restorePending = false → d.st = .host ∧ d.suspended = (c.suspended || c.suspendSent)) ∧
        OnlyLane n s x) ∧
    (s.mayEnter n f = true → s.writeWanted n f = true → Completes (.virundEnter n f) s fun x =>
      (x.lane n).chips[f] = { c with st := .virund, wip := false } ∧ OnlyLane n s x) ∧
    (c.st = .virund → Completes (.virundExit n f) s fun x =>
      (x.lane n).chips[f] = { c with st := .host, wip := false } ∧
        (x.lane n).fp = .own (if c.wel then 0x06 else 0x04) [f] ∧ OnlyLane n s x)) ∧
  (∀ (n : Fin 8) (k : Takeover) (s : State),
    (s.spindleServes n = true → Completes (.tableRewrite n) s fun x => (x.lane n).tableBad = false ∧ OnlyLane n s x) ∧
    (s.spindlesRun = true → (s.lane n).takeover = some k → k.hashing = false →
      (s.riffle (n.castLE (by decide))).inService = true → recordNamesRiffle n s.weir = false →
      (∀ i, (s.riffle i).boundTo ≠ some n) → Completes (.shadowHashResume n) s fun x =>
        (x.lane n).riffle = some (n.castLE (by decide)) ∧ (x.lane n).takeover = some { k with hashing := true } ∧
          OnlyLane n s x) ∧
    (s.spindleServes n = true → (s.lane n).takeover = some k → k.hashing = true →
      Completes (.spareTakeoverComplete n) s fun x =>
        (x.lane n).takeover = none ∧ (x.lane n).tableBad = false ∧ (x.lane n).engine = (s.lane n).engine))

/-- While the Spindles run, a pending rule set that is ready, with nothing to drain and its repeated checks passed, takes effect
as a whole: its configuration, windows and rules are in force, the hit counters start at zero and the old ones are kept, the
causes RESET and NO_POLICY of DENY_ALL end, and the policy is stored, with no other lane touched where no mirror copy is lost;
while it is not ready the state stays as it is; where trackers must drain first it waits, marked drained, and the drain's end lets
it take effect; one whose repeated checks fail is given up and the rules in force stay (R99, R101, R102, R105, R106, R146, R178). -/
def Obligations.ruleSetSwaps : Prop :=
  ∀ (n : Fin 8) (p : PendingSet) (g : Failed) (s : State),
    let l := s.lane n
    let inForce := fun (x : State) =>
      (x.lane n).cfg = p.policy.cfg ∧ (x.lane n).rules = p.policy.rules ∧ (x.lane n).remap = p.policy.remap ∧
        (x.lane n).hits = List.replicate p.policy.rules.length 0 ∧ (x.lane n).prevHits = l.hits ∧
        (x.lane n).denyReset = false ∧ (x.lane n).denyNoPolicy = false ∧ (x.lane n).pending = none ∧
        x.nvm.lanePolicy[n] = some p.policyBytes ∧
        ((l.leaves.all fun row => row.all fun st => !st.mirrorValid) = true → ∀ k, k ≠ n → x.lane k = s.lane k)
    s.spindlesRun = true → l.pending = some p → p.manifest = none →
    (s.swapReady n p = false → exec (.ruleSetSwap n) s = .next s) ∧
    (s.swapReady n p = true → l.trackersFree = true ∨ swapDrains l p = false → recheckSwap s n p = none →
      Completes (.ruleSetSwap n) s inForce) ∧
    (s.swapReady n p = true → l.trackersFree = false → swapDrains l p = true → Completes (.ruleSetSwap n) s fun x =>
      (x.lane n).pending = some { p with drained := true } ∧ (x.lane n).rules = l.rules ∧ OnlyLane n s x) ∧
    (s.swapReady n p = true → l.trackersFree = true → recheckSwap s n p = some g → Completes (.ruleSetSwap n) s fun x =>
      (x.lane n).pending = none ∧ (x.lane n).rules = l.rules ∧ (x.lane n).cfg = l.cfg ∧ x.nvm.lanePolicy = s.nvm.lanePolicy) ∧
    (s.swapReady n p = true → l.trackersFree = true → recheckSwap s n p = none → p.drained = true →
      (s.stolik.activations.find? fun a => a.lane == n && a.step == 5) = none → l.nextManifest = none →
      Completes (.trackerDrainComplete n) s inForce)

/-- The flip of a window's select, with what the pre-flip check proved still on the inactive target, the trackers drained and the
host held where PENDING asks for it, is one commit-record write: the other target is selected, the window is FLIPPED with its old
target PREVIOUS, and the incoming manifest's slot becomes the active one (R53, R249, R260, R280). -/
def Obligations.activationFlipSelects : Prop :=
  ∀ (n w : Fin 8) (a : Activation) (b : Bytes) (m : HostManifest) (s : State),
    s.spindlesRun = true → s.activationAt n w 5 = some a → s.incoming n = some (b, m) → s.flipProved a = true →
    (a.now = true ∨ s.hostHeld n = true) → (s.lane n).trackersFree = true →
    Completes (.activationFlip n w) s fun x =>
      (x.win n w).select = otherSel (s.win n w).select ∧ (x.win n w).phase = .flipped ∧
        (x.win n w).inactive = .previous ∧ (x.nvm.commit.lanes[n]).active = !(s.nvm.commit.lanes[n]).active ∧
        (x.lane n).manifest = some m ∧ x.nvm.commit.seq = s.nvm.commit.seq + 1

/-! ### Read-time verification (R110 to R150) -/

/-- While the Spindles run, the bound Riffle ends the hash of the leaf that it has: where the leaf's page is resident the tracker
is FREE, and a digest that matches counts in LEAVES_VERIFIED and as scrubbed, with the next scheduled scrub skipped; one that
differs counts in MISMATCHES: bytes of the flash mark the leaf, which waits for confirmation reads, and bytes of a Reservoir leave
it and enter that Reservoir's defect list; without its page the tracker waits, and the page is requested (R115, R120, R124, R126,
R130, R131, R148, R150). -/
def Obligations.leafHashCompares : Prop :=
  ∀ (n : Fin 8) (k : Fin 64) (m : HostManifest) (d : Bytes) (y : Sel) (s : State),
    let l := s.lane n
    let t := l.trackers[k]
    let got := leafDigest (cellRead t.data 0 (leafSize m t.region))
    s.spindlesRun = true → l.nextHash = some k → l.manifest = some m → l.hashing = true →
    (l.leafDigest? t.ref = some d → got = d → Completes (.leafHashComplete n) s fun x =>
      (x.lane n).trackers[k] = .free ∧ (x.lane n).counts.leavesVerified = inc48 l.counts.leavesVerified ∧
        t.ref ∈ (x.lane n).scrubbed ∧ t.ref ∈ (x.lane n).skipNext ∧ (x.lane n).leaves = l.leaves ∧
        (x.lane n).confirms = l.confirms) ∧
    (l.leafDigest? t.ref = some d → got ≠ d → t.res = none → Completes (.leafHashComplete n) s fun x =>
      (x.lane n).trackers[k] = .free ∧ (x.lane n).counts.mismatches = inc48 l.counts.mismatches ∧
        (x.lane n).leaves = (l.modLeaf t.ref fun st => { st with flash :=
          if st.flash = .good ∨ st.flash = .unverified then (if t.fault then .error else .bad) else st.flash }).leaves ∧
        ∃ c, (x.lane n).confirms = l.confirms ++ [c] ∧ c.leaf = t.ref ∧ c.fault = t.fault) ∧
    (l.leafDigest? t.ref = some d → got ≠ d → t.res = some y → (s.res y).defects.length < 256 →
      Completes (.leafHashComplete n) s fun x =>
        (x.lane n).trackers[k] = .free ∧ (x.lane n).counts.mismatches = inc48 l.counts.mismatches ∧
          (n, t.ref) ∈ (x.res y).defects ∧ (x.lane n).leaves = l.leaves) ∧
    (l.leafDigest? t.ref = none → Completes (.leafHashComplete n) s fun x =>
      (x.lane n).trackers[k] = { t with st := .pageWait } ∧ (t.region, t.leaf / 16) ∈ (x.lane n).pageReqs ∧
        (x.lane n).leaves = l.leaves)

/-- A requested page that proves, read from its place in the leaf-digest file of Reservoir A, becomes resident where the cache has
room, and is requested no more; a CAPTURING tracker without a capture for PARTIAL_TIMEOUT slow ticks goes to FILLING; a fill gives
a FILLING tracker the bytes it lacks, keeps the captured ones, and a tracker covered in full is QUEUED, or hashed at once by a
free engine (R114, R116, R120, R124, R127, R128, R179). -/
def Obligations.pagesAndFills : Prop :=
  ∀ (n : Fin 8) (k : Fin 64) (region : Fin 256) (page : Nat) (fileA fileB leafBytes : Bytes) (ls : List Bytes) (bad : List Nat)
    (fault : Bool) (m : HostManifest) (g : Region) (s : State),
    let l := s.lane n
    let t := l.trackers[k]
    let count := min 16 (g.leafCount - 16 * page)
    let b := slice fileA (pageOffset m region.val page) (32 * count)
    (s.spindlesRun = true → l.manifest = some m → m.regions[region.val]? = some g → 16 * page < g.leafCount →
      l.pageReqs.contains (region.val, page) = true → s.fileReadable .a n = true →
      pageProves l region.val page count b = true → l.waitingFor region.val page = [] →
      (l.digests[region.val]?).map List.length = some g.leafCount →
      ((dropPage n region.val page s).freeSlot l.verify.pinPages).isSome = true →
      Completes (.pageInComplete n region page fileA fileB ls bad) s fun x =>
        (∀ i < count, (x.lane n).leafDigest? ⟨region.val, 16 * page + i⟩ = some (slice b (32 * i) 32)) ∧
          (region.val, page) ∉ (x.lane n).pageReqs ∧ (x.lane n).trackers = l.trackers ∧ (x.lane n).leaves = l.leaves) ∧
    (s.spindlesRun = true → t.st = .capturing → t.lastCapture + l.verify.partialTimeout ≤ s.tick →
      Completes (.partialTimeout n k) s fun x =>
        (x.lane n).trackers[k] = { t with st := .filling, filled := true } ∧ OnlyLane n s x) ∧
    (s.spindleServes n = true → l.manifest = some m → t.st = .filling → leafBytes.length = leafSize m t.region →
      (s.fillSource n t.region).isSome = true ∨ s.leafReadable n t.ref = true →
      (coverNew t.data 0 leafBytes).length = leafBytes.length → Completes (.trackerFillComplete n k leafBytes fault) s fun x =>
        let z := (x.lane n).trackers[k]
        (z.st = .queued ∨ z.st = .hashing) ∧ z.data = coverNew t.data 0 leafBytes ∧ z.ref = t.ref ∧
          z.fault = (t.fault || fault) ∧ { x with lanes := s.lanes, conf := s.conf } = s)

/-- While the lane's Spindle serves: the oldest queued flash check is read whole, and a match makes an UNVERIFIED leaf GOOD and
its next scheduled scrub skipped, while a mismatch waits for confirmation reads; the oldest leaf that waits for confirmation gets,
where its mismatch found it not yet marked, the FLASH_STATE of the first row of R130 that applies, and waits no more; the leaf of
the next visit that is due is scrubbed, counted in SCRUB_LEAVES; a scrub period that ends with a leaf not scrubbed counts in
SCRUB_OVERRUNS, and the next one begins where it ended, at that leaf (R111, R129, R130, R147 to R150). -/
def Obligations.checksAndScrubs : Prop :=
  ∀ (n : Fin 8) (r : LeafRef) (rest : List LeafRef) (c : Confirm) (cs : List Confirm) (i : Nat) (b b2 d : Bytes) (fault : Bool)
    (m : HostManifest) (q : Lane) (s : State),
    let l := s.lane n
    let verdict := classify (c.fault || fault) (c.firstRead.getD b) b2 (l.leafDigest? c.leaf)
    (s.spindleServes n = true → l.flashChecks = r :: rest → l.leafDigest? r = some d → s.leafReadable n r = true →
      leafDigest b = d → Completes (.flashCheck n b false) s fun x =>
        (x.lane n).flashChecks = rest ∧ (x.lane n).counts.flashChecks = inc48 l.counts.flashChecks ∧
          (x.lane n).leaves = (leafMatched r l).leaves ∧ r ∈ (x.lane n).scrubbed ∧ r ∈ (x.lane n).skipNext) ∧
    (s.spindleServes n = true → l.flashChecks = r :: rest → l.leafDigest? r = some d → s.leafReadable n r = true →
      leafDigest b ≠ d → Completes (.flashCheck n b false) s fun x =>
        (x.lane n).flashChecks = rest ∧ (x.lane n).counts.mismatches = inc48 l.counts.mismatches ∧
          ∃ y, (x.lane n).confirms = l.confirms ++ [y] ∧ y.leaf = r ∧ y.firstRead = some b) ∧
    (s.spindleServes n = true → l.confirms = c :: cs → s.leafReadable n c.leaf = true →
      verdict.2 ≠ .bad ∨ (l.leafDigest? c.leaf).isSome = true → Completes (.confirmationReads n b b2 fault) s fun x =>
        (x.lane n).confirms = cs ∧
          (x.lane n).leaves = (if c.fresh then (l.modLeaf c.leaf fun st =>
            { st with flash := if st.flash = .good then .good else verdict.2 }).leaves else l.leaves)) ∧
    (s.spindleServes n = true → l.manifest = some m → s.tick < l.scrubStart + l.scrubTicks →
      scrubPass s n (allLeaves m) ((allLeaves m).length + 1) l = (some r, q) → q.leafDigest? r = some d → leafDigest b = d →
      Completes (.scrub n b false) s fun x =>
        (x.lane n).scrubAt = q.scrubAt + 1 ∧ (x.lane n).counts.scrubLeaves = inc48 q.counts.scrubLeaves ∧
          (x.lane n).leaves = (leafMatched r q).leaves ∧ r ∈ (x.lane n).scrubbed) ∧
    (s.spindlesRun = true → l.manifest = some m → l.unscrubbed (allLeaves m) = some (i, r) →
      l.scrubStart + l.scrubTicks ≤ s.tick → Completes (.scrubOverrun n) s fun x =>
        (x.lane n).counts.scrubOverruns = inc48 l.counts.scrubOverruns ∧ (x.lane n).scrubFirst = i ∧ (x.lane n).scrubAt = 0 ∧
          (x.lane n).scrubStart = l.scrubStart + l.scrubTicks ∧ (x.lane n).scrubbed = [])

/-- While the Spindles run: a claim takes effect on a capable Reservoir, whose flash takes the lane's mode, and ends on one that
is not; a claim that its lane does not need ends; the mirror fill that comes next, whose bytes match, stores them as the leaf's
verified copy, from the flash where the leaf is not BAD or ERROR and from a Reservoir where it is; a MISMATCH hold whose causes
are all served is released of itself where the policies say so (R134 to R136, R139, R141). -/
def Obligations.claimsFillsReleases : Prop :=
  ∀ (n : Fin 8) (x y : Sel) (cl : Claim) (region : Fin 256) (leaf : Nat) (b d : Bytes) (h : Fin 16) (s : State),
    let r : LeafRef := ⟨region.val, leaf⟩
    let l := s.lane n
    (s.spindlesRun = true → (s.res x).claim = some cl → cl.inEffect = false → s.resAt33 x cl.lane = false →
      Completes (.claimEffect x true) s fun t =>
        (t.res x).claim = some { cl with inEffect := true } ∧ (t.res x).mode = (s.lane cl.lane).mode[(0 : Fin 2)] ∧
          t.lanes = s.lanes) ∧
    (s.spindlesRun = true → (s.res x).claim = some cl → cl.inEffect = false →
      (s.lane cl.lane).outcome ≠ some .verifiedReservoir → Completes (.claimEffect x false) s fun t =>
        (t.res x).claim = none ∧ t.lanes = s.lanes) ∧
    (s.spindlesRun = true → (s.res x).claim = some cl → claimNeeded cl.lane s = false → Completes (.claimRelease x) s fun t =>
      ∀ c, (t.res x).claim = some c → c.lane ≠ cl.lane) ∧
    (s.spindleServes n = true → s.nextFill n = some r → l.leafDigest? r = some d → l.leafBad r = false →
      s.leafReadable n r = true → leafDigest b = d → Completes (.mirrorFill n region leaf b false false) s fun t =>
        (∀ e ∈ t.mirror, e.lane = n → e.leaf = r → e.bytes = b) ∧ t.mirror.length = s.mirror.length ∧
          r ∉ (t.lane n).fills ∧
          (t.lane n).leaves = ((leafMatched r l).modLeaf r fun st => { st with mirrorValid := true }).leaves) ∧
    (s.spindleServes n = true → s.nextFill n = some r → l.leafDigest? r = some d → l.leafBad r = true →
      s.repairSource n r = some y → leafDigest b = d → Completes (.mirrorFill n region leaf b true false) s fun t =>
        (∀ e ∈ t.mirror, e.lane = n → e.leaf = r → e.bytes = b) ∧ r ∉ (t.lane n).fills ∧
          (t.lane n).leaves = (l.modLeaf r fun st => { st with mirrorValid := true }).leaves) ∧
    (s.spindlesRun = true → (s.host h).hold.mismatch = true →
      (s.host h).causes.all (fun c => (s.lane c.1).verify.autoRelease && s.leafServed c.1 c.2) = true →
      (s.host h).hold.power = true → Completes (.holdAutoRelease h) s fun t =>
        (t.host h).hold = { (s.host h).hold with mismatch := false } ∧ (t.host h).causes = [] ∧
          (t.host h).resetAsserted = (s.host h).resetAsserted)

/-! ### Platform verification and repair (R198 to R207, R275) -/

/-- The Spindle that serves the lane, having read the flashes, begins by accepting: outside OWNED the lane ends FAILED under its
default configuration, as it does without an accepted policy; with a policy and no accepted manifest it ends FAILED; with both,
the lane works by the policy's configuration and the manifest, every leaf UNVERIFIED, and the policy's rules provisional until the
end (R198, R207). -/
def Obligations.platformAcceptance : Prop :=
  ∀ (n : Fin 8) (a0 a1 : Bool) (f0 f1 : FlashTables) (b c : Bytes) (m : HostManifest) (p : LanePolicy) (s : State),
    let pv := (s.lane n).pv
    let seen := flashesRead n a0 a1 f0 f1 s
    let failed := fun (x : State) => (x.lane n).outcome = some .failed ∧ (x.lane n).pv.active = false ∧
      (x.lane n).pv.accepted = false ∧ (x.lane n).leaves = []
    s.spindleServes n = true → pv.active = true → pv.accepted = false → pv.keepMirrored = false → s.acceptanceWaits n = false →
    (s.lc ≠ .owned → Completes (.platformVerifyAcceptance n a0 a1 f0 f1) s fun x =>
      failed x ∧ (x.lane n).cfg = .default ∧ (x.lane n).denyNoPolicy = true) ∧
    (s.lc = .owned → s.nvm.lanePolicy[n] = none → Completes (.platformVerifyAcceptance n a0 a1 f0 f1) s fun x =>
      failed x ∧ (x.lane n).cfg = .default ∧ (x.lane n).denyNoPolicy = true) ∧
    (s.lc = .owned → manifestForStart seen n = none → s.nvm.lanePolicy[n] = some c → acceptPolicy seen n c none = .ok p →
      Completes (.platformVerifyAcceptance n a0 a1 f0 f1) s fun x => failed x ∧ (x.lane n).cfg = (s.lane n).cfg) ∧
    (s.lc = .owned → manifestForStart seen n = some (b, m, false) → s.nvm.lanePolicy[n] = some c →
      acceptPolicy seen n c (some m) = .ok p → Completes (.platformVerifyAcceptance n a0 a1 f0 f1) s fun x =>
        (x.lane n).cfg = p.cfg ∧ (x.lane n).remap = p.remap ∧ (x.lane n).pv.rules = some p.rules ∧
          (x.lane n).rules = (s.lane n).rules ∧ (x.lane n).manifest = some m ∧ (x.lane n).leaves = freshLeaves m ∧
          (x.lane n).pv.accepted = true ∧ (x.lane n).pv.active = true)

/-- A region whose image gives the manifest's root, read without a fault from chips that answer, is proved: its tree top is held
and its leaves are GOOD; the last region, with no fill left that can complete, lets the verification end, with the outcome of
R202, the accepted rules in force, their hit counters at zero, and the causes RESET and NO_POLICY of DENY_ALL over; a verification
that runs past its bound ends FAILED with its cause of DENY_ALL kept (R97, R198, R200 to R202). -/
def Obligations.platformVerification : Prop :=
  ∀ (n : Fin 8) (region : Fin 256) (g : Region) (e : RegionEnv) (m : HostManifest) (s : State),
    let l := s.lane n
    (s.spindleServes n = true → l.manifest = some m → m.regions[region.val]? = some g → l.pv.active = true →
      l.pv.accepted = true → l.pv.done.contains region.val = false → l.pv.keepMirrored = false → l.pv.unread = [] →
      e.faultLeaves = [] → (digestsOf g e.image).length = g.leafCount → treeRoot (digestsOf g e.image) = g.root →
      (∀ r ∈ regionLeaves region.val g, s.leafAbsent n r = false) →
      (∀ r ∈ regionLeaves region.val g, l.leafMirrored r = false) →
      (l.leaves[region.val]?).map List.length = some g.leafCount → region.val < l.level1.length →
      Completes (.regionRootCompare n region e) s fun x =>
        (x.lane n).level1[region.val]? = some (levelAbove (digestsOf g e.image)) ∧
          (∀ r ∈ regionLeaves region.val g, ((x.lane n).leafState r).flash = .good) ∧
          (x.lane n).pv.done = l.pv.done ++ [region.val] ∧ x.mirror = s.mirror) ∧
    (s.spindleServes n = true → l.manifest = some m → l.pv.active = true → l.pv.accepted = true → l.denyEngine = false →
      l.takeover = none → (List.range m.regions.length).all l.pv.done.contains = true →
      (l.fills.any fun r => s.fillable n r) = false → Completes (.platformVerifyEnd n) s fun x =>
        (x.lane n).outcome = some (verifyOutcome s n).1 ∧ (x.lane n).denyReset = false ∧
          (x.lane n).denyNoPolicy = false ∧ (x.lane n).pv.active = false ∧ (x.lane n).rules = l.ruleSet ∧
          (x.lane n).hits = List.replicate l.ruleSet.length 0) ∧
    (s.spindlesRun = true → l.pv.active = true → l.pv.startTick + verifyBound l ≤ s.tick →
      Completes (.platformVerifyTimeout n) s fun x =>
        (x.lane n).outcome = some .failed ∧ (x.lane n).pv.active = false ∧ (x.lane n).cfg = l.cfg ∧
          (x.lane n).denyReset = l.denyReset)

/-- A BAD or ERROR leaf that Virund owns, from a Reservoir copy that proves, is GOOD again where a read-back matches, with its
REPAIR entry queued; where neither matches, and without a 4 KiB erase over it, it stays as it was with REPAIR_FAILED (R203, R275). -/
def Obligations.leafRepairs : Prop :=
  ∀ (n : Fin 8) (region : Fin 256) (leaf : Nat) (src back back2 d : Bytes) (x : Sel) (s : State),
    let r : LeafRef := ⟨region.val, leaf⟩
    let l := s.lane n
    let entry := fun (result : Nat) =>
      (⟨s.time, 0x0023, BitVec.ofNat 8 (originLane n),
        padTo ([BitVec.ofNat 8 n.val, BitVec.ofNat 8 result, BitVec.ofNat 8 region.val, 0] ++ leBytes 4 leaf) 12⟩ : LogReq)
    s.spindleServes n = true →
    l.leafBad r = true → ((s.leafChips n r).all fun f => (l.chips[f]).st == .virund) = true → s.repairSource n r = some x →
    l.leafDigest? r = some d → leafDigest src = d → l.outcome ≠ some .repairing → LogRoom s →
    (leafDigest back = d ∨ leafDigest back2 = d → Completes (.leafRepair n region leaf src back back2 true) s fun y =>
      (y.lane n).leaves = (l.modLeaf r fun st => { st with flash := .good }).leaves ∧ y.nvm.log.queue = [entry 0]) ∧
    (leafDigest back ≠ d → leafDigest back2 ≠ d → Completes (.leafRepair n region leaf src back back2 true) s fun y =>
      (y.lane n).leaves = l.leaves ∧ y.nvm.log.queue = [entry 1]) ∧
    Completes (.leafRepair n region leaf src back back2 false) s fun y =>
      (y.lane n).leaves = l.leaves ∧ y.nvm.log.queue = [entry 1]

/-! ### Start-up and resets (R182 to R196, R503 to R508) -/

/-- A POR reads the straps and writes the backup marker; with RST_IN_N low Virund stays held, with Weir and Confluence at their
reset values and no Stolik object; otherwise the ROM runs, which ends before firmware start, in Headwater or in SCRAPPED (R182,
R503, R504, R505, R508). -/
def Obligations.powerOnReset : Prop :=
  ∀ (vsel : Vector Strap 22) (mb : Vector Strap 2) (pm : Strap) (s : State),
    Completes (.por vsel mb pm) s fun t =>
      t.chuck.vsel = vsel ∧ t.chuck.mbAddr = mb ∧ t.chuck.pullMaster = pm ∧ t.backup.marker = bootMarker ∧
        (s.chuck.rstLow = true →
          t.mode = .held ∧ t.weir = Weir.reset ∧ t.conf = Confluence.reset ∧ t.stolik.outbox = []) ∧
        (s.chuck.rstLow = false → t.mode = .rom ∨ t.mode = .headwater ∨ t.mode = .scrapped)

/-- A CHIP reset closes the debug port, clears Stolik's objects and records its CAUSE, and the ROM runs unless RST_IN_N or a Levee
alarm holds Virund; a WARM reset of running firmware drops the Alias key and K_seal, keeps the counters and lets the ROM select
again; RST_IN_N acts at the second low sample and lets the ROM run when it is high again (R448, R503, R505, R508). -/
def Obligations.chipAndWarmResets : Prop :=
  ∀ (cause : ResetCause) (s : State), s.powered = true →
    (s.resetHeld = true → Completes (.chipReset cause) s fun t =>
      t.mode = .held ∧ t.keys.debugUnlocked = false ∧ t.stolik.ops = [] ∧
        t.weir.cause = BitVec.ofNat 8 (causeCode cause) ∧ t.weir.causeRecord = s.weir.record) ∧
    (s.resetHeld = false → s.nvm.pendingTarget = none → Completes (.chipReset cause) s fun t =>
      (t.mode = .rom ∨ t.mode = .headwater ∨ t.mode = .scrapped) ∧ t.keys.debugUnlocked = false ∧ t.stolik.ops = [] ∧
        t.weir.cause = BitVec.ofNat 8 (causeCode cause)) ∧
    (s.mode = .firmware → Completes .warmReset s fun t =>
      (t.mode = .rom ∨ t.mode = .headwater) ∧ t.keys.aliasReady = false ∧ t.keys.kSeal = none ∧
        t.nvm.counters = s.nvm.counters ∧ t.fuses = s.fuses) ∧
    (s.chuck.rstLow = false → Completes (.rstInN true) s fun t =>
      t = { s with chuck := { s.chuck with rstLow := true } }) ∧
    (s.chuck.rstLow = true → s.mode ≠ .held → Completes (.rstInN true) s fun t =>
      t.mode = .held ∧ t.weir.cause = 2 ∧ t.chuck.rstLow = true) ∧
    (s.chuck.rstLow = true → s.heldByPin = true → Completes (.rstInN false) s fun t =>
      (t.mode = .rom ∨ t.mode = .headwater ∨ t.mode = .scrapped) ∧ t.chuck.rstLow = false)

/-- Firmware start takes t1, counts the start and, once it has written FW_STARTED, returns the attempt count to zero; without
FW_STARTED the start watchdog resets the chip with its own CAUSE; the end of the activation pause lets service resume; the Alias
certificates end their batch; an overrun of the ROM extension is recorded and it counts as not run (R186, R188, R195, R196, R268,
R290, R292, R404). -/
def Obligations.firmwareStartEvents : Prop :=
  ∀ (s : State),
    (s.mode = .rom → s.planned = false → Completes (.firmwareStart [] true) s fun t =>
      t.mode = .firmware ∧ t.t1 = s.time ∧ t.stolik.bootCount = s.stolik.bootCount + 1 ∧
        t.nvm.commit.fwStarted = true ∧ t.nvm.commit.attempts = 0 ∧ t.warm = false) ∧
    (s.mode = .firmware → s.nvm.commit.fwStarted = false → s.t1 + 2 * nsPerSec ≤ s.time → s.nvm.pendingTarget = none →
      Completes .startWatchdog s fun t => t.weir.cause = 4 ∧ t.mode ≠ .firmware) ∧
    (s.mode = .paused → s.nvm.commit.fwStarted = true → Completes .activationPauseEnd s fun t =>
      t.mode = .firmware ∧ t.planned = false) ∧
    (s.mode = .firmware → s.keys.batchOpen = true → s.keys.cdiDev.isSome = true → s.keys.cdiAlias.isSome = true →
      Completes (.aliasCertsSigned false) s fun t =>
        t.keys.aliasReady = true ∧ t.keys.batchOpen = false ∧ t.keys.gicAlias.take 4 = [0x47, 0x49, 0x43, 0x31] ∧
          t.nvm = s.nvm) ∧
    (s.mode = .rom → s.warm = false → s.romextRan = true → Completes .romextOverrun s fun t =>
      t.romextRan = false ∧ t.nvm.commit.romextOverrun = true)

/-! ### Weir (R423 to R449) -/

/-- A real event, reported alone outside the fault state, whose set neither resets the chip nor a block nor enters the safe state:
its status bit is set, its state word counts, the record takes it or notes a later one, and IRQ, NMI and ERR_PIN follow its set
(R426, R428, R430, R439, R440). -/
def Obligations.weirEventIsRecorded : Prop :=
  ∀ (e : WeirEv) (s : State), s.chuck.power = .run → s.mode ≠ .fault → entersSafe s e = false →
    (s.reactionsOf e).getLsbD 2 = false → (s.reactionsOf e).getLsbD 3 = false →
    Completes (.weirEvent [e]) s fun t =>
      let st := weirCount s.tick32 s.weir.cfg[e.source] s.weir.st[e.source]
      t.weir.pending = s.weir.pending ||| (1#64 <<< e.source.val) ∧ t.weir.st[e.source] = st ∧
        t.weir.record = weirRecord e false false st.lasting (s.reactionsOf e) 0 false s.time s.weir.record ∧
        t.weir.irq = (s.weir.irq || (s.reactionsOf e).getLsbD 0) ∧ t.weir.nmi = (s.weir.nmi || (s.reactionsOf e).getLsbD 1) ∧
        (t.weir.pin = if (s.reactionsOf e).getLsbD 4 = true ∧ s.weir.pin ≠ .forced then .pulse else s.weir.pin) ∧
        t.weir.injected = s.weir.injected ∧ t.backup = s.backup ∧ t.fuses = s.fuses

/-- Between a POR or CHIP reset and firmware start, that is while the ROM runs not after a WARM reset, in Headwater and in
SCRAPPED, a FATAL event enters the safe state whatever its source's configuration word holds (R437): the fault state begins, with
ERR_PIN forced and every host held. -/
def Obligations.fatalBeforeFirmwareEntersSafeState : Prop :=
  ∀ (e : WeirEv) (s : State), (s.mode = .rom ∧ s.warm = false) ∨ s.mode = .headwater ∨ s.mode = .scrapped →
    s.chuck.power = .run → e.cls = .fatal → Completes (.weirEvent [e]) s fun t =>
      t.mode = .fault ∧ t.weir.pin = .forced ∧ AllHeld t ∧ t.weir.cfg = s.weir.cfg

/-- A masked injection marks the injected status word, counts in the test count and fills a free record marked INJECTED, and
starts no reaction; CLEAR_TEST clears every test count and nothing else (R427, R442, R443). -/
def Obligations.weirInjection : Prop :=
  ∀ (w : Dword) (e : WeirEv) (s : State), s.injector = true →
    (bit w.toNat 9 = false → bit w.toNat 8 = false → injectEvent w.toNat = some e → Completes (.weirInject w []) s fun t =>
      t.weir.injected = s.weir.injected ||| (1#64 <<< e.source.val) ∧ t.weir.pending = s.weir.pending ∧
        (t.weir.st[e.source]).testCount = (weirTestCount s.tick32 s.weir.cfg[e.source] s.weir.st[e.source]).testCount ∧
        (t.weir.st[e.source]).count = (s.weir.st[e.source]).count ∧
        (s.weir.record.valid = false → t.weir.record.injected = true ∧ t.weir.record.source = e.source ∧
          t.weir.record.reactions = 0) ∧
        (s.weir.record.valid = true → t.weir.record = s.weir.record) ∧ { t with weir := s.weir } = s) ∧
    (bit w.toNat 9 = true → Completes (.clearTest w) s fun t =>
      (∀ k : Fin 64, t.weir.st[k] = { s.weir.st[k] with testCount := 0, testLasting := false }) ∧
        { t with weir := { t.weir with st := s.weir.st } } = s)

/-- Software's writes while a processor runs: ones clear status bits, a one in VALID clears the record, ERR_HOLD is set, and
cleared by firmware only once its entries are in the log; ERR_PULSE_END leaves PULSE for SOFTWARE or RELEASED; the interrupt
service logs the record and each status bit and clears them; each changes nothing else (R426 to R429, R440, R441). -/
def Obligations.weirRegisters : Prop :=
  ∀ (p i v : Dword) (s : State),
    (s.headstockRuns = true →
      exec (.pendingClear p i) s = .next { s with weir :=
        { s.weir with pending := s.weir.pending &&& ~~~p, injected := s.weir.injected &&& ~~~i } }) ∧
    (s.headstockRuns = true → bit v.toNat 8 = true →
      exec (.firstErrorClear v) s = .next { s with weir := { s.weir with record := .empty } }) ∧
    (s.headstockRuns = true → exec (.errHoldWrite true) s = .next { s with weir :=
      { s.weir with errHold := true, pin := if s.weir.pin = .released then .software else s.weir.pin } }) ∧
    (s.headstockRuns = true → s.mode = .firmware → s.weirEntriesWait = false →
      exec (.errHoldWrite false) s = .next { s with weir :=
        { s.weir with errHold := false, pin := if s.weir.pin = .software then .released else s.weir.pin } }) ∧
    (exec .errPulseEnd s = .next { s with weir :=
      { s.weir with pin := if s.weir.pin = .pulse then (if s.weir.errHold then .software else .released) else s.weir.pin } }) ∧
    (s.mode = .firmware → s.powered = true → s.weir.irq = true → Completes .weirIrqService s fun t =>
      t.weir = { s.weir with record := .empty, pending := 0, irq := false, nmi := false } ∧
        { t with weir := s.weir, nvm := { t.nvm with log := s.nvm.log } } = s)

/-- A configuration word, a Levee scope word and the enclosure word take what software writes while a processor runs; once locked,
the first two keep what they hold, and the scopes of kinds 2, 8, 9 and 11 cannot be written (R434, R436, R454, R471). -/
def Obligations.lockedRegisters : Prop :=
  ∀ (k : Fin 64) (j : Fin 12) (v : Dword) (s : State), s.headstockRuns = true →
    (Completes (.registerWrite (.weirCfg k) v) s fun t =>
      t.weir.cfg[k] = (if (s.weir.cfg[k]).locked then s.weir.cfg[k]
        else if k = 63 then { s.weir.cfg[k] with locked := true } else weirCfgOf k.val v.toNat) ∧
      (∀ m : Fin 64, m ≠ k → t.weir.cfg[m] = s.weir.cfg[m]) ∧ { t with weir := { t.weir with cfg := s.weir.cfg } } = s) ∧
    (Completes (.registerWrite (.leveeScope j) v) s fun t =>
      ((s.levee.kinds[j]).scopeLocked = true → t = s) ∧
      (j.val = 2 ∨ j.val = 8 ∨ j.val = 9 ∨ j.val = 11 → t = s) ∧
      ((s.levee.kinds[j]).scopeLocked = false → scopeConfigurable j = true → bits v.toNat 5 4 = 1 ∨ bits v.toNat 5 4 = 2 →
        t.levee.kinds[j] = { s.levee.kinds[j] with scope := BitVec.ofNat 2 (bits v.toNat 5 4), scopeLocked := true })) ∧
    exec (.registerWrite .enclosureWord v) s = .next { s with backup :=
      { s.backup with encEnable := BitVec.ofNat 8 (bits v.toNat 7 0), encDebounce := BitVec.ofNat 4 (bits v.toNat 11 8) } }

/-! ### Returns to service (R431, R451, R585) -/

/-- A BLOCK reset that is not held ends: a Mandrel whose tests pass is in service again as a shared engine, a lane engine is a
spare again; a bus whose clock was held low is restarted with its SPDM exchange dropped; a passed health test lets the key block
draw again (R324, R383, R431, R451, R585). -/
def Obligations.returnsToService : Prop :=
  ∀ (src : Fin 64) (m : Fin 8) (k : Fin 10) (bus : Fin 16) (b : Fin 64 × Nat × Bool) (s : State),
    ((s.weir.blocks.find? fun x => x.1 == src && x.2.1 == 0 && !x.2.2) = some b → src.val = 32 + m.val →
      Completes (.blockResetEnd src 0 true) s fun t =>
        t.weir.blocks = s.weir.blocks.erase b ∧ (t.mandrel m).inService = true ∧ (t.mandrel m).reserve = none) ∧
    ((s.weir.blocks.find? fun x => x.1 == src && x.2.1 == 0 && !x.2.2) = some b → src.val = k.val → 8 ≤ k.val →
      Completes (.blockResetEnd src 0 true) s fun t =>
        t.weir.blocks = s.weir.blocks.erase b ∧ t.engines[k] = true ∧ t.lanes = s.lanes) ∧
    ((s.buses[bus]).role ≠ 0b00 → (s.buses[bus]).i3c = false → s.powered = true →
      exec (.clockLowTimeout bus) s = .next (s.modBus bus fun x =>
        { x with restarts := x.restarts + 1, spdmOut := none, spdm := .none, ctrlOut := none })) ∧
    exec .healthTestPass s = .next { s with keys := { s.keys with entropyFailed := false } }

/-! ### Peer recovery (R193, R194, R285 to R287, R549, R550) -/

/-- A QUERY is answered with an OFFER of the newest set or with NONE; a GET is answered with DATA from the set's stream, or NONE;
a node in Headwater without a lock or a download asks every authenticated link and collects their offers for a round; at the end
of the offer window the best offer that the ROM can accept is downloaded from its start; NONE from its node ends a download; data
that continues it is kept (R193, R287, R549, R550). -/
def Obligations.recoveryMessages : Prop :=
  (∀ (k : Fin 4) (o n : Word) (e : DirEntry) (v len gen ml : Word) (s : State),
    (s.recoveryRuns k = true → s.offeredSet = some e → Completes (.recoveryQuery k) s fun t =>
      t.fabric.recovery = (k, [2, 0, 0, 0] ++ offerBytes e) :: s.fabric.recovery) ∧
    (s.recoveryRuns k = true → s.offeredSet = none → Completes (.recoveryQuery k) s fun t =>
      t.fabric.recovery = (k, [3, 0, 0, 0]) :: s.fabric.recovery) ∧
    (s.recoveryRuns k = true → s.offeredSet = some e → 0 < n.toNat → n.toNat ≤ 4080 →
      o.toNat + n.toNat ≤ (setStream e).length → Completes (.recoveryGet k o n) s fun t =>
        t.fabric.recovery = (k, [5, 0, 0, 0] ++ (leBytes 4 o.toNat ++ slice (setStream e) o.toNat n.toNat)) ::
          s.fabric.recovery) ∧
    (s.mode = .headwater → s.lanesPowered = true → s.setLocked = false → s.fabric.download = none → s.fabric.round = none →
      Completes .headwaterPeerRequest s fun t =>
        t.fabric.round = some s.tick ∧ t.fabric.offers = [] ∧
          ∀ j, s.recoveryLink j = true → (j, ([1, 0, 0, 0] : Bytes)) ∈ t.fabric.recovery) ∧
    (s.recoveryRuns k = true → s.mode = .headwater → s.fabric.round.isSome = true →
      Completes (.recoveryOffer k v len gen ml) s fun t =>
        (⟨k, v, len, gen, ml⟩ : Offer) ∈ t.fabric.offers ∧ t.mode = .headwater)) ∧
  (∀ (k : Fin 4) (o best : Offer) (got d : Bytes) (at_ : Word) (start : Nat) (s : State),
    s.mode = .headwater →
    (s.fabric.round = some start → start + 32768 ≤ s.tick → s.setLocked = false →
      bestOffer s s.fabric.offers = some best → Completes .headwaterOfferWindowEnd s fun t =>
        t.fabric.round = none ∧ t.fabric.download = some (best, []) ∧ t.fabric.offers = s.fabric.offers.erase best) ∧
    (s.recoveryRuns k = true → s.fabric.download = some (o, got) → o.link = k → s.fabric.offers = [] →
      Completes (.recoveryNone k) s fun t => t.fabric.download = none ∧ t.mode = .headwater) ∧
    (s.recoveryRuns k = true → s.fabric.download = some (o, got) → o.link = k → at_.toNat = got.length →
      o.manifestLength.toNat ≤ got.length → got.length + d.length < o.total → d.length ≤ 4080 →
      Completes (.recoveryData k at_ d) s fun t => t.fabric.download = some (o, got ++ d)))

/-! ### Chuck: the program, supervision, supplies and power states (R205, R209 to R248) -/

/-- SEQ_STEP_START begins a step only once its lanes have completed; ASSERT, DEASSERT and PULSE drive their output, with the order
of assertion and the end of supervision, and the run goes on; DELAY waits and DELAY_END goes on; IF_PRESENT notes the level of its
input, and skips the named number of operations when nothing is present; RELEASE_HOST clears PROGRAM when the lanes, the
power-good and the repairs allow it, and deasserts the reset where nothing else holds the host (R205, R227 to R230, R232, R276). -/
def Obligations.programOperations : Prop :=
  ∀ (c : SeqCtx) (pos : SeqPos) (o : SeqOp) (st : SeqStep) (k : Fin 64) (h : Fin 16) (p : PlatPolicy) (present : Bool)
    (good : List (PgSrc × PgSight)) (s : State),
    (s.stepAt c = some (pos, st) → s.lanesCompleted st.laneMask = false → exec (.seqStepStart c) s = .next s) ∧
    (s.stepAt c = some (pos, st) → s.lanesCompleted st.laneMask = true → Completes (.seqStepStart c) s fun t =>
      t.posOf c ≠ some pos ∧ t.chuck.asserted = s.chuck.asserted ∧ { t with chuck := s.chuck, stolik := s.stolik } = s) ∧
    (s.opIs c .assert false = some (pos, o) → o.pin = k.val → Completes (.assert c) s fun t =>
      t.chuck.asserted = s.chuck.asserted.set k.val true ∧ t.chuck.order.getLast? = some k ∧ t.posOf c ≠ some pos ∧
        { t with chuck := s.chuck, stolik := s.stolik } = s) ∧
    (s.opIs c .deassert false = some (pos, o) → o.pin = k.val → Completes (.deassert c) s fun t =>
      t.chuck.asserted = s.chuck.asserted.set k.val false ∧ k ∉ t.chuck.order ∧ k ∉ t.chuck.supervised ∧
        t.posOf c ≠ some pos ∧ { t with chuck := s.chuck, stolik := s.stolik } = s) ∧
    (s.opIs c .pulse false = some (pos, o) → o.pin = k.val → Completes (.pulse c) s fun t =>
      t.chuck.asserted = s.chuck.asserted.set k.val true ∧ k ∈ t.chuck.pulsing ∧ t.chuck.order = s.chuck.order ∧
        t.posOf c ≠ some pos ∧ { t with chuck := s.chuck, stolik := s.stolik } = s) ∧
    (k ∈ s.chuck.pulsing → Completes (.pulseEnd k) s fun t =>
      t.chuck.asserted = s.chuck.asserted.set k.val false ∧ k ∉ t.chuck.pulsing ∧ { t with chuck := s.chuck } = s) ∧
    (Stands c .delay false pos o s → Completes (.delay c) s fun t =>
      t.posOf c = some { pos with waiting := true } ∧ { t with chuck := s.chuck } = s) ∧
    (s.opIs c .delay true = some (pos, o) → Completes (.delayEnd c) s fun t =>
      t.posOf c ≠ some pos ∧ t.chuck.asserted = s.chuck.asserted ∧ { t with chuck := s.chuck, stolik := s.stolik } = s) ∧
    (s.opIs c .ifPresent false = some (pos, o) → o.pin = k.val → o.value ≤ 1000 → Completes (.ifPresent c present) s fun t =>
      t.posOf c ≠ some pos ∧ t.chuck.inGood[k] = present ∧ { t with chuck := s.chuck, stolik := s.stolik } = s ∧
        (present = false → ∀ q, t.posOf c = some q → q.step = pos.step → pos.op + 1 + o.value ≤ q.op)) ∧
    (s.opIs c .releaseHost false = some (pos, o) → o.host = some h → s.chuck.policy = some p →
      s.lanesCompleted (s.host h).hold.laneMask = true → (notePgs good s).hostPgGood p h = true → (s.host h).repairs = [] →
      Completes (.releaseHost c good) s fun t =>
        (t.host h).hold.program = false ∧ t.posOf c ≠ some pos ∧
          ((s.host h).hold.beyondProgram = false → (t.host h).resetAsserted = false) ∧
          { t with chuck := s.chuck, stolik := s.stolik, lanes := s.lanes } = s)

/-- WAIT_PG, WAIT_IN and PLAT_SYNC wait at their operation; power-good that is seen for its debounce or filter makes the output
supervised, and an input that is seen asserted goes on; a timeout goes on past the operation, with a SUPERVISION entry and an
event of source 54 where the output's scope is LOG, and takes the host down where an input's wait names one; the net that reads
high lets a run past PLAT_SYNC, and so does its timeout, with an entry (R224, R225, R230, R232, R234, R235, R247, R248). -/
def Obligations.programWaits : Prop :=
  ∀ (c : SeqCtx) (pos : SeqPos) (o : SeqOp) (k : Fin 64) (h : Fin 16) (p : PlatPolicy) (seen : PgSight) (ticks : Nat) (s : State),
    (Stands c .waitPg false pos o s → o.pin = k.val → Completes (.waitPg c) s fun t =>
      t.posOf c = some { pos with waiting := true } ∧ t.chuck.pgWait[k] = o.value ∧ { t with chuck := s.chuck } = s) ∧
    (s.opIs c .waitPg true = some (pos, o) → o.pin = k.val → s.pgMet k seen = true → Completes (.waitPgMet c seen) s fun t =>
      t.posOf c ≠ some pos ∧ k ∈ t.chuck.supervised ∧ t.pgGood (s.pgSrcOf k) = true ∧
        t.chuck.asserted = s.chuck.asserted ∧ { t with chuck := s.chuck, stolik := s.stolik } = s) ∧
    (s.opIs c .waitPg true = some (pos, o) → o.pin = k.val → s.chuck.policy = some p → (p.outs[k]).pgFail = .log →
      s.chuck.power = .run → NoChipReset 54 .ce s → LogRoom s → Completes (.waitPgTimeout c) s fun t =>
        t.posOf c ≠ some pos ∧ t.chuck.asserted = s.chuck.asserted ∧ Logged 0x0030 t ∧ t.weir.pending.getLsbD 54 = true) ∧
    (Stands c .waitIn false pos o s → Completes (.waitIn c) s fun t =>
      t.posOf c = some { pos with waiting := true } ∧ { t with chuck := s.chuck } = s) ∧
    (s.opIs c .waitIn true = some (pos, o) → o.pin = k.val → s.pgSeen true (.input k) (.ticks ticks) = true →
      Completes (.waitInMet c ticks) s fun t =>
        t.posOf c ≠ some pos ∧ t.chuck.inGood[k] = true ∧ t.chuck.asserted = s.chuck.asserted ∧
          { t with chuck := s.chuck, stolik := s.stolik } = s) ∧
    (s.opIs c .waitIn true = some (pos, o) → o.host = some h → s.hostIsDown h = false → s.chuck.hardBy = [] →
      s.chuck.power = .run → NoChipReset 54 .ucc s → Completes (.waitInTimeout c) s fun t =>
        t.posOf c ≠ some pos ∧ (t.host h).hold.power = true ∧ (t.host h).resetAsserted = true ∧
          t.weir.pending.getLsbD 54 = true) ∧
    (Stands c .platSync false pos o s → Completes (.platSync c) s fun t =>
      t.posOf c = some { pos with waiting := true } ∧ t.chuck.platDrive = false ∧ { t with chuck := s.chuck } = s) ∧
    (s.opIs c .platSync true = some (pos, o) → Completes .platSyncReleased s fun t =>
      t.posOf c ≠ some pos ∧ t.chuck.platHigh = true ∧ t.chuck.passedSync = true ∧
        { t with chuck := s.chuck, stolik := s.stolik } = s) ∧
    (s.opIs .main .platSync true = some (pos, o) → o.value ≠ 0 → LogRoom s → Completes .platSyncTimeout s fun t =>
      t.posOf .main ≠ some pos ∧ t.chuck.passedSync = true ∧ Logged 0x0032 t)

/-- A channel that is seen outside its window, armed at the start and named by no output, is reported by its own scope; an output
whose scope is HOST takes its host down, POWER set; a take-down deasserts its next enable and ends with the last; a CYCLE action
asserts its output again, in its place in the order, and ends with power good, which its host counts; a host that is off is
brought up again (R224, R225, R233 to R238, R241, R246). -/
def Obligations.supervisionActs : Prop :=
  ∀ (src : PgSrc) (ch : Fin 32) (v : PgSight) (k k2 : Fin 64) (ks : List (Fin 64)) (h : Fin 16) (p : PlatPolicy) (b : Bool)
    (s : State),
    (s.chuck.policy = some p → s.pgSeen false (.chan ch) v = true → s.chuck.armed.contains ch = true →
      ((fins 64).all fun i => (p.outs[i]).pgSrc != some (.chan ch)) = true →
      (p.mons[ch]).monFail = .log → s.chuck.power = .run → s.mode ≠ .fault → NoChipReset 54 .ce s → LogRoom s →
      Completes (.supervisedFailure (.chan ch) v) s fun t =>
        t.chuck.monGood = s.chuck.monGood.set ch.val false ∧ Logged 0x0030 t ∧ t.weir.pending.getLsbD 54 = true ∧
          t.chuck.asserted = s.chuck.asserted ∧ t.chuck.hosts = s.chuck.hosts) ∧
    (s.chuck.policy = some p → s.pgSeen false src v = true → s.concerned p src = [k] → (p.outs[k]).pgFail = .host →
      (p.outs[k]).host = some h → s.hostIsDown h = false → s.chuck.hardBy = [] → s.chuck.power = .run → NoChipReset 54 .ucc s →
      Completes (.supervisedFailure src v) s fun t =>
        (t.host h).hold.power = true ∧ (t.host h).resetAsserted = true ∧ t.pgGood (some src) = false) ∧
    (s.chuck.main = .down (k :: k2 :: ks) b → Completes (.takeDownStep .main) s fun t =>
      t.chuck.main = .down (k2 :: ks) b ∧ t.chuck.asserted = s.chuck.asserted.set k.val false ∧ { t with chuck := s.chuck } = s) ∧
    (s.chuck.main = .down [k] b → Completes (.takeDownStep .main) s fun t =>
      t.chuck.main = (if b then .offTime else .off) ∧ HardCause.platform ∉ t.chuck.hardBy ∧ t.chuck.asserted[k] = false ∧
        { t with chuck := s.chuck, stolik := s.stolik } = s) ∧
    ((s.host h).run = .down (k :: k2 :: ks) b → Completes (.takeDownStep (.replay h)) s fun t =>
      (t.host h).run = .down (k2 :: ks) b ∧ t.chuck.asserted = s.chuck.asserted.set k.val false ∧
        { t with chuck := s.chuck } = s) ∧
    (s.chuck.cycling.contains k = true → s.chuck.asserted[k] = false → Completes (.cycleReassert k v) s fun t =>
      t.chuck.asserted = s.chuck.asserted.set k.val true ∧ t.chuck.cycling = s.chuck.cycling ∧
        t.chuck.order = s.chuck.order ∧ { t with chuck := s.chuck } = s) ∧
    (s.chuck.cycling.contains k = true → s.chuck.asserted[k] = true → s.pgMet k v = true →
      Completes (.cycleReassert k v) s fun t =>
        k ∈ t.chuck.supervised ∧ k ∉ t.chuck.cycling ∧ t.chuck.asserted = s.chuck.asserted ∧
          (s.outHost k = some h → (t.host h).hold.reseqCount = (s.host h).hold.reseqCount + 1) ∧ { t with chuck := s.chuck } = s) ∧
    ((s.host h).run = .off → s.mode = .firmware → s.chuck.hardBy = [] → s.chuck.policy = some p →
      (s.host h).waitLanes = false → Completes (.hostBringUp h) s fun t =>
        (t.host h).run ≠ .off ∧ (t.host h).resetAsserted = (s.host h).resetAsserted ∧ { t with chuck := s.chuck } = s)

/-- The program starts again after OFF_TIME, and at a START input that has stood for its debounce while the platform is off, with
every host in reset and PROGRAM set; a PLAT_FOLLOW event takes the platform down and holds HARD, which the net's rise ends; a
brown-out takes the platform down and limits the engines to those of VSB, and the return of VIN ends it; the loss of VSB is
logged, and the losses and returns of VSB and VIN are noted, with the regulator that feeds from the other, and VIN's return powers
the reserve of R326 (R211, R212, R224, R235, R239, R243, R244, R247, R326, R327). -/
def Obligations.restartsAndSupplies : Prop :=
  ∀ (k : Fin 64) (ticks : Nat) (p q : PlatPolicy) (s : State),
    let started := fun (t : State) => t.chuck.policy = some p ∧ AllHeld t ∧ ∀ h, (t.host h).hold.program = true
    (s.mode = .firmware → s.chuck.main = .offTime → s.chuck.hardBy = [] → s.chuck.reverify = false →
      storedPlatform s = some p → Completes .platformRestart s started) ∧
    (s.chuck.policy = some q → (q.ins[k]).kind = 3 → s.pgSeen true (.input k) (.ticks ticks) = true → s.platformOff = true →
      s.startable = true → s.chuck.power = .run → s.chuck.reverify = false → storedPlatform s = some p →
      Completes (.startInput k ticks) s started) ∧
    (s.chuck.policy = some q → q.follow = true → s.chuck.passedSync = true → s.chuck.platDrive = false →
      Completes .platFollowEvent s fun t =>
        AllHeld t ∧ (∀ h, (t.host h).hold.hard = true) ∧ t.chuck.platHigh = false ∧ HardCause.follow ∈ t.chuck.hardBy) ∧
    (s.chuck.following = true → s.chuck.platDrive = false → s.chuck.main = .off ∨ s.chuck.main = .offTime →
      Completes .platHoldHigh s fun t =>
        t.chuck.platHigh = true ∧ t.chuck.main = .offTime ∧ HardCause.follow ∉ t.chuck.hardBy ∧ { t with chuck := s.chuck } = s) ∧
    (s.powered = true → s.chuck.vin = true → s.chuck.mainFromVsb = false → Completes .brownOut s fun t =>
      AllHeld t ∧ (∀ h, (t.host h).hold.hard = true) ∧ t.chuck.vin = false ∧ t.chuck.mainFromVsb = true ∧
        (∀ i : Fin 32, 14 ≤ i.val → (t.riffle i).job = none) ∧ (∀ m : Fin 8, 2 ≤ m.val → (t.mandrel m).job = none)) ∧
    (s.powered = true → s.chuck.brownedOut = true → s.chuck.vin = true → s.chuck.main = .off →
      Completes .brownOutRecovery s fun t =>
        t.chuck.brownedOut = false ∧ HardCause.brownOut ∉ t.chuck.hardBy ∧ t.chuck.main = .offTime) ∧
    (s.powered = true → s.chuck.vsb = true → s.chuck.vin = true → LogRoom s → Completes .vsbLoss s fun t =>
      Logged 0x0001 t ∧ { t with nvm := s.nvm } = { s with chuck := { s.chuck with vsb := false, aonFromVin := true } }) ∧
    (s.chuck.power = .run → Completes .vinWindowEntry s fun t =>
      t.chuck.vin = true ∧ t.chuck.mainFromVsb = false ∧ 34 ∈ t.chuck.enginePd ∧ 46 ∈ t.chuck.enginePd ∧
        { t with chuck := s.chuck, conf := s.conf } = s) ∧
    (s.powered = true → s.chuck.vsb = false → exec .vsbWindowReturn s = .next { s with
      chuck := { s.chuck with vsb := true, aonFromVin := false } })

/-- Both supplies out leave the backup domain, NVM and the fuses, with every SEQ_OUT held by its pull-down, and its loss empties
the backup domain; IDLE is entered without work and left; RETAIN drops the Alias layer, K_seal, the sessions and unpinned pages,
and a source that wakes it lets the wake derive and draw anew; DEEP follows after DEEP_AFTER with the platform off, and the wake
from it is a CHIP reset with CAUSE OTHER; the wake timer and a near capture wake; an engine domain without work for 65,536 slow
ticks powers down, a Mandrel that holds a key being wiped first (R212, R214, R216 to R221, R326, R377, R418, R503, R504, R508 to
R511, R522, R565). -/
def Obligations.powerStates : Prop :=
  ∀ (p : PlatPolicy) (i : Fin 32) (m : Fin 8) (w : WakeSource) (s : State),
    (s.powered = true → Completes .backupEntry s fun t =>
      t.chuck.power = .backup ∧ t.mode = .held ∧ t.backup = s.backup ∧ t.fuses = s.fuses ∧ t.nvm.commit = s.nvm.commit ∧
        t.nvm.counters = s.nvm.counters ∧ ∀ k, t.seqOut k = .pullDown) ∧
    (s.chuck.power = .backup → Completes .backupLoss s fun t =>
      t.backup = Backup.reset ∧ (∀ k : Fin 12, (t.levee.kinds[k]).alarms = 0 ∧ (t.levee.kinds[k]).disagrees = 0) ∧
        t.nvm = s.nvm ∧ t.fuses = s.fuses) ∧
    (s.chuck.power = .run → s.noWork = true → exec .idleEntry s = .next { s with chuck := { s.chuck with power := .idle } }) ∧
    (s.chuck.power = .idle → exec .idleWake s = .next { s with chuck := { s.chuck with power := .run } }) ∧
    (s.maySleep = true → s.chuck.policy = some p → p.autoRetain = true → Completes .autoRetain s fun t =>
      t.chuck.power = .retain ∧ t.chuck.retainSince = s.tick ∧ t.conf.sessions = [] ∧ t.keys.cdiAlias = none ∧
        t.keys.kSeal = none ∧ (∀ x ∈ t.pages, s.pinned x = true) ∧
        (∀ n, (s.lane n).verify.pinPages = true → t.lane n = s.lane n) ∧ t.nvm = s.nvm) ∧
    (s.chuck.power = .retain → s.wakes false w = true → Completes (.retainWake w) s fun t =>
      t.chuck.power = .run ∧ t.keys.kSeal.isSome = true ∧ t.keys.sealSerial = 0 ∧ t.keys.batchOpen = true ∧
        t.chuck.reverify = true ∧ t.nvm = s.nvm) ∧
    (s.chuck.policy = some p → s.chuck.power = .retain → s.platformOff = true → p.deepAfter ≠ 0 →
      s.chuck.retainSince + p.deepAfter * 60 * ticksPerSec ≤ s.tick → Completes .deepAfterExpiry s fun t =>
        t.chuck.power = .deep ∧ t.mode = .held ∧ t.stolik.captures = [] ∧ t.backup = s.backup) ∧
    (s.chuck.power = .deep → s.wakes true w = true → Completes (.deepWake w) s fun t => t.weir.cause = 6 ∧ t.mode ≠ .firmware) ∧
    (s.chuck.power = .retain → s.wakeDue = true → Completes .wakeTimer s fun t =>
      t.chuck.power = .run ∧ t.chuck.wakeAt = none ∧ t.chuck.reverify = true) ∧
    (s.chuck.power = .idle → s.captureNear = true → exec .wakeTimer s = .next { s with
      chuck := { s.chuck with power := .run } }) ∧
    (11 ≤ i.val → s.domainIdle (.riffle i) = true →
      ((groupRiffles ((i.val - 8) / 3)).any fun j => (s.riffle j).job.isSome || !(s.riffle j).suspended.isEmpty) = false →
      Completes (.enginePowerDown (.riffle i)) s fun t =>
        34 + (i.val - 8) / 3 ∉ t.chuck.enginePd ∧
          { t with chuck := { t.chuck with enginePd := s.chuck.enginePd }, conf := s.conf } = s) ∧
    (m ≠ 4 → s.domainIdle (.mandrel m) = true → (s.mandrel m).job = none → (s.mandrel m).wiping = false →
      Completes (.enginePowerDown (.mandrel m)) s fun t =>
        ((s.mandrel m).secret = true → (t.mandrel m).wiping = true ∧ t.chuck = s.chuck) ∧
          ((s.mandrel m).secret = false → 42 + m.val ∉ t.chuck.enginePd ∧ t.mandrel m = (s.mandrel m).cleared))

/-! ### Updates, landing and activation (R250 to R273) -/

/-- An idle lock is released, and a transfer still receiving there ends; while no activation of the lane is under way, a window
whose staged roots are those of its manifest goes to LANDING, and one whose are not ends with BAD_SIGNATURE, and a landing whose
read-back proves leaves the image LANDED with its staged units freed; a component's image that fits its manifest is committed as
VALID in the copy that does not run, its selection as before, and one that does not fit ends with BAD_SIGNATURE (R249, R251, R257
to R259, R264, R265). -/
def Obligations.updateTransfersEnd : Prop :=
  ∀ (b : Byte) (n w : Fin 8) (c : Fin 4) (m : HostManifest) (cm : CompManifest) (mb rb : Bytes) (s : State),
    let code := (windowCode n w).toNat
    let x := s.target code
    let y := s.target (c.val + 1)
    ((s.target b.toNat).holder.isSome = true →
      ((s.target b.toNat).xfer = .none ∨ (s.target b.toNat).xfer = .receiving) →
      (s.target b.toNat).lastFrame + lockIdle ≤ s.tick → Completes (.updateLockIdle b) s fun t =>
        (t.target b.toNat).holder = none ∧ (t.target b.toNat).xfer = .none ∧ t.nvm.counters = s.nvm.counters) ∧
    (x.hostManifest = some m → x.xfer = .checking → s.laneActivating n = false →
      rootsMatch m ((s.lane n).remap[w]) (s.stagedImage n w) = true → Completes (.updateRootCheck n w) s fun t =>
        (t.win n w).phase = .landing ∧ (t.target code).xfer = .landing ∧ (t.target code).holder = x.holder ∧
          t.staging = s.staging) ∧
    (x.hostManifest = some m → x.xfer = .checking → s.laneActivating n = false →
      rootsMatch m ((s.lane n).remap[w]) (s.stagedImage n w) = false → Completes (.updateRootCheck n w) s fun t =>
        (t.target code).xfer = .none ∧ (t.target code).lastResult = .badSignature ∧ (t.target code).holder = none) ∧
    (x.hostManifest = some m → x.manifests.head? = some mb → x.xfer = .landing → (s.win n w).phase = .landing →
      s.inactiveOwned n w = true → s.laneActivating n = false → rootsMatch m ((s.lane n).remap[w]) rb = true →
      Completes (.landingComplete n w rb) s fun t =>
        (t.win n w).phase = .idle ∧ (t.win n w).inactive = .landed ∧
          (t.win n w).pendingId = BitVec.ofNat 32 m.manifestId.toNat ∧ (t.win n w).select = (s.win n w).select ∧
          (t.nvm.commit.lanes[n]).pendingValid = true ∧ t.stagedUnits n w = [] ∧ (t.target code).xfer = .none ∧
          (t.target code).holder = x.holder) ∧
    (y.xfer = .checking → y.manifests.head? = some mb → readComponent mb = some cm → imageFits cm y.data = true →
      Completes (.gatedSessionCommit (BitVec.ofNat 8 (c.val + 1))) s fun t =>
        (t.nvm.commit.comps[c]).copyState (s.writeCopy c) = .valid ∧ t.fwCopy c (s.writeCopy c) = ⟨y.data, mb, false⟩ ∧
          (t.nvm.commit.comps[c]).activeB = (s.nvm.commit.comps[c]).activeB ∧ (t.target (c.val + 1)).lastResult = .done ∧
          (t.target (c.val + 1)).holder = y.holder) ∧
    (y.xfer = .checking → y.manifests.head? = some mb → readComponent mb = some cm → imageFits cm y.data = false →
      Completes (.gatedSessionCommit (BitVec.ofNat 8 (c.val + 1))) s fun t =>
        (t.target (c.val + 1)).lastResult = .badSignature ∧ (t.target (c.val + 1)).holder = none)

/-- An activation whose inactive target proves goes on to the prestage, and one whose does not ends with the window's inactive
state UNKNOWN; the prestage writes the lane's entry on the Reservoir that RES_PREF does not name, begun and then ended by what is
read back, and the flip then waits; after the flip no counter falls and the follow writes the entry on the other Reservoir, with
which the activation ends; a refresh that is due starts, and ends as COMPLETE with GENERATION raised where the images of a set, or
the regions of a lane, are read back right (R260, R261, R270 to R273). -/
def Obligations.activationAdvances : Prop :=
  ∀ (n w : Fin 8) (a : Activation) (mb rb : Bytes) (rbs : List Bytes) (m : HostManifest) (x : Sel) (i : Nat) (e : DirEntry)
    (f : DirEntry → DirEntry) (s : State),
    (s.activationAt n w 2 = some a → s.incoming n = some (mb, m) → rootsMatch m ((s.lane n).remap[w]) rb = true →
      Completes (.activationPreflipCheck n w rb) s fun t =>
        (t.win n w).phase = .prestaging ∧ (∃ y, t.activationAt n w 3 = some y ∧ y.image = rb) ∧
          (t.win n w).select = (s.win n w).select) ∧
    (s.activationAt n w 2 = some a → s.incoming n = some (mb, m) → rootsMatch m ((s.lane n).remap[w]) rb = false →
      Completes (.activationPreflipCheck n w rb) s fun t =>
        (t.win n w).inactive = .unknown ∧ (∀ y ∈ t.stolik.activations, y.lane = n → y.window ≠ w) ∧
          (t.win n w).select = (s.win n w).select) ∧
    (s.activationAt n w 3 = some a → s.incoming n = some (mb, m) → x = otherSel (s.lane n).verify.resPref →
      s.resWritable x = true → s.laneEntryAt x n = some i → (s.res x).refreshing = none →
      s.laneWriting (otherSel x) n = false → Completes (.prestage n w rbs) s fun t =>
        (t.res x).refreshing = some i ∧ ((t.res x).dir[i]?).map (·.state) = some .writing ∧
          t.res (otherSel x) = s.res (otherSel x)) ∧
    (s.activationAt n w 3 = some a → s.incoming n = some (mb, m) → a.reseq = false →
      x = otherSel (s.lane n).verify.resPref → s.resWritable x = true → s.laneEntryAt x n = some i →
      (s.res x).refreshing = some i → (s.res x).dir[i]? = some e → readBackProves mb rbs = true →
      Completes (.prestage n w rbs) s fun t =>
        ((t.res x).dir[i]?).map (fun y => (y.state, y.generation, y.manifest)) = some (.complete, e.generation + 1, mb) ∧
          (t.res x).refreshing = none ∧ (t.activationAt n w 5).isSome = true) ∧
    ((s.win n w).phase = .flipped → Completes (.counterRaise n w) s fun t =>
      (t.win n w).phase = .following ∧ (∀ k : Fin 256, (s.nvm.counters[k]).toNat ≤ (t.nvm.counters[k]).toNat)) ∧
    ((s.win n w).phase = .following → s.activeManifest n = some mb → x = (s.lane n).verify.resPref →
      s.resWritable x = true → s.laneEntryAt x n = some i → (s.res x).refreshing = some i → (s.res x).dir[i]? = some e →
      readBackProves mb rbs = true → Completes (.follow n w rbs) s fun t =>
        ((t.res x).dir[i]?).map (fun y => (y.state, y.generation, y.manifest)) = some (.complete, e.generation + 1, mb) ∧
          (t.win n w).phase = .idle ∧ (∀ y ∈ t.stolik.activations, y.lane = n → y.window ≠ w)) ∧
    ((s.win n w).phase = .following → s.activeManifest n = some mb → (s.res (s.lane n).verify.resPref).present = false →
      Completes (.follow n w rbs) s fun t =>
        (t.win n w).phase = .idle ∧ (∀ y ∈ t.stolik.activations, y.lane = n → y.window ≠ w)) ∧
    (s.mode = .firmware → (s.res x).refreshing = none → (s.res (otherSel x)).refreshing = none →
      nextRefresh s = some (x, i, e) → Completes (.reservoirRefresh x rbs) s fun t =>
        (t.res x).refreshing = some i ∧ t.res (otherSel x) = s.res (otherSel x)) ∧
    (s.mode = .firmware → (s.res x).refreshing = some i → s.resWritable x = true → activationEntry s x i = false →
      (s.res x).dir[i]? = some e → entrySource s e = some f → e.isSet = true → (f e).comps.map Prod.snd = rbs →
      Completes (.reservoirRefresh x rbs) s fun t =>
        (t.res x).refreshing = none ∧
          (t.res x).dir[i]? = some (f { e with state := .complete, generation := e.generation + 1 }) ∧
          t.res (otherSel x) = s.res (otherSel x)) ∧
    (s.mode = .firmware → (s.res x).refreshing = some i → s.resWritable x = true → activationEntry s x i = false →
      (s.res x).dir[i]? = some e → entrySource s e = some f → e.isSet = false → e.index = n.val →
      readBackProves (f e).manifest rbs = true → Completes (.reservoirRefresh x rbs) s fun t =>
        (t.res x).refreshing = none ∧
          ((t.res x).dir[i]?).map (fun y => (y.state, y.generation, y.manifest)) =
            some (.complete, e.generation + 1, (f e).manifest) ∧
          t.res (otherSel x) = s.res (otherSel x))

/-- UPDATE_BEGIN locks its target and opens the transfer where the conditions of R253 to R255 hold, and is refused with its end
where they do not; a chunk is kept, that of a component in chunk order; UPDATE_END hands the transfer on to its check with an
operation; UPDATE_ABORT ends it; an activation of a host image and a repair are accepted as operations; ACTIVATE_COMPONENT names a
ROM extension's copy; DISCARD_STAGED frees the window's units (R249, R251 to R257, R260, R266, R276, R411, R412). -/
def Obligations.updateCommandsAnswer : Prop :=
  ∀ (r : Req) (s : State) (ch : Option Bytes) (n w : Fin 8) (k : Fin 4),
    let cmd := (callOf r).cmd
    let code := u8 cmd 0
    let u := begun cmdBegin r ch s
    (Admitted cmdBegin r s ch → targetKind code ≠ none → (u.target code).xfer = .none →
      (beginOk u cmd = true → streamBlocked u cmd = false → Completes (.updateBegin r) s fun t =>
        Answered r 0x0301 .done [] t ∧ (t.target code).holder = some r.port ∧ (t.target code).xfer = .receiving ∧
          (t.target code).imageLen = u32 cmd 4 ∧ (t.target code).chunks = []) ∧
      (beginOk u cmd = false → Completes (.updateBegin r) s fun t =>
        Answered r 0x0301 .deniedPolicy [] t ∧ (t.target code).holder = none ∧ (t.target code).xfer = .none)) ∧
    (Admitted cmdChunk r s ch → (s.target code).xfer = .receiving → (crc32c (cmd.drop 16)).toNat = u32 cmd 12 →
      chunkBeyond (s.target code) (u32 cmd 4) (cmd.length - 16) = false → targetKind code = some (.window n w) →
      (s.target code).streamed = false → Completes (.updateChunk r) s fun t =>
        Answered r 0x0302 .done [] t ∧ (u32 cmd 4, crc32c (cmd.drop 16), cmd.length - 16) ∈ (t.target code).chunks ∧
          (t.target code).lastFrame = s.tick) ∧
    (Admitted cmdChunk r s ch → (s.target code).xfer = .receiving → (crc32c (cmd.drop 16)).toNat = u32 cmd 12 →
      chunkBeyond (s.target code) (u32 cmd 4) (cmd.length - 16) = false → targetKind code = some (.component k) →
      u32 cmd 4 = (s.target code).chunks.length → Completes (.updateChunk r) s fun t =>
        Answered r 0x0302 .done [] t ∧ (t.target code).data = (s.target code).data ++ cmd.drop 16 ∧
          (u32 cmd 4, crc32c (cmd.drop 16), cmd.length - 16) ∈ (t.target code).chunks) ∧
    (Admitted cmdEnd r s ch → (s.target code).xfer = .receiving →
      ((s.target code).captured = true ∨ chunksWhole (s.target code) = true) → Completes (.updateEnd r) s fun t =>
        ∃ id : Word, Answered r 0x0303 .accepted (leBytes 4 id.toNat) t ∧ (t.target code).op = some id ∧
          (t.target code).xfer = if (s.target code).streamed then .landing else .checking) ∧
    (Admitted cmdAbort r s ch → Completes (.updateAbort r) s fun t =>
      Answered r 0x0304 .done [] t ∧ (t.target code).holder = none ∧ (t.target code).xfer = .none) ∧
    (Admitted cmdActivateHost r s ch → laneWindow cmd = some (n, w) → u8 cmd 2 = 0 →
      activationStep1 (acceptOp (callOf r) 0x0305 (begun cmdActivateHost r ch s)).2 n w false false = none →
      Completes (.activateHostImage r) s fun t =>
        ∃ a ∈ t.stolik.activations, a.lane = n ∧ a.window = w ∧ a.step = 2 ∧ a.now = false ∧
          Answered r 0x0305 .accepted (leBytes 4 a.op.toNat) t) ∧
    (Admitted cmdActivateComponent r s ch → code = 1 → componentStep1 (begun cmdActivateComponent r ch s) 0 (s.writeCopy 0) = none →
      Completes (.activateComponent r) s fun t =>
        Answered r 0x0306 .done [] t ∧ (t.nvm.commit.comps[(0 : Fin 4)]).activeB = s.writeCopy 0 ∧ t.nvm.commit.attempts = 0 ∧
          t.mode = s.mode) ∧
    (Admitted cmdDiscard r s ch → laneWindow cmd = some (n, w) → Completes (.discardStaged r) s fun t =>
      Answered r 0x0307 .done (leBytes 2 (s.stagedUnits n w).length ++ zeros 2) t ∧ t.stagedUnits n w = []) ∧
    (Admitted cmdRepairLane r s ch → code = n.val → s.reservoirServes n = true → Completes (.repairLane r) s fun t =>
      ∃ id : Word, Answered r 0x0308 .accepted (leBytes 4 id.toNat) t ∧ (t.lane n).repairLeft = s.repairable n)

/-! ### Attestation and quota (R292, R295 to R317, R413) -/

/-- A present component gets its EID and is discovered; an absent one is polled; absence makes the slot UNKNOWN and revokes its
token; an attestation's exchanges follow one another; a timeout ends it, the third quarantines an ADMITTED slot; a chain without
form refuses the slot, and a component that passes and matches an entry without a quota is ADMITTED; retries, periods and
discovery notices start an attestation (R298 to R303, R305, R317). -/
def Obligations.slotsAttest : Prop :=
  ∀ (i : Fin 1024) (c : SlotCfg) (p : AdmPolicy) (v : Byte) (b sig : Bytes) (pin : Bool) (chain : List ChainCert) (k : Nat) (a : AllowCfg)
    (s : State),
    let x := s.slot i
    let judged := fun (ders : Bytes) => (x.chainBytes.drop (x.chainBytes.length - ders.length) == ders) = true
    (s.slotCfg i = some c → s.controls c = true → (notePresence c pin s).presenceIn c = true → x.present = false →
      Completes (.slotPresent i pin) s fun t =>
        (t.slot i).present = true ∧ (t.slot i).phase = .discovery ∧ SentTo c (.setEndpointId (t.slot i).eid) t) ∧
    (s.slotCfg i = some c → s.controls c = true → (s.buses[(Fin.ofNat 16 c.bus : Fin 16)]).i3c = false → x.present = false →
      (Completes (.slotPoll i false pin) s fun t => SentTo c .poll t ∧ { t with buses := s.buses, chuck := s.chuck } = s) ∧
        ((notePresence c pin s).presenceIn c = true → Completes (.slotPoll i true pin) s fun t =>
          (t.slot i).present = true ∧ (t.slot i).phase = .discovery ∧ SentTo c (.setEndpointId (t.slot i).eid) t)) ∧
    (x.present = true → Completes (.slotAbsent i) s fun t =>
      (t.slot i).present = false ∧ (t.slot i).state = .unknown ∧ (t.slot i).componentId = [] ∧ (t.slot i).lease = none ∧
        Revoked i s t) ∧
    (s.slotCfg i = some c → s.controls c = true → x.present = true → x.phase = .discovery →
      Completes (.attestationResponse i (.discovery true)) s fun t => (t.slot i).phase = .negotiate ∧ SentTo c .getVersion t) ∧
    (s.slotCfg i = some c → s.controls c = true → x.present = true → x.phase = .negotiate → v = 0x12 ∨ v = 0x13 →
      Completes (.attestationResponse i (.settled v true 0b10 true true)) s fun t =>
        (t.slot i).phase = .digests ∧ SentTo c .getDigests t) ∧
    (s.slotCfg i = some c → s.controls c = true → x.present = true → x.phase = .measurements →
      Completes (.attestationResponse i (.measurements b sig)) s fun t => (t.slot i).phase = .judging ∧ (t.slot i).blocks = b) ∧
    (x.phase ≠ .idle → x.phase ≠ .judging → s.mode = .firmware → x.failures = 0 → Completes (.attestationTimeout i) s fun t =>
      (t.slot i).phase = .idle ∧ (t.slot i).failures = 1 ∧ (t.slot i).retryAt = s.time + 10 * nsPerSec ∧
        (t.slot i).state = x.state) ∧
    (x.phase ≠ .idle → x.phase ≠ .judging → s.mode = .firmware → x.failures = 2 → x.state = .admitted →
      Completes (.attestationTimeout i) s fun t =>
        (t.slot i).state = .quarantined ∧ (t.slot i).reason = rNoResponse ∧ (t.slot i).failures = 0 ∧ Revoked i s t) ∧
    (s.adm = some p → s.slotCfg i = some c → x.phase = .judging → s.mode = .firmware → x.state = .admitted →
      judged (chain.flatMap (·.der)) → chainFormOk chain = false →
      Completes (.attestationVerdict i chain true) s fun t =>
        (t.slot i).state = .refused ∧ (t.slot i).reason = rBadChain ∧ (t.slot i).phase = .idle ∧ Revoked i s t) ∧
    (s.adm = some p → s.slotCfg i = some c → x.phase = .judging → s.mode = .firmware → x.state = .unknown →
      judged (chain.flatMap (·.der)) → chainFormOk chain = true → x.componentId = [] → x.lease = none →
      p.roots.contains (sha384 (((chain.head?).map (·.der)).getD [])) = true →
      matchedEntry p c (readMeas 256 x.blocks) = some (k, a) → a.quota = 0 →
      rootAdmitted p (some (k, a)) (sha384 (((chain.head?).map (·.der)).getD [])) = true →
      Completes (.attestationVerdict i chain true) s fun t =>
        (t.slot i).state = .admitted ∧ (t.slot i).matched = some k ∧ (t.slot i).profile = a.profile ∧
          (t.slot i).componentId = hH (0x03 :: (((chain.getLast?).map (·.spki)).getD [])) ∧ (t.slot i).phase = .idle) ∧
    (s.slotCfg i = some c → x.present = true → s.mode = .firmware → x.state = .admitted → x.phase = .idle → 0 < x.failures →
      x.retryAt ≤ s.time → Completes (.attestRetry i) s fun t => (t.slot i).phase = .negotiate ∧ SentTo c .getVersion t) ∧
    (s.adm = some p → s.slotCfg i = some c → x.present = true → s.mode = .firmware → x.phase = .idle → x.nextAttest ≤ s.time →
      Completes (.reattest i) s fun t =>
        (t.slot i).phase = .negotiate ∧ (t.slot i).nextAttest = x.nextAttest + p.reattest * nsPerSec) ∧
    (s.slotCfg i = some c → x.present = true → s.mode = .firmware → x.phase ≠ .discovery →
      Completes (.discoveryNotify i) s fun t => (t.slot i).phase = .negotiate ∧ SentTo c .getVersion t)

/-- A granted claim admits an ATTESTED slot with its lease, a refused one repeats after 60 s; three claims without an answer leave
it COORDINATOR_UNREACHABLE; a renewal that is acknowledged moves the end of the lease; its end takes PROBATION's admission back;
the coordinator counts, renews, releases and reclaims leases; the owner quarantines, releases and re-attests slots (R303, R305,
R311 to R313, R413). -/
def Obligations.leasesAndSlotCommands : Prop :=
  ∀ (i : Fin 1024) (id lt : Word) (l : HeldLease) (q : Lease) (n : BitVec 12) (c : SlotCfg) (p : AdmPolicy) (r : Req)
    (ch : Option Bytes) (s : State),
    let x := s.slot i
    let cmd := (callOf r).cmd
    (x.state = .attested → x.claimOut = true → id ≠ 0 → Completes (.quotaAnswer i true id lt) s fun t =>
      (t.slot i).state = .admitted ∧ (t.slot i).claimOut = false ∧
        (t.slot i).lease = some ⟨id, x.claimSent + lt.toNat * nsPerSec, lt.toNat, s.time⟩) ∧
    (x.state = .attested → x.claimOut = true → Completes (.quotaAnswer i false id lt) s fun t =>
      (t.slot i).state = .attested ∧ (t.slot i).claimOut = false ∧ (t.slot i).claimAt = s.time + 60 * nsPerSec) ∧
    (s.mode = .firmware → x.state = .attested → x.claimAt ≤ s.time → x.claimOut = true → 3 ≤ x.claimTries →
      Completes (.quotaClaimRetry i) s fun t =>
        (t.slot i).reason = rUnreachable ∧ (t.slot i).claimOut = false ∧ (t.slot i).claimAt = s.time + 60 * nsPerSec) ∧
    (s.mode = .firmware → x.state = .attested → x.claimAt ≤ s.time → x.claimOut = false → s.slotCfg i = some c →
      s.adm = some p → s.coordinatorOf i = some n → n ≠ s.node → Completes (.quotaClaimRetry i) s fun t =>
        (t.slot i).claimOut = true ∧ (t.slot i).claimTries = x.claimTries + 1 ∧ (t.slot i).claimAt = s.time + 2 * nsPerSec) ∧
    (x.lease = some l → s.coordinatorOf i = some n → n ≠ s.node → s.mode = .firmware → x.state = .admitted →
      s.time < l.endsAt → l.renewedAt + l.leaseTime * nsPerSec / 4 ≤ s.time → Completes (.leaseRenew i true) s fun t =>
        (t.slot i).lease = some { l with endsAt := s.time + l.leaseTime * nsPerSec, renewedAt := s.time }) ∧
    (x.lease = some l → l.endsAt ≤ s.time → x.state = .admitted → x.probation = true → s.coordinatorOf i = some n →
      n ≠ s.node → Completes (.leaseEnd i) s fun t =>
        (t.slot i).state = .attested ∧ (t.slot i).lease = none ∧ Revoked i s t) ∧
    (Completes (.leaseReclaim id) s fun t =>
      ∀ y, y ∈ t.nvm.leases ↔ y ∈ s.nvm.leases ∧ ¬ (y.id = id ∧ y.renewedAt + (s.leaseTime * nsPerSec) * 257 / 256 ≤ s.time)) ∧
    (Admitted cmdQuotaClaim r s ch → s.coordinates (u16 cmd 0x20) = true →
      s.nvm.leases.find? (Claiming.same ⟨slice cmd 0 32, u16 cmd 0x20, holderAt cmd 0x22, u16 cmd 0x24, slice cmd 0x28 32⟩) = some q →
      Completes (.quotaClaim r) s fun t =>
        Answered r 0x0408 .done (leBytes 4 q.id.toNat ++ leBytes 4 s.leaseTime) t ∧
          ∃ y ∈ t.nvm.leases, y.id = q.id ∧ y.renewedAt = s.time) ∧
    (Admitted cmdQuotaClaim r s ch → s.coordinates (u16 cmd 0x20) = false → Completes (.quotaClaim r) s fun t =>
      Answered r 0x0408 .deniedPolicy [] t ∧ t.nvm = s.nvm) ∧
    (Admitted cmdQuotaRenew r s ch →
      s.nvm.leases.find? (fun y => y.id == BitVec.ofNat 32 (u32 cmd 0) && y.holder == holderAt cmd 4) = some q →
      s.coordinates q.fgroup = true → Completes (.quotaRenew r) s fun t =>
        Answered r 0x0409 .done [] t ∧ ∃ y ∈ t.nvm.leases, y.id = BitVec.ofNat 32 (u32 cmd 0) ∧ y.renewedAt = s.time) ∧
    (Admitted cmdQuotaRelease r s ch →
      (∀ y ∈ s.nvm.leases, y.id = BitVec.ofNat 32 (u32 cmd 0) → y.holder = holderAt cmd 4 → s.coordinates y.fgroup = true) →
      Completes (.quotaRelease r) s fun t =>
        Answered r 0x040A .done [] t ∧
          ∀ y, y ∈ t.nvm.leases ↔ y ∈ s.nvm.leases ∧ ¬ (y.id = BitVec.ofNat 32 (u32 cmd 0) ∧ y.holder = holderAt cmd 4)) ∧
    (Admitted (cmdSlotAny 0x0405) r s ch → slotOf s cmd = some i → Completes (.slotQuarantine r) s fun t =>
      Answered r 0x0405 .done [] t ∧ (t.slot i).state = .quarantined ∧ (t.slot i).reason = rOwner ∧ Revoked i s t) ∧
    (Admitted (cmdSlotAny 0x0406) r s ch → slotOf s cmd = some i → x.state = .quarantined → Completes (.slotRelease r) s fun t =>
      Answered r 0x0406 .done [] t ∧ (t.slot i).state = .unknown) ∧
    (Admitted (cmdSlotAny 0x0407) r s ch → slotOf s cmd = some i → x.present = true → x.phase = .idle →
      Completes (.slotReattest r) s fun t =>
        ∃ op : Word, Answered r 0x0407 .accepted (leBytes 4 op.toNat) t ∧ (t.slot i).phase = .negotiate ∧
          (t.slot i).op = some op)

/-- The SPDM responder on a bus in the target role: GET_VERSION answers 1.2 and 1.3, then capabilities, algorithms, the digest of
slot 0, certificate portions, a signed challenge and measurement blocks, each in its stage; before the Alias certificates a digest
request is answered Busy; the first five change nothing but the bus (R292, R295 to R297). -/
def Obligations.spdmResponds : Prop :=
  ∀ (r : SpdmReq) (v : Byte) (bs : List MeasBlock) (s : State),
    let out := fun (t : State) => (t.buses[r.bus]).spdmOut
    let stage := fun (t : State) => (t.buses[r.bus]).spdm.stage
    let only := fun (t : State) => { t with buses := s.buses } = s ∧ ∀ b, b ≠ r.bus → t.buses[b] = s.buses[b]
    (s.spdmServes r.bus = true → r.msg.getD 1 0 = 0x84 → r.msg.headD 0 = 0x10 → Completes (.spdmGetVersion r) s fun t =>
      out t = some [0x10, 0x04, 0, 0, 0, 2, 0x00, 0x12, 0x00, 0x13] ∧ stage t = 1 ∧ only t) ∧
    (spdmGate 0xE1 1 20 r s = .pass v → Completes (.spdmGetCapabilities r) s fun t =>
      out t = some ([v, 0x61, 0, 0, 0, 12, 0, 0] ++ leBytes 4 (spdmFlags v) ++ leBytes 4 1024 ++ leBytes 4 16384) ∧
        stage t = 2 ∧ (t.buses[r.bus]).spdm.version = v ∧ only t) ∧
    (spdmGate 0xE3 2 32 r s = .pass v → bit (u32 r.msg 8) 7 = true → bit (u32 r.msg 12) 1 = true → r.msg.getD 6 0 = 1 →
      Completes (.spdmNegotiateAlgorithms r) s fun t =>
        out t = some ([v, 0x63, 0, 0] ++ leBytes 2 36 ++ [1, 0] ++ leBytes 4 4 ++ leBytes 4 0x80 ++ leBytes 4 2 ++ zeros 16) ∧
          stage t = 3 ∧ only t) ∧
    (spdmGate 0x81 3 4 r s = .pass v → s.certsReady = true → Completes (.spdmGetDigests r) s fun t =>
      out t = some ([v, 0x01, if v = 0x13 then 1 else 0, 1] ++ sha384 (spdmChain s)) ∧ only t) ∧
    (spdmGate 0x81 3 4 r s = .pass v → s.certsReady = false → Completes (.spdmGetDigests r) s fun t =>
      out t = some [v, 0x7F, errBusy, 0] ∧ only t) ∧
    (spdmGate 0x82 3 8 r s = .pass v → s.certsReady = true → r.msg.getD 2 0 &&& 0x0F = 0 →
      u16 r.msg 4 < (spdmChain s).length → Completes (.spdmGetCertificate r) s fun t =>
        ∃ len rest, out t = some ([v, 0x02, 0, 0] ++ len ++ rest ++ slice (spdmChain s) (u16 r.msg 4) (u16 r.msg 6)) ∧
          len.length = 2 ∧ rest.length = 2 ∧ only t) ∧
    (spdmGate 0x83 3 36 r s = .pass v → s.certsReady = true → r.msg.getD 2 0 = 0 → r.msg.getD 3 0 = 0 →
      Completes (.spdmChallenge r) s fun t =>
        (∃ rest, out t = some ([v, 0x03, 0, 1] ++ sha384 (spdmChain s) ++ rest)) ∧ (t.buses[r.bus]).spdm.certs = [] ∧
          t.nvm = s.nvm ∧ t.snap = s.snap) ∧
    (bit (r.msg.getD 2 0).toNat 0 = false → spdmGate 0xE0 3 4 r s = .pass v →
      measWanted s.snap.blocks (r.msg.getD 3 0).toNat = some bs → s.certsReady = true →
      Completes (.spdmGetMeasurements r) s fun t =>
        (∃ n rest, out t = some ([v, 0x60, n, 0, BitVec.ofNat 8 bs.length] ++ leBytes 3 (bs.flatMap measBytes).length
          ++ bs.flatMap measBytes ++ rest)) ∧ t.nvm = s.nvm ∧ t.snap = s.snap ∧ t.conf = s.conf)

/-! ### Confluence (R320 to R384, R414, R595) -/

/-- A free engine in service takes the first eligible job and its domain is powered, a Mandrel with a wipe first where it holds a
secret; a digest ends with its answer, or with the length result where the bytes differ from those declared; a Mandrel's operation
ends with its result, and a check of the operation that fails on the second run with INVARIANT_FAIL and its event; a passed wipe
clears the operand memory's mark and a failed one powers the domain down with a FATAL event; an idle resident key is wiped; an
idle session closes; a due known-answer test enters class 4; a first length disagreement of an internal job is reported and the
job submitted again (R326, R328, R344, R347, R353, R361 to R377). -/
def Obligations.enginesWork : Prop :=
  ∀ (i : Fin 32) (m : Fin 8) (f : Fin 24) (j : Job) (p : Port) (ctx : Ctx) (data : Bytes) (k : Nat) (chk : Fin 11) (res : Res)
    (id : Word) (x : Session) (e : InnerEnd) (s : State),
    let answer := fun (t : State) (q : Res) (b : Bytes) => t.stolik.outbox.head? = some ⟨p, j.opcode, q, j.tag, b⟩
    let source := if i.val < 8 then i.val else 24 + (i.val - 8) / 3
    (noEngine s false = false → riffleUsable s i = true → (s.riffle i).job = none → (s.riffle i).suspended = [] →
      nextJob s (.riffle i) = some j → Completes (.jobDispatch (.riffle i)) s fun t =>
        (t.riffle i).job = some { j with ahead := false } ∧ t.conf.queue = s.conf.queue.erase j ∧
          34 + (i.val - 8) / 3 ∈ t.chuck.enginePd ∧ { t with conf := s.conf, chuck := s.chuck } = s) ∧
    (noEngine s true = false → mandrelUsable s m = true → (s.mandrel m).job = none → (s.mandrel m).wiping = false →
      nextJob s (.mandrel m) = some j → operandLength j.work = none → Completes (.jobDispatch (.mandrel m)) s fun t =>
        (t.mandrel m).job = some { j with ahead := false } ∧ t.conf.queue = s.conf.queue.erase j ∧
          (t.mandrel m).wiping = (s.chuck.enginePd.contains (42 + m.val) && (s.mandrel m).secret) ∧
          42 + m.val ∈ t.chuck.enginePd ∧ { t with conf := s.conf, chuck := s.chuck } = s) ∧
    ((s.riffle i).job = some j → j.work = .digest ctx data → j.port = some p →
      lengthResult ctx data.length data.length true = none → Completes (.riffleJobEnd i data.length none) s fun t =>
        (t.riffle i).job = none ∧ answer t .done (digestOut { ctx with absorbed := ctx.absorbed ++ data })) ∧
    ((s.riffle i).job = some j → j.work = .digest ctx data → j.port = some p → lengthResult ctx data.length k true = some res →
      Completes (.riffleJobEnd i k none) s fun t => (t.riffle i).job = none ∧ answer t res []) ∧
    ((s.mandrel m).job = some j → (s.mandrel m).wiping = false → j.port = some p → Completes (.mandrelJobEnd m none) s fun t =>
      (t.mandrel m).job = none ∧ answer t (mandrelResult j.work).1 (mandrelHead m j ++ (mandrelResult j.work).2)) ∧
    ((s.mandrel m).job = some j → (s.mandrel m).wiping = false → j.port = some p → j.runs = 2 → s.chuck.power = .run →
      checkApplies j.work chk.val = true → NoChipReset (Fin.ofNat 64 (32 + m.val)) .ucc s →
      Completes (.mandrelJobEnd m (some chk)) s fun t =>
        answer t .invariantFail (mandrelHead m j) ∧ t.weir.pending.getLsbD (32 + m.val) = true) ∧
    ((s.mandrel m).wiping = true → Completes (.checkedWipeEnd m true) s fun t =>
      (t.mandrel m).wiping = false ∧ (t.mandrel m).secret = false ∧ (t.mandrel m).job = (s.mandrel m).job ∧
        { t with conf := s.conf } = s) ∧
    ((s.mandrel m).wiping = true → (s.mandrel m).inService = true → s.mode = .firmware → s.chuck.power = .run →
      NoChipReset (Fin.ofNat 64 (32 + m.val)) .fatal s → Completes (.checkedWipeEnd m false) s fun t =>
        (t.mandrel m).inService = false ∧ 42 + m.val ∉ t.chuck.enginePd ∧ t.weir.pending.getLsbD (32 + m.val) = true) ∧
    ((s.mandrel m).secret = true → (s.mandrel m).job = none → (s.mandrel m).lastUse + 65536 ≤ s.tick →
      Completes (.keyResidencyTimeout m) s fun t => (t.mandrel m).wiping = true ∧ { t with conf := s.conf } = s) ∧
    (s.session id = some x → x.lastUse + 60 * ticksPerSec ≤ s.tick → Completes (.digestSessionTimeout id) s fun t =>
      t.session id = none ∧ t.nvm = s.nvm) ∧
    ((s.riffle ⟨8 + f.val, by omega⟩).inService = true → (s.riffle ⟨8 + f.val, by omega⟩).boundTo = none →
      (∀ y ∈ s.allJobs, ∀ g b, y.work ≠ .kat g b) → s.conf.lastKat[f] + 86400 * ticksPerSec ≤ s.tick →
      Completes (.rifflePeriodicKat f none) s fun t =>
        (∃ y, t.conf.queue = s.conf.queue ++ [y] ∧ y.cls = 4 ∧ y.port = none ∧ y.work = .kat ⟨8 + f.val, by omega⟩ none) ∧
          { t with conf := s.conf } = s) ∧
    ((s.riffle i).job = none → runsInner s i e.job = true → e.cut = false → k ≠ e.declared →
      (∀ y ∈ s.conf.lengths, y.1 ≠ e.job) → s.chuck.power = .run → NoChipReset (Fin.ofNat 64 source) .ucc s →
      Completes (.riffleJobEnd i k (some e)) s fun t =>
        (e.job, i) ∈ t.conf.lengths ∧ t.weir.pending.getLsbD source = true)

/-- DIGEST, the session commands and the public-key commands submit their job to class 3, and answer when it ends; DIGEST_START
and DIGEST_RESUME open a session at once; a session of none is ABORTED (R321, R352 to R356, R363, R414, R415, R595). -/
def Obligations.engineCommandsSubmit : Prop :=
  ∀ (r : Req) (s : State) (ch : Option Bytes) (x : Session) (cv : Curve) (l : Nat) (z : Nat × Nat) (kSeal : Bytes),
    let cmd := (callOf r).cmd
    let id : Word := BitVec.ofNat 32 (u32 cmd 0)
    let up := cmdSession 0x0503 (fun c => max 8 c.cmd.length) .update
    let fin_ := cmdSession 0x0504 (fun c => max 8 c.cmd.length) .finish
    let sus := cmdSession 0x0505 (fun _ => 8) fun id _ => .suspend id
    (Admitted cmdDigest r s ch → noEngine s false = false → Completes (.digest r) s fun t =>
      Submitted r 0x0501 (.digest (startCtx cmd (some (u32 cmd 8))) (cmd.drop (16 + u16 cmd 2))) s t) ∧
    (Admitted cmdDigestStart r s ch → Completes (.digestStart r) s fun t =>
      Answered r 0x0502 .done (leBytes 4 s.conf.nextSession.toNat) t ∧
        ∃ y ∈ t.conf.sessions, y.id = s.conf.nextSession ∧ y.port = r.port ∧ y.ctx.absorbed = []) ∧
    (Admitted up r s ch → s.session id = some x → noEngine s false = false → Completes (.digestUpdate r) s fun t =>
      Submitted r 0x0503 (.update id (cmd.drop 8)) s t) ∧
    (Admitted up r s ch → s.session id = none → Completes (.digestUpdate r) s fun t =>
      Answered r 0x0503 .aborted [] t ∧ t.conf = s.conf) ∧
    (Admitted fin_ r s ch → s.session id = some x → noEngine s false = false → Completes (.digestFinish r) s fun t =>
      Submitted r 0x0504 (.finish id (cmd.drop 8)) s t) ∧
    (Admitted sus r s ch → s.session id = some x → noEngine s false = false → Completes (.digestSuspend r) s fun t =>
      Submitted r 0x0505 (.suspend id) s t) ∧
    (Admitted cmdDigestResume r s ch → s.keys.kSeal = some kSeal → sealTag kSeal (cmd.take 0x1C0) = cmd.drop 0x1C0 →
      (u8 cmd 0x10, u16 cmd 0x12) = sealPort r.port → noSession s = false → Completes (.digestResume r) s fun t =>
        Answered r 0x0506 .done (leBytes 4 s.conf.nextSession.toNat) t ∧
          ∃ y ∈ t.conf.sessions, y.id = s.conf.nextSession ∧ y.port = r.port) ∧
    (Admitted cmdEcdsaVerify r s ch → curveOf (u8 cmd 0) = some cv → noEngine s true = false →
      Completes (.ecdsaVerify r) s fun t =>
        let n := coordBytes cv
        Submitted r 0x0507 (.ecdsa cv (slice cmd 16 (2 * n)) (slice cmd (16 + 2 * n) n) (slice cmd (16 + 3 * n) n)
          (cmd.drop (16 + 4 * n))) s t) ∧
    (Admitted cmdRsaVerify r s ch → rsaBytes (u8 cmd 0) = some l → noEngine s true = false →
      Completes (.rsaVerify r) s fun t => Submitted r 0x0508 (.rsa (slice cmd 4 l) (slice cmd (4 + l) l)) s t) ∧
    (Admitted cmdMldsaVerify r s ch → mldsaSizes (u8 cmd 0) = some z → noEngine s true = false →
      Completes (.mldsaVerify r) s fun t =>
        Submitted r 0x0509 (.mldsa (cmd.getD 0 0) (slice cmd 4 z.1) (slice cmd (4 + z.1) 64) (slice cmd (4 + z.1 + 64) z.2)) s t)

/-! ### Stolik: frames, objects and reading (R318, R389 to R393, R405, R409, R411, R413) -/

/-- A parked request starts when there is room; a frame that fails the first checks is answered with the failure payload; an
upload and a held object expire; GET_CERTIFICATES, GET_ADMISSION, GET_TOKEN and GET_EVIDENCE answer from what the device holds, as
do GET_UPDATE_STATUS, STAGE_STATUS and STAGE_DIGEST (R318, R389 to R393, R405, R409, R411, R413). -/
def Obligations.objectsAndFrames : Prop :=
  ∀ (r : Req) (s : State) (ch : Option Bytes) (bus : Fin 16) (port : Port) (w : Waiting) (f : Bytes) (ic : Bool) (res : Res)
    (o : Nat) (i : Fin 1024) (x : HeldObj) (n win : Fin 8) (kp : KeyPair),
    let cmd := (callOf r).cmd
    ((s.stolik.parked.find? fun y => y.port == .mb bus) = some w → s.deviceLoad < 1024 →
      Completes (.stolikRequestRelease (.mb bus)) s fun t =>
        t.stolik.waiting = s.stolik.waiting ++ [w] ∧ t.stolik.parked = s.stolik.parked.erase w ∧
          { t with stolik := s.stolik } = s) ∧
    (s.mode = .firmware → s.lanesPowered = true → portServed s (.mb bus) = true → frameFault f ic = some (res, o) →
      Completes (.stolikInvalidFrame (.mb bus) f ic) s fun t =>
        t.stolik.outbox.head? = some ⟨.mb bus, BitVec.ofNat 16 (u16 (padTo f 16) 0), res, BitVec.ofNat 32 (u32 (padTo f 16) 4),
          failPayload 0 o⟩ ∧ t.nvm = s.nvm) ∧
    (Completes (.structureUploadTimeout port) s fun t =>
      (∀ u, u ∈ t.stolik.uploads ↔ u ∈ s.stolik.uploads ∧ ¬ (u.port = port ∧ u.lastChunk + 60 * ticksPerSec ≤ s.tick)) ∧
        t.nvm = s.nvm) ∧
    (Completes .heldObjectExpiry s fun t =>
      ∀ y, y ∈ t.stolik.held ↔ y ∈ s.stolik.held ∧ s.tick < y.since + heldLife) ∧
    (Admitted cmdGetCertificates r s ch → u8 cmd 0 = 1 → Completes (.getCertificates r) s fun t =>
      Answered r 0x0401 .done (leBytes 4 s.nvm.gicDevice.length ++ zeros 4 ++ slice s.nvm.gicDevice (u32 cmd 4) chunkBytes) t ∧
        t.nvm = s.nvm) ∧
    (Admitted cmdGetAdmission r s ch → 1 ≤ u16 cmd 2 → u16 cmd 2 ≤ 512 → Completes (.getAdmission r) s fun t =>
      Answered r 0x0402 .done (leBytes 8 s.time ++ leBytes 2 (u16 cmd 0) ++ leBytes 2 (u16 cmd 2) ++ zeros 4
        ++ (List.range (u16 cmd 2)).flatMap fun k => slotEntry s (u16 cmd 0 + k)) t) ∧
    (Admitted cmdGetToken r s ch → u16 cmd 0 = i.val → (s.slot i).token ≠ [] → Completes (.getToken r) s fun t =>
      Answered r 0x0403 .done (s.slot i).token t) ∧
    (Admitted cmdGetEvidence r s ch → u32 cmd 0x20 ≠ 0 → s.heldObj false (u32 cmd 0x20) = some x →
      Completes (.getEvidence r) s fun t => Answered r 0x0404 .done (heldChunk x (u32 cmd 0x24)) t) ∧
    (Admitted cmdGetEvidence r s ch → u32 cmd 0x20 = 0 → s.aliasPair = some kp → Completes (.getEvidence r) s fun t =>
      ∃ y ∈ t.stolik.held, y.isExport = false ∧ y.data.take 4 = [0x47, 0x45, 0x42, 0x31] ∧
        slice y.data 0x10 32 = cmd.take 32 ∧ Answered r 0x0404 .done (heldChunk y 0) t) ∧
    (Admitted cmdUpdateStatus r s ch → Completes (.getUpdateStatus r) s fun t =>
      ∃ rest, Answered r 0x0309 .done (BitVec.ofNat 8 (u8 cmd 0) :: (match (s.target (u8 cmd 0)).holder with
        | none => 0xFF
        | some p => BitVec.ofNat 8 (portByte p)) :: rest) t ∧ rest.length = 22 ∧ t.nvm = s.nvm) ∧
    (Admitted cmdStageStatus r s ch → Completes (.stageStatus r) s fun t =>
      ∃ rest, Answered r 0x030A .done (leBytes 2 s.freeUnits ++ rest) t ∧ rest.length = 134 ∧ t.staging = s.staging) ∧
    (Admitted cmdStageDigest r s ch → laneWindow cmd = some (n, win) → Completes (.stageDigest r) s fun t =>
      Answered r 0x030B .done (hash .sha512t256 (s.stagedImage n win)) t ∧ t.staging = s.staging)

/-! ### Snapshots and the log (R405, R416, R479, R480, R519 to R524, R547, R548, R551) -/

/-- SNAPSHOT_COUNTERS schedules a capture as an operation, of this device or of the fabric; the capture fills a shadow set, its
copy a record, which GET_SNAPSHOT reads; LOG_READ gives entries and LOG_EXPORT a signed export, held (R405, R416, R417, R479,
R480, R520 to R523, R547). -/
def Obligations.snapshotsAndLog : Prop :=
  ∀ (r : Req) (s : State) (ch : Option Bytes) (c : Capture) (x : Shadow) (xs : List Shadow) (y : Snapshot) (kp : KeyPair),
    let cmd := (callOf r).cmd
    (Admitted cmdSnapshotAny r s ch → snapScope cmd = 0 → atRefused s (snapAt cmd) = false → captureRoom s = true →
      Completes (.snapshotCounters r) s fun t =>
        ∃ z ∈ t.stolik.captures, z.at_ = snapAt cmd ∧ z.fabric = false ∧ z.initiator = none ∧
          Answered r 0x0701 .accepted (leBytes 4 z.opId.toNat) t) ∧
    (Admitted cmdSnapshotAny r s ch → snapScope cmd = 1 → atRefused s (snapAt cmd) = false → captureRoom s = true →
      s.sourceNow = 2 → Completes (.snapshotCountersFabric r) s fun t =>
        ∃ z ∈ t.stolik.captures, z.at_ = (if snapAt cmd = 0 then s.time + 50000000 else snapAt cmd) ∧ z.fabric = true ∧
          z.initiator = none ∧ Answered r 0x0701 .accepted (leBytes 4 z.opId.toNat) t) ∧
    (firstCapture s.stolik.captures = some c → c.at_ ≤ s.time → s.lanesPowered = true → s.stolik.shadows.length < 2 →
      Completes .snapshotCapture s fun t =>
        t.stolik.captures = s.stolik.captures.erase c ∧
          (∃ b, t.stolik.shadows = s.stolik.shadows ++ [⟨c, b⟩] ∧ b.take 4 = [0x47, 0x53, 0x4E, 0x31]) ∧
          { t with stolik := s.stolik, free := s.free } = s) ∧
    (s.stolik.shadows = x :: xs → s.mode = .firmware → Completes .snapshotCopy s fun t =>
      t.stolik.shadows = xs ∧ ∃ z ∈ t.stolik.snapshots, z.opId = x.cap.opId ∧ z.record = x.record ∧ z.initiator = x.cap.initiator) ∧
    (Admitted cmdGetSnapshot r s ch → s.ownSnapshot (u32 cmd 0) = some y → u16 cmd 4 = s.node.toNat →
      Completes (.getSnapshot r) s fun t =>
        Answered r 0x0702 .done (leBytes 4 y.record.length ++ zeros 4 ++ slice y.record (u32 cmd 8 * chunkBytes) chunkBytes) t) ∧
    (Admitted cmdLogRead r s ch → 1 ≤ u16 cmd 8 → u16 cmd 8 ≤ 1023 → Completes (.logRead r) s fun t =>
      let first := max (u64 cmd 0) (logOldest s.nvm.log)
      let es := logFrom s.nvm.log first (u16 cmd 8)
      Answered r 0x0703 .done (leBytes 8 first ++ leBytes 2 es.length ++ zeros 6 ++ es.flatMap entryBytes) t ∧
        t.nvm = s.nvm) ∧
    (Admitted cmdLogExport r s ch → u32 cmd 0x2C = 0 → s.aliasPair = some kp → Completes (.logExport r) s fun t =>
      ∃ z ∈ t.stolik.held, z.isExport = true ∧ z.data.take 4 = [0x47, 0x4C, 0x45, 0x31] ∧ slice z.data 0x10 32 = cmd.take 32 ∧
        z.first = max (u64 cmd 0x20) (logOldest s.nvm.log) ∧ Answered r 0x0704 .done (heldChunk z (u32 cmd 0x30)) t)

/-- Another node's schedule is kept, its acknowledgement counted within 1 s; a fetch of a record that is not held is answered
ABORTED over the route; the data of a fetch answers the request that waits, and 2 s without it answer ABORTED; an alert raises its
interrupt and queues its entry (R547, R548, R551). -/
def Obligations.fabricSnapshots : Prop :=
  ∀ (k j : Fin 4) (src node : BitVec 12) (opId msgId total : Word) (at_ tm : Dword) (flags : Half) (chunk : Word)
    (d : Bytes) (kind det : Byte) (c : Capture) (x : Req × Word × Nat) (s : State),
    (s.fabricRuns = true → s.fabricLink k = true → src ≠ s.node → captureRoom s = true →
      Completes (.snapSchedule k src opId at_) s fun t =>
        t.stolik.captures = s.stolik.captures ++ [⟨opId, at_.toNat, true, some src, decide (at_.toNat < s.time), []⟩] ∧
        { t with stolik := s.stolik } = s) ∧
    (s.fabricRuns = true → s.inFabric = true → c ∈ s.stolik.captures → c.fabric = true → c.initiator = none → c.opId = opId →
      c.acks.contains node = false → s.time ≤ c.at_ + nsPerSec → Completes (.snapAck node opId flags) s fun t =>
        { c with acks := c.acks ++ [node] } ∈ t.stolik.captures ∧ { t with stolik := s.stolik } = s) ∧
    (s.fabricRuns = true → s.inFabric = true → node = s.node → s.fabric.duplicate = false → s.routeTo src = some j →
      (s.stolik.snapshots.find? fun y => y.initiator == some src && y.opId == opId) = none →
      Completes (.snapFetch src msgId opId node chunk) s fun t =>
        t.fabric.sent.head? = some ⟨j, originHdr s src false 6 msgId, snapDataBytes .aborted 0 []⟩ ∧
          { t with fabric := s.fabric } = s) ∧
    (s.fabricRuns = true → s.inFabric = true → (s.stolik.fetches.find? fun y => y.2.1 == msgId) = some x →
      Completes (.snapData src msgId .done total d) s fun t =>
        t.stolik.outbox.head? = some ⟨x.1.port, 0x0702, .done, x.1.tag, leBytes 4 total.toNat ++ zeros 4 ++ d⟩ ∧
          ∀ y ∈ t.stolik.fetches, y.2.1 ≠ msgId) ∧
    (Completes .snapFetchTimeout s fun t =>
      (∀ y, y ∈ t.stolik.fetches ↔ y ∈ s.stolik.fetches ∧ s.tick < y.2.2 + 2 * ticksPerSec) ∧
        ∀ y ∈ s.stolik.fetches, y.2.2 + 2 * ticksPerSec ≤ s.tick →
          ∃ q ∈ t.stolik.outbox, q.port = y.1.port ∧ q.tag = y.1.tag ∧ q.result = .aborted) ∧
    (s.fabricRuns = true → s.inFabric = true → LogRoom s → Completes (.alert src kind det tm) s fun t =>
      t.nvm.log.queue = [⟨s.time, 0x0090, 0x01, padTo (leBytes 2 src.toNat ++ [kind, det] ++ leBytes 8 tm.toNat) 12⟩] ∧
        t.fabric = { s.fabric with alertIrq := true } ∧ { t with nvm := s.nvm, fabric := s.fabric } = s)

/-! ### Platform, hosts, lanes, life cycle (R105, R106, R169, R176, R242, R418 to R421, R498 to R502, R506) -/

/-- PLATFORM_POWER starts the program, takes the platform down with OWNER on every host, or resets it; HOST_HOLD and HOST_RELEASE
set and clear the owner's hold; LANE_DENY_ALL sets and clears the owner's cause; LANE_RESET wipes the lane and takes its hosts
down; POWER_STATE enters RETAIN and DEEP after its answer (R105, R106, R216, R242, R243, R418, R419, R506, R509). -/
def Obligations.platformCommands : Prop :=
  ∀ (r : Req) (s : State) (ch : Option Bytes) (p : PlatPolicy) (h : Fin 16) (n : Fin 8),
    let cmd := (callOf r).cmd
    let accepted := fun (op : Nat) (t : State) => ∃ id : Word, Answered r op .accepted (leBytes 4 id.toNat) t
    (Admitted cmdPowerAny r s ch → u8 cmd 0 = 0 → (begun cmdPowerAny r ch s).platformOff = true → s.startable = true →
      storedPlatform s = some p → Completes (.platformPowerStart r) s fun t =>
        accepted 0x0801 t ∧ t.chuck.policy = some p ∧ AllHeld t ∧ ∀ k, (t.host k).hold.program = true) ∧
    (Admitted cmdPowerAny r s ch → u8 cmd 0 = 1 → Completes (.platformPowerDown r) s fun t =>
      accepted 0x0801 t ∧ AllHeld t ∧ ∀ k ∈ s.policyHosts, (t.host k).hold.owner = true) ∧
    (Admitted cmdPowerAny r s ch → u8 cmd 0 = 2 → Completes (.platformPowerReset r) s fun t =>
      accepted 0x0801 t ∧ AllHeld t ∧ t.nvm.counters = s.nvm.counters) ∧
    (Admitted cmdHostHold r s ch → s.namedHost cmd = some h → Completes (.hostHold r) s fun t =>
      Answered r 0x0802 .done (leBytes 4 (holdWord (t.host h).hold)) t ∧ (t.host h).resetAsserted = true ∧
        (t.host h).hold = { (s.host h).hold with owner := true }) ∧
    (Admitted cmdHostRelease r s ch → s.namedHost cmd = some h → Completes (.hostRelease r) s fun t =>
      Answered r 0x0803 .done (leBytes 4 (holdWord (t.host h).hold)) t ∧
        (t.host h).hold = { (s.host h).hold with
          mismatch := (s.host h).hold.mismatch && !bit (u8 cmd 1) 0
          owner := (s.host h).hold.owner && !bit (u8 cmd 1) 1
          power := (s.host h).hold.power && !bit (u8 cmd 1) 2 }) ∧
    (Admitted cmdLaneDeny r s ch → u8 cmd 0 = n.val → u8 cmd 1 = 1 → Completes (.laneDenyAllOn r) s fun t =>
      Answered r 0x0804 .done [] t ∧ (t.lane n).denyOwner = true ∧ (t.lane n).rules = (s.lane n).rules) ∧
    (Admitted cmdLaneDeny r s ch → u8 cmd 0 = n.val → u8 cmd 1 = 0 → Completes (.laneDenyAllOff r) s fun t =>
      Answered r 0x0804 .done [] t ∧ (t.lane n).denyOwner = false ∧ (t.lane n).rules = (s.lane n).rules) ∧
    (Admitted cmdLaneReset r s ch → u8 cmd 0 = n.val → Completes (.laneReset r) s fun t =>
      accepted 0x0805 t ∧ (t.lane n).epoch = (s.lane n).epoch + 1 ∧ (t.lane n).manifest = none ∧
        (∀ k, s.hostOn k n = true → (t.host k).resetAsserted = true ∧ (t.host k).hold.power = true)) ∧
    (Admitted cmdPowerState r s ch → u8 cmd 0 = 2 → (begun cmdPowerState r ch s).maySleep = true →
      Completes (.powerStateRetain r) s fun t =>
        Answered r 0x0806 .done [] t ∧ t.chuck.power = .retain ∧ t.keys.cdiAlias = none ∧
          t.chuck.wakeAt = if u32 cmd 4 = 0 then none else some (s.time + u32 cmd 4 * nsPerSec)) ∧
    (Admitted cmdPowerState r s ch → u8 cmd 0 = 3 → (begun cmdPowerState r ch s).maySleep = true →
      Completes (.powerStateDeep r) s fun t =>
        Answered r 0x0806 .done [] t ∧ t.chuck.power = .deep ∧ t.mode = .held)

/-- TAKE_OWNERSHIP writes its anchors and the OWNERSHIP word and resets the chip; SET_ANCHOR and RAISE_COUNTER change one anchor
and one counter, which never falls; a transition burns its fuses or clears the owner's stores; DEBUG_UNLOCK unlocks the port of a
RETURNED part; a peer's AUTH_KEY is kept; a debug instruction that the state does not admit runs as BYPASS with an event, the
others select their register, and the manufacturing test, the core's and the memory's instructions stop (R169, R176, R420, R421,
R498 to R502, R530). -/
def Obligations.ownershipAndDebug : Prop :=
  ∀ (r : Req) (s : State) (ch : Option Bytes) (i : Fin 4) (a : Anchor) (k : Fin 256) (lk : Fin 4) (key : AuthKey)
    (tgt : LifeCycle) (lvl : Level) (ti : TapInstr),
    let cmd := (callOf r).cmd
    (Admitted cmdTakeOwnership r s ch → payloadAnchors cmd ≠ [] → (payloadAnchors cmd).length ≤ 4 →
      (begun cmdTakeOwnership r ch s).platformOff = true → Completes (.takeOwnership r) s fun t =>
        t.nvm.ownedWord = true ∧ t.lc = deriveLc s.fuses true ∧ t.weir.cause = 6 ∧
          ∀ j : Fin 4, j.val < (payloadAnchors cmd).length → some t.nvm.anchors[j] = (payloadAnchors cmd)[j.val]?) ∧
    (Admitted cmdSetAnchor r s ch → u8 cmd 1 = 1 → newAnchor s cmd = some (i, a) → Completes (.setAnchorActive r) s fun t =>
      Answered r 0x0902 .done [] t ∧ t.nvm.anchors[i] = a ∧ (∀ j : Fin 4, j ≠ i → t.nvm.anchors[j] = s.nvm.anchors[j])) ∧
    (Admitted cmdSetAnchor r s ch → u8 cmd 1 = 2 → newAnchor s cmd = some (i, a) → Completes (.setAnchorRevoke r) s fun t =>
      Answered r 0x0902 .done [] t ∧ t.nvm.anchors[i] = a ∧ a.state = .revoked ∧
        (∀ j : Fin 4, j ≠ i → t.nvm.anchors[j] = s.nvm.anchors[j])) ∧
    (Admitted cmdRaiseCounter r s ch → u8 cmd 0 = k.val → 16 ≤ k.val → Completes (.raiseCounter r) s fun t =>
      (t.nvm.counters[k]).toNat = max (s.nvm.counters[k]).toNat (u32 cmd 4) ∧
        Answered r 0x0903 .done (leBytes 4 (t.nvm.counters[k]).toNat) t ∧
        (∀ j : Fin 256, j ≠ k → t.nvm.counters[j] = s.nvm.counters[j])) ∧
    (Admitted cmdLifecycle r s ch → s.transition cmd = some (tgt, lvl) → (begun cmdLifecycle r ch s).platformOff = true →
      Completes (.lifecycleTransition r) s fun t =>
        t.weir.cause = 6 ∧ t.keys.debugUnlocked = false ∧ t.stolik.ops = [] ∧
          (tgt = .unowned → t.nvm.ownedWord = false) ∧ (tgt = .returned → t.fuses.returned = true) ∧
          (tgt = .scrapped → t.fuses.scrapped = true ∧ t.fuses.udsDestroyed = true)) ∧
    (Admitted cmdDebugUnlock r s ch → Completes (.debugUnlock r) s fun t =>
      Answered r 0x0905 .done [] t ∧ t.keys.debugUnlocked = true ∧ t.nvm = s.nvm ∧ t.fuses = s.fuses) ∧
    ((s.link lk).st = .auth → Completes (.auth lk key) s fun t =>
      (t.link lk).peer = some key ∧ (t.link lk).seqRx = (s.link lk).seqRx + 1 ∧ { t with fabric := s.fabric } = s) ∧
    (s.chuck.power = .run → tapAdmits s ti = false → NoChipReset 60 .ucc s → Completes (.tapInstruction ti) s fun t =>
      t.keys.tapIr = .bypass ∧ t.weir.pending.getLsbD 60 = true) ∧
    (s.chuck.power = .run → tapAdmits s ti = true → ti ≠ .manufacturingTest → ti ≠ .coreHaltStep → ti ≠ .memoryAccess →
      exec (.tapInstruction ti) s = .next { s with keys := { s.keys with tapIr := ti } }) ∧
    (s.chuck.power = .run → tapAdmits s .manufacturingTest = true →
      exec (.tapInstruction .manufacturingTest) s = .fault .manufacturingTest) ∧
    (s.chuck.power = .run → tapAdmits s .coreHaltStep = true →
      exec (.tapInstruction .coreHaltStep) s = .refused .debugAccess ∧
        exec (.tapInstruction .memoryAccess) s = .refused .debugAccess)

/-! ### Levee, the log and the patrol (R452 to R473, R487 to R491, R517) -/

/-- An alarm is latched, counted and holds Virund in a CHIP reset, with the hard path at the wider scope, and an intrusion clears
the backup key; its release lets Virund start; a disagreement is counted and presented, or latched while Virund is held; a
periodic test keeps its results; in BACKUP an alarm has its four effects; VBAK_LOW writes an entry; a one in VALID clears the
record; the NVM controller writes the oldest entry into its chain, and keeps one that reads back wrong with an event; the
checkpoint holds device time; a patrolled word that is right changes nothing else, and one that is not loses what it held (R452 to
R466, R473, R487 to R491, R517). -/
def Obligations.leveeLogAndPatrol : Prop :=
  ∀ (c : LeveeCond) (k : Fin 12) (d1 f1 f2 : Bool) (mv : Half) (w : Dword) (q : LogReq) (rest : List LogReq) (pm : PatrolMem)
    (word : Word) (d : Dword) (chk : Byte) (leaf : Fin 8 × Fin 256 × Nat) (n : Fin 8) (s : State),
    (s.powered = true → s.alarms c = true → s.levee.holding = false → Completes (.leveeAlarm c) s fun t =>
      t.mode = .held ∧ t.levee.holding = true ∧ t.levee.alarm.valid = true ∧ t.levee.alarm.kinds.getLsbD c.kind.val = true ∧
        t.weir.cause = 3 ∧ t.keys.debugUnlocked = false ∧
        (t.levee.kinds[c.kind]).alarms = satAdd 8 (s.levee.kinds[c.kind]).alarms 1 ∧
        (intrusionKind c.kind = true → t.backup.key = zeros 32 ∧ t.backup.pending = true) ∧
        ((s.levee.kinds[c.kind]).scope = 2 → s.chuck.hardBy.contains (.startUp false) = false → AllHeld t)) ∧
    (s.powered = true → s.levee.holding = true → s.chuck.rstLow = true → Completes .leveeRelease s fun t =>
      t.levee.holding = false ∧ t.backup.encOpen = 0 ∧ t.mode = s.mode) ∧
    (s.powered = true → s.levee.holding = true → s.chuck.rstLow = false → Completes .leveeRelease s fun t =>
      t.levee.holding = false ∧ t.backup.encOpen = 0 ∧ t.mode ≠ .held ∧ t.mode ≠ .firmware) ∧
    (s.chuck.power = .run → s.mode ≠ .held → NoChipReset 59 .ucc s → Completes (.leveeDisagree k d1) s fun t =>
      (t.levee.kinds[k]).disagrees = satAdd 8 (s.levee.kinds[k]).disagrees 1 ∧ t.weir.pending.getLsbD 59 = true) ∧
    (s.chuck.power = .run → s.mode = .held → Completes (.leveeDisagree k d1) s fun t =>
      (t.levee.kinds[k]).disagrees = satAdd 8 (s.levee.kinds[k]).disagrees 1 ∧
        t.levee.latched = s.levee.latched ++ [(k, d1)] ∧ { t with levee := s.levee } = s) ∧
    (s.mode = .firmware → s.chuck.power = .run → s.levee.lastRound + testPeriod ≤ s.tick → s.leveeArmed k = true →
      NoChipReset 59 .ucc s → Completes (.leveePeriodicTest k f1 f2) s fun t =>
        (t.levee.kinds[k]).testD1Fail = f1 ∧ (t.levee.kinds[k]).testD2Fail = f2 ∧
          (t.levee.kinds[k]).lastTest = BitVec.ofNat 32 s.tick ∧ (f1 = true ∨ f2 = true → t.weir.pending.getLsbD 59 = true) ∧
          (f1 = false → f2 = false → t.weir = s.weir)) ∧
    (s.chuck.power = .backup → backupKind c.kind = true → s.alarms c = true → s.backup.buffer.length < backupEntries →
      (∀ e ∈ s.backup.buffer, e.kind ≠ c.kind) → Completes (.leveeBackupAlarm c) s fun t =>
        t.backup.key = zeros 32 ∧ t.backup.pending = true ∧ t.backup.buffer.length = s.backup.buffer.length + 1 ∧
          (t.backup.buffer.getLast?.map (·.kind)) = some c.kind ∧
          (t.levee.kinds[c.kind]).alarms = satAdd 8 (s.levee.kinds[c.kind]).alarms 1 ∧
          { t with backup := s.backup, levee := s.levee } = s) ∧
    (s.powered = true → LogRoom s → Completes (.vbakLow mv) s fun t =>
      Logged 0x0013 t ∧ t.backup = { s.backup with vbakLow := true } ∧ t.levee = s.levee) ∧
    (s.headstockRuns = true → bit w.toNat 38 = true →
      exec (.leveeAlarmClear w) s = .next { s with levee := { s.levee with alarm := .empty } }) ∧
    (s.nvmRuns = true → s.nvm.log.writing = none → s.nvm.log.queue = q :: rest → s.entryOpen q = false →
      Completes (.logEntryWrite true) s fun t =>
      t.nvm.log.queue = rest ∧ t.nvm.log.count = s.nvm.log.count + 1 ∧
        t.nvm.log.head = some (entryChain (headChain s) s.nvm.log.count q) ∧
        (t.nvm.log.entries.getLast?.map fun e => (e.number, e.type, e.data)) = some (s.nvm.log.count, q.type, q.data)) ∧
    (s.nvmRuns = true → s.nvm.log.writing = some q → s.chuck.power = .run → NoChipReset 61 .ucc s →
      Completes (.logEntryWrite false) s fun t =>
        t.nvm.log.writing = some q ∧ t.nvm.log.count = s.nvm.log.count ∧ t.weir.pending.getLsbD 61 = true) ∧
    (s.mode = .firmware → s.powered = true → s.tick % 65536 = 0 →
      exec .timeCheckpoint s = .next { s with nvm := { s.nvm with timeCheckpoint := BitVec.ofNat 64 s.time } }) ∧
    (s.chuck.power = .run → s.mode ≠ .held → readWord word.toNat d chk = .correct →
      exec (.patrolScrub pm word d chk leaf) s = .next { s with patrolled := s.patrolled + 1 }) ∧
    (s.chuck.power = .run → s.mode ≠ .held → readWord word.toNat d chk = .uncorrectable → NoChipReset 44 .ucc s →
      Completes (.patrolScrub (.nvmPolicyLane n) word d chk leaf) s fun t =>
        t.nvm.lanePolicy[n] = none ∧ t.weir.pending.getLsbD 44 = true ∧ t.nvm.counters = s.nvm.counters)

/-! ### The fabric (R525 to R546) -/

/-- A signal lets a link train; 64 valid sync headers lock its blocks and training blocks of SYNC leave; eight valid training
blocks take it to READY and eight of READY to AUTH, where AUTH_KEY is sent; a peer whose chain begins at the Identity Root and is
right makes the link UP with its membership and keys, and one whose signature is not takes it down, as a training timeout and a
lost lock do, with every route over it; it trains again; LEAVE takes it down; an ACK frees frames of the retry buffer, and a NAK
or a timeout resends the window; a frame whose CRC fails or that is not the next expected is answered with a NAK alone, and the
sixteenth TAG failure of 32,768 slow ticks takes the link down (R525 to R534, R537). -/
def Obligations.linksTrain : Prop :=
  ∀ (k : Fin 4) (headers : List (BitVec 2)) (prev : BitVec 58) (blk : LineBlock) (sw : Bool) (st : LState) (p : AuthKey)
    (kab kba : Bytes) (chain : List ChainCert) (next : Half) (h : RoutedHdr) (d : Bytes) (c : FrameCheck) (s : State),
    let l := s.link k
    let src : Fin 64 := Fin.ofNat 64 (50 + k.val)
    let sends := fun (x : LState) (t : State) => (t.link k).line.head? = some (trainingBlock x s.node s.assigned k)
    let fails := fun (i : Instr) => s.chuck.power = .run → NoChipReset src .ucc s → Completes i s fun t =>
      (t.link k).st = .down ∧ t.weir.pending.getLsbD (50 + k.val) = true ∧ ∀ r ∈ t.fabric.routes, r.hops[k] = none
    (s.chuck.power = .run → l.st = .down → s.fabricRuns = true → s.linkTrains k = true →
      Completes (.linkSignalDetect k) s fun t =>
        (t.link k).st = .signal ∧ (t.link k).signal = true ∧ { t with fabric := s.fabric } = s) ∧
    (l.st = .signal → headers.length = 64 → (∀ x ∈ headers, x = syncData ∨ x = syncControl) →
      Completes (.linkBlockLock k headers) s fun t =>
        (t.link k).st = .sync ∧ sends .sync t ∧ { t with fabric := s.fabric } = s) ∧
    (receiveTraining l.swapped prev blk = some (sw, st) → l.st = .sync → st ≠ .leave → 7 ≤ l.blocks →
      Completes (.linkTrainingBlock k prev blk) s fun t =>
        (t.link k).st = .ready ∧ (t.link k).blocks = 0 ∧ sends .ready t ∧ { t with fabric := s.fabric } = s) ∧
    (receiveTraining l.swapped prev blk = some (sw, st) → l.st = .sync → st ≠ .leave → l.blocks < 7 →
      Completes (.linkTrainingBlock k prev blk) s fun t =>
        (t.link k).st = .sync ∧ (t.link k).blocks = l.blocks + 1 ∧ sends .sync t ∧ { t with fabric := s.fabric } = s) ∧
    (receiveTraining l.swapped prev blk = some (sw, .ready) → l.st = .ready → 7 ≤ l.blocks →
      Completes (.linkTrainingBlock k prev blk) s fun t =>
        (t.link k).st = .auth ∧ (t.link k).retry = [(0x01, (t.link k).ours)] ∧ (t.link k).wire.length = 1 ∧
          { t with fabric := s.fabric, free := s.free } = s) ∧
    (receiveTraining l.swapped prev blk = none → Completes (.linkTrainingBlock k prev blk) s fun t =>
      t.link k = { l with blocks := 0 } ∧ { t with fabric := s.fabric } = s) ∧
    (l.st = .auth → l.peer = some p → s.fabricRuns = true → peerChainOk chain = true → linkKeys s l p = some (kab, kba) →
      Completes (.linkAuthComplete k chain true) s fun t =>
        (t.link k).st = .up ∧ (t.link k).member = some (membershipOf s p) ∧ (t.link k).keyAB = kab ∧ (t.link k).keyBA = kba ∧
          (t.link k).seqExt = 0) ∧
    (l.st = .auth → l.peer = some p → s.fabricRuns = true → fails (.linkAuthComplete k chain false)) ∧
    (l.st = .sync → fails (.linkTrainTimeout k)) ∧
    (l.st = .up → fails (.linkLockLoss k)) ∧
    (l.st = .down → l.signal = true → s.fabricRuns = true → s.linkTrains k = true → Completes (.linkRetrain k) s fun t =>
      (t.link k).st = .signal ∧ { t with fabric := s.fabric } = s) ∧
    (l.st = .up → Completes (.linkLeave k) s fun t =>
      (t.link k).st = .leave ∧ (t.link k).member = none ∧ { t with fabric := s.fabric } = s) ∧
    (l.carries = true → ackCount next l ≠ 0 → Completes (.ack k next) s fun t =>
      (t.link k).retry = l.retry.drop (ackCount next l) ∧
        (t.link k).ackedTo = l.ackedTo + BitVec.ofNat 16 (ackCount next l) ∧ (t.link k).resends = 0) ∧
    (l.carries = true → ackCount next l = 0 → l.retry ≠ [] → l.resends < 8 → Completes (.nak k next) s fun t =>
      (t.link k).retry = l.retry ∧ (t.link k).resends = l.resends + 1 ∧
        (t.link k).wire.length = l.wire.length + min 32 l.retry.length) ∧
    (l.carries = true → l.retry ≠ [] → l.resends < 8 → Completes (.linkRetryTimeout k) s fun t =>
      (t.link k).retry = l.retry ∧ (t.link k).resends = l.resends + 1 ∧
        (t.link k).wire.length = l.wire.length + min 32 l.retry.length) ∧
    (l.carries = true → s.fabricRuns = true → c ≠ .good → c ≠ .tag → Completes (.routed k h d c) s fun t =>
      t.link k = putFrame (linkFrame s.fuses.serial l 0x06 0 (l.seqExt + 2 ^ 63) []) l ∧ { t with fabric := s.fabric } = s) ∧
    (l.st = .up → s.fabricRuns = true → 15 ≤ (l.tagFails.filter fun x => decide (s.tick < x + 32768)).length →
      fails (.routed k h d .tag))

/-- An announcement is recorded with one hop more; this node announces itself on its FABRIC links; unheard entries expire; a
routed fragment goes on one hop fewer, or into reassembly at its destination, which times out; relayed requests wait at their
port, their responses reach the endpoint that asked, and a bridged message leaves for its node and times out (R536 to R542). -/
def Obligations.routesAndRelay : Prop :=
  ∀ (k j : Fin 4) (m : AnnounceMsg) (h : RoutedHdr) (d f : Bytes) (src n : BitVec 12) (msgId : Word) (b : Bridged)
    (bus : Fin 16) (ep eid : Byte) (s : State),
    (s.fabricRuns = true → s.fabricLink k = true → m.node ≠ s.node →
      (s.fabric.routes.find? fun r => r.node == m.node && r.serial == m.serial) = none → Completes (.announce k m) s fun t =>
        ∃ r ∈ t.fabric.routes, r.node = m.node ∧ r.serial = m.serial ∧ r.aseq = m.aseq ∧ r.timeRoot = m.timeRoot ∧
          r.hops[k] = some (m.hops.toNat + 1)) ∧
    (s.fabricRuns = true → s.inFabric = true → Completes .announcePeriod s fun t =>
      t.fabric.aseq = s.fabric.aseq + 1 ∧ (∀ i, s.fabricLink i = true →
        (t.link i).retry = (s.link i).retry ++
          [(0x03, announceBytes ⟨s.node, s.fabric.aseq + 1, 0, s.timeRoot, s.fuses.serial⟩)]) ∧ { t with fabric := s.fabric } = s) ∧
    (Completes .routeExpiry s fun t =>
      (∀ r ∈ t.fabric.routes, ∃ i : Fin 4, r.hops[i] ≠ none ∧ s.tick < r.heard[i] + 4 * ticksPerSec) ∧
        { t with fabric := s.fabric } = s) ∧
    (s.fabricRuns = true → s.fabricLink k = true → d.length ≤ fragBytes → h.flood = false → h.dst ≠ s.node → h.hopsLeft ≠ 0 →
      s.routeTo h.dst = some j → Completes (.routed k h d .good) s fun t =>
        t.fabric.sent.head? = some ⟨j, { h with hopsLeft := h.hopsLeft - 1 }, d⟩ ∧ { t with fabric := s.fabric } = s) ∧
    (s.fabricRuns = true → s.fabricLink k = true → d.length ≤ fragBytes → h.flood = false → h.dst = s.node → h.frag = 0 →
      h.last = false → (s.fabric.reasm.find? fun x => x.src == h.src && x.msgId == h.msgId) = none →
      s.fabric.reasm.length < reasmRoom → Completes (.routed k h d .good) s fun t =>
        t.fabric.reasm = s.fabric.reasm ++ [⟨h.src, h.msgId, k, h.service, d, 1, s.tick⟩]) ∧
    (Completes .reassemblyTimeout s fun t =>
      (∀ x, x ∈ t.fabric.reasm ↔ x ∈ s.fabric.reasm ∧ s.tick < x.firstTick + ticksPerSec) ∧ { t with fabric := s.fabric } = s) ∧
    (s.fabricRuns = true → s.fabricLink k = true → s.deviceLoad < 1024 → Completes (.relayRequest k src msgId f) s fun t =>
      t.stolik.waiting = s.stolik.waiting ++ [⟨.pl k src, f⟩] ∧
        (Port.pl k src, BitVec.ofNat 32 (u32 (padTo f 16) 4), msgId) ∈ t.stolik.relayed) ∧
    (s.fabricRuns = true → s.fabricLink k = true →
      (s.fabric.bridged.find? fun x => x.msgId == msgId && s.bridgeNode x.eid == some src) = some b →
      Completes (.relayResponse k src msgId f) s fun t =>
        (t.buses[b.bus]).bridgeOut = some (b.endpoint, b.eid, f) ∧ t.fabric.bridged = s.fabric.bridged.erase b) ∧
    (s.mode = .firmware → s.lanesPowered = true → (s.buses[bus]).role = 0b01 → s.bridgeNode eid = some n →
      Completes (.bridgeMessage bus ep eid f) s fun t =>
        t.fabric.bridged = s.fabric.bridged ++ [⟨bus, ep, eid, s.fabric.nextMsg, s.tick⟩] ∧ t.fabric.nextMsg = s.fabric.nextMsg + 1 ∧
        { t with fabric := s.fabric } = s) ∧
    (Completes .bridgeTimeout s fun t =>
      (∀ x, x ∈ t.fabric.bridged ↔ x ∈ s.fabric.bridged ∧ s.tick < x.sentTick + 5 * ticksPerSec) ∧
        { t with fabric := s.fabric } = s)

/-- A node asks its parent for the time; a parent answers with the times of the request's arrival and of its answer; an offset
above 1 µs steps device time, and any other is removed by rate (R543 to R545). -/
def Obligations.fabricTime : Prop :=
  ∀ (k : Fin 4) (root : BitVec 12) (rn : Nat) (m : TimeMsg) (arr : Dword) (s : State),
    let off := timeOffset m arr
    (s.fabricRuns = true → s.parent = some (root, k) → Completes .timeExchange s fun t =>
      t.fabric.syncId = s.fabric.syncId + 1 ∧ (∃ q, t.fabric.timeSent.head? = some (k, q) ∧ q.response = false ∧ q.root = root ∧
        q.syncId = s.fabric.syncId + 1 ∧ q.t1 = BitVec.ofNat 64 s.time16) ∧ t.time = s.time) ∧
    (s.fabricRuns = true → s.fabricLink k = true → m.response = false → s.timeRootNode = some rn →
      Completes (.time k m arr) s fun t =>
        (∃ q, t.fabric.timeSent.head? = some (k, q) ∧ q.response = true ∧ q.root = BitVec.ofNat 12 rn ∧ q.syncId = m.syncId ∧
          q.t1 = m.t1 ∧ q.t2 = arr ∧ q.t3 = BitVec.ofNat 64 s.time16) ∧ t.time = s.time) ∧
    (s.fabricRuns = true → s.fabricLink k = true → m.response = true → s.parent = some (root, k) → m.synced = true →
      m.root = root → m.syncId = s.fabric.syncId → off ≤ 16000 → Completes (.time k m arr) s fun t =>
        t.fabric.slew = off ∧ t.fabric.lastExchange = s.tick ∧ t.time = s.time ∧ { t with fabric := s.fabric } = s) ∧
    (s.fabricRuns = true → s.fabricLink k = true → m.response = true → s.parent = some (root, k) → m.synced = true →
      m.root = root → m.syncId = s.fabric.syncId → 16000 < off → Completes (.time k m arr) s fun t =>
        t.fabric.slew = 0 ∧ (t.time : Int) * 128 + t.timeFrac = s.time * 128 + s.timeFrac + off * 8)

/-! ### The block as a whole -/

/-- A step takes the command at the front of the queue and gives its effect with the queue's rest, for every command; on an empty
queue one slow tick passes (the model's own queue and its idle tick, log entry 1); no word spells a command. -/
def Obligations.stepRunsTheFrontCommand : Prop :=
  (∀ (c : Instr) (rest : List Instr) (s : State),
    step { s with pending := c :: rest } = exec c { s with pending := rest }) ∧
  (∀ s : State, s.pending = [] → ∃ t, step s = .next t ∧ t.tick = s.tick + 1 ∧ t.time ≥ s.time + 30487 ∧
    { t with tick := s.tick, time := s.time, timeFrac := s.timeFrac, fabric := { t.fabric with slew := s.fabric.slew } } = s) ∧
  ∀ (s : State) (nbits w : Nat), s.withFetchWord nbits w = s

/-- The state after reset meets the invariant, with nothing waiting, and every word of the block that R508 gives a POR value at
it: Weir, Levee and Confluence at their reset values, no lane verified, every host held in reset. -/
def Obligations.resetMeetsTheInvariant : Prop :=
  State.reset.Inv ∧ State.reset.pending = [] ∧ State.reset.weir = Weir.reset ∧ State.reset.levee = Levee.reset ∧
    State.reset.conf = Confluence.reset ∧ (∀ n, (State.reset.lane n).outcome = none) ∧ AllHeld State.reset

/-- Every step keeps the invariant: the scopes of R454 that are fixed, and the limits of the backup log buffer and the ring log. -/
def Obligations.stepKeepsTheInvariant : Prop :=
  ∀ s t : State, s.Inv → step s = .next t → t.Inv

/-- Device time never decreases, whatever a step does; a correction from fabric time that would lower it leaves it and is applied
as slew (R516). Where a POR follows a BACKUP-LOSS, device time is taken as the greater of the checkpoint's value and its own,
which by R518 is the checkpoint's (log entry 22). -/
def Obligations.deviceTimeNeverDecreases : Prop :=
  (∀ s t : State, step s = .next t → s.time ≤ t.time) ∧
  ∀ (k : Fin 4) (root : BitVec 12) (m : TimeMsg) (arr : Dword) (s : State),
    s.fabricRuns = true → s.fabricLink k = true → m.response = true → s.parent = some (root, k) → m.synced = true →
    m.root = root → m.syncId = s.fabric.syncId → timeOffset m arr < 0 → Completes (.time k m arr) s fun t =>
      t.time = s.time ∧ t.timeFrac = s.timeFrac ∧ t.fabric.slew = timeOffset m arr

/-- At a POR that finds the boot marker, device time resumes from the copy of the backup domain, and firmware writes it into
TIME_CHECKPOINT at every 65,536th slow tick and at no other (R517). -/
def Obligations.deviceTimeResumes : Prop :=
  (∀ (vsel : Vector Strap 22) (mb : Vector Strap 2) (pm : Strap) (s : State), s.backup.marker = bootMarker →
    Completes (.por vsel mb pm) s fun t => t.time = s.time ∧ t.timeFrac = s.timeFrac ∧ t.timeSource = s.timeSource) ∧
  ∀ s : State, s.mode = .firmware → s.powered = true →
    (s.tick % 65536 = 0 → Completes .timeCheckpoint s fun t =>
      t.nvm.timeCheckpoint = BitVec.ofNat 64 s.time ∧ { t with nvm := s.nvm } = s) ∧
    (s.tick % 65536 ≠ 0 → exec .timeCheckpoint s = .next s)

/-- No step lowers a counter of the firmware anchors or unburns a fuse, and no command touches the queue behind it. -/
def Obligations.nothingGoesBack : Prop :=
  (∀ s t : State, step s = .next t → OneWay s t) ∧
  (∀ (c : Instr) (s t : State), exec c s = .next t → t.pending = s.pending)
end

