-- ==== Sys2Proof/Laws/Cells.lean ====
section
/-! SUPPORT. Vectors with one entry changed, and the captured bytes of a tracker: every operation on them keeps the
strictly rising order of offsets, and reads back what it wrote. -/
namespace Sys2Proof.Machine
open Sys2Proof

/-! ### Vectors -/

@[simp] theorem vmod_same {α : Type} {n : Nat} (v : Vector α n) (i : Fin n) (f : α → α) : (vmod v i f)[i] = f v[i] := by
  simp [vmod]

theorem vmod_other {α : Type} {n : Nat} (v : Vector α n) {i j : Fin n} (f : α → α) (h : j ≠ i) :
    (vmod v i f)[j] = v[j] := by
  have h1 : i.val ≠ j.val := fun e => h (Fin.ext e.symm)
  simp [vmod, h1]

@[simp] theorem vmap_at {α β : Type} {n : Nat} (v : Vector α n) (f : α → β) (i : Fin n) : (vmap v f)[i] = f v[i] := by
  simp [vmap]

@[simp] theorem vmapI_at {α β : Type} {n : Nat} (v : Vector α n) (f : Fin n → α → β) (i : Fin n) :
    (vmapI v f)[i] = f i v[i] := by
  simp [vmapI]

@[simp] theorem lane_modLane_same (s : State) (n : Fin 8) (f : Lane → Lane) : (s.modLane n f).lane n = f (s.lane n) :=
  vmod_same _ _ _

theorem lane_modLane_other (s : State) {n m : Fin 8} (f : Lane → Lane) (h : m ≠ n) : (s.modLane n f).lane m = s.lane m :=
  vmod_other _ _ h

/-! ### Captured bytes (R119, R124) -/

/-- Offsets below every entry. -/
def headAbove (a : Nat) : List Host.Cell → Prop
  | [] => True
  | c :: _ => a < c.1

theorem cellsWf_cons {c : Host.Cell} {r : List Host.Cell} : cellsWf (c :: r) = true ↔ headAbove c.1 r ∧ cellsWf r = true := by
  cases r <;> simp [cellsWf, headAbove]

theorem headAbove_cellSet {x a : Nat} {b : Byte} {m : List Host.Cell} (h : headAbove x m) (hx : x < a) :
    headAbove x (cellSet m a b) := by
  cases m with
  | nil => simpa [cellSet, headAbove] using hx
  | cons c r =>
    simp only [cellSet]
    split
    · simpa [headAbove] using hx
    · split
      · simpa [headAbove] using hx
      · simpa [headAbove] using h

theorem cellSet_wf {a : Nat} {b : Byte} {m : List Host.Cell} (h : cellsWf m = true) : cellsWf (cellSet m a b) = true := by
  induction m with
  | nil => simp [cellSet, cellsWf]
  | cons c r ih =>
    rw [cellsWf_cons] at h
    simp only [cellSet]
    split
    · next hlt => rw [cellsWf_cons, cellsWf_cons]; exact ⟨hlt, h⟩
    · split
      · next he => rw [cellsWf_cons]; subst he; exact h
      · next hn he => rw [cellsWf_cons]; exact ⟨headAbove_cellSet h.1 (by omega), ih h.2⟩

theorem cellSets_wf {m : List Host.Cell} (a : Nat) (d : Bytes) (h : cellsWf m = true) : cellsWf (cellSets m a d) = true := by
  induction d generalizing m a with
  | nil => exact h
  | cons b bs ih => exact ih _ (cellSet_wf h)

theorem coverNew_wf {m : List Host.Cell} (a : Nat) (d : Bytes) (h : cellsWf m = true) : cellsWf (coverNew m a d) = true := by
  induction d generalizing m a with
  | nil => exact h
  | cons b bs ih =>
    refine ih _ ?_
    split
    · exact h
    · exact cellSet_wf h

theorem cellGet_headAbove {x a : Nat} {m : List Host.Cell} (h : headAbove x m) (w : cellsWf m = true) (ha : a ≤ x) :
    cellGet m a = none := by
  cases m with
  | nil => rfl
  | cons c r =>
    have h1 : x < c.1 := h
    induction r generalizing c with
    | nil => simp [cellGet]; omega
    | cons d r ih =>
      rw [cellsWf_cons] at w
      have h2 : c.1 < d.1 := w.1
      have h3 := ih d (show x < d.1 by omega) w.2 (by omega)
      rw [cellGet, if_neg (by omega)]
      exact h3

/-- The byte written is read back. -/
@[simp] theorem cellGet_cellSet_same (m : List Host.Cell) (a : Nat) (b : Byte) : cellGet (cellSet m a b) a = some b := by
  induction m with
  | nil => simp [cellSet, cellGet]
  | cons c r ih =>
    simp only [cellSet]
    split
    · simp [cellGet]
    · split
      · simp [cellGet]
      · next h1 h2 => rw [cellGet, if_neg h2]; exact ih

/-- Every other offset reads as before. -/
theorem cellGet_cellSet_other {m : List Host.Cell} {a x : Nat} (b : Byte) (h : x ≠ a) :
    cellGet (cellSet m a b) x = cellGet m x := by
  induction m with
  | nil => simp [cellSet, cellGet]; omega
  | cons c r ih =>
    simp only [cellSet]
    split
    · rw [cellGet, if_neg (fun e => h e.symm)]
    · split
      · next he => simp only [cellGet, he]; rw [if_neg (fun e => h e.symm), if_neg (fun e => h e.symm)]
      · rw [cellGet, cellGet, ih]

theorem cellSet_above {m : List Host.Cell} {a : Nat} (b : Byte) (h : ∀ c ∈ m, c.1 < a) : cellSet m a b = m ++ [(a, b)] := by
  induction m with
  | nil => rfl
  | cons c r ih =>
    have h1 : c.1 < a := h c (by simp)
    rw [cellSet, if_neg (by omega), if_neg (by omega), ih fun x hx => h x (by simp [hx])]
    rfl

theorem cellGet_above {m : List Host.Cell} {a : Nat} (h : ∀ c ∈ m, c.1 < a) : cellGet m a = none := by
  induction m with
  | nil => rfl
  | cons c r ih =>
    have h1 : c.1 < a := h c (by simp)
    rw [cellGet, if_neg (by omega), ih fun x hx => h x (by simp [hx])]

/-- A capture above every offset captured so far adds each of its bytes (R119). -/
theorem coverNew_length {m : List Host.Cell} {a : Nat} (d : Bytes) (h : ∀ c ∈ m, c.1 < a) :
    (coverNew m a d).length = m.length + d.length := by
  induction d generalizing m a with
  | nil => rfl
  | cons b bs ih =>
    rw [coverNew, cellGet_above h, cellSet_above b h]
    rw [ih]
    · simp; omega
    · intro c hc
      simp at hc
      rcases hc with hc | rfl
      · exact Nat.lt_succ_of_lt (h c hc)
      · simp

end Sys2Proof.Machine
end

