-- ==== Sys2Proof/Laws/Host.lean ====
section
/-! SUPPORT. What the frame of a host transaction does, once for all the commands of a lane: a transaction that passes is
decided, one that is refused is answered by its refusal, and one that is not answered changes the lane's answer alone. -/
namespace Sys2Proof.Machine
open Sys2Proof

/-- A transaction that passes is decided. -/
theorem guarded_passed {c : OpClass} {t : Txn} {s : State} (h : Passed c t s) (u : Option Nat) (no : Nat → State → State)
    (go : State → State) : guarded c t u no go s = .next (go s) := by
  have h' : gate c t s = (.pass, s) := h
  simp only [guarded, h']

/-- A transaction that the checks refuse is answered by its refusal, and meets the faults of its lookup. -/
theorem guarded_refused {c : OpClass} {t : Txn} {s s' : State} {r : Nat} (h : gate c t s = (.refuse r, s')) (u : Option Nat)
    (no : Nat → State → State) (go : State → State) : guarded c t u no go s = .next (lookFaults t u (no r s')) := by
  simp only [guarded, h]

/-- A transaction that is not answered changes the lane's answer alone. -/
theorem guarded_silent {c : OpClass} {t : Txn} {s s' : State} (h : gate c t s = (.silent, s')) (u : Option Nat)
    (no : Nat → State → State) (go : State → State) : guarded c t u no go s = .next (noAnswer t.lane s') := by
  simp only [guarded, h]

/-- A step of the Spindles while they run, and of one that serves its lane. -/
theorem whileRunning_true {s : State} (h : s.spindlesRun = true) (o : Host.Outcome State Fault Refusal) :
    whileRunning s o = o := if_pos h

theorem whileServing_true {n : Fin 8} {s : State} (h : s.spindleServes n = true) (o : Host.Outcome State Fault Refusal) :
    whileServing n s o = o := if_pos h

/-- An answer changes one lane alone. -/
theorem onlyLane_modLane (n : Fin 8) (f : Lane → Lane) (s : State) : OnlyLane n s (s.modLane n f) := by
  refine ⟨rfl, fun k hk => ?_⟩
  have h : n.val ≠ k.val := fun e => hk (Fin.ext e.symm)
  simp [State.modLane, State.lane, vmod, h]

end Sys2Proof.Machine
end

