-- ==== Sys2Proof/Laws/Serve.lean ====
section
/-! SUPPORT. What the service of a Stolik request does, once for all commands. -/
namespace Sys2Proof.Machine
open Sys2Proof

/-- The fragments of a message leave without touching Stolik's own state. -/
theorem foldl_sendRoutedOn_stolik (k : Fin 4) (l : List (RoutedHdr × Bytes)) (s : State) :
    (l.foldl (fun s x => sendRoutedOn k x.1 x.2 s) s).stolik = s.stolik := by
  induction l generalizing s with
  | nil => rfl
  | cons x xs ih =>
    rw [List.foldl_cons, ih]
    rfl

theorem sendRouted_stolik (d : BitVec 12) (n : Nat) (m : Word) (b : Bytes) (s : State) :
    (sendRouted d n m b s).stolik = s.stolik := by
  unfold sendRouted
  split
  · rfl
  · split
    · rfl
    · exact foldl_sendRoutedOn_stolik _ _ _

theorem relayOut_outbox (r : Resp) (s : State) : (relayOut r s).stolik.outbox = s.stolik.outbox := by
  unfold relayOut
  split
  · split
    · rfl
    · rw [sendRouted_stolik]; rfl
  · rfl

theorem sendResp_outbox (r : Resp) (s : State) : (sendResp r s).stolik.outbox = r :: s.stolik.outbox := by
  unfold sendResp
  split <;> rfl

/-- An answer is the latest response. -/
theorem reply_outbox (p : Port) (op : Nat) (tag : Word) (r : Res) (b : Bytes) (s : State) :
    (reply p op tag r b s).stolik.outbox = ⟨p, BitVec.ofNat 16 op, r, tag, b⟩ :: s.stolik.outbox := by
  unfold reply
  rw [relayOut_outbox, respond, sendResp_outbox]

@[simp] theorem Call.reply_outbox (c : Call) (op : Nat) (r : Res) (b : Bytes) (s : State) :
    (c.reply op r b s).stolik.outbox = ⟨c.port, BitVec.ofNat 16 op, r, c.tag, b⟩ :: s.stolik.outbox :=
  Machine.reply_outbox _ _ _ _ _ _

/-- An admitted request executes its command. -/
theorem serve_admitted {c : Cmd} {r : Req} {s : State} {ch : Option Bytes} (h : Admitted c r s ch) :
    serve c r s = c.run (callOf r) (begun c r ch s) := by
  obtain ⟨h1, h2, h3, h4⟩ := h
  have h5 : ¬ ((!s.received r.port (reqFrame c r)) = true ∧ 1024 ≤ s.deviceLoad) := by
    rintro ⟨a, b⟩
    rcases h2 with h2 | h2
    · simp [h2] at a
    · omega
  unfold serve
  simp only [callOf] at h1 h4 ⊢
  simp only [h1, h5, h3, h4, if_false, Bool.not_true, Bool.false_eq_true, begun, callOf]

end Sys2Proof.Machine
end

