-- ==== Sys2Proof/Laws/State.lean ====
section
/-! SUPPORT. What each named update of State leaves as it was, one lemma for each field, so that no later proof unfolds a
record update. -/
namespace Sys2Proof.Machine
open Sys2Proof

/-! ### State.modLane -/

@[simp] theorem State.modLane_pending (s : State) (n : Fin 8) (f : Lane → Lane) :
    (s.modLane n f).pending = s.pending := rfl
@[simp] theorem State.modLane_free (s : State) (n : Fin 8) (f : Lane → Lane) : (s.modLane n f).free = s.free := rfl
@[simp] theorem State.modLane_tick (s : State) (n : Fin 8) (f : Lane → Lane) : (s.modLane n f).tick = s.tick := rfl
@[simp] theorem State.modLane_time (s : State) (n : Fin 8) (f : Lane → Lane) : (s.modLane n f).time = s.time := rfl
@[simp] theorem State.modLane_timeFrac (s : State) (n : Fin 8) (f : Lane → Lane) :
    (s.modLane n f).timeFrac = s.timeFrac := rfl
@[simp] theorem State.modLane_timeSource (s : State) (n : Fin 8) (f : Lane → Lane) :
    (s.modLane n f).timeSource = s.timeSource := rfl
@[simp] theorem State.modLane_mode (s : State) (n : Fin 8) (f : Lane → Lane) : (s.modLane n f).mode = s.mode := rfl
@[simp] theorem State.modLane_warm (s : State) (n : Fin 8) (f : Lane → Lane) : (s.modLane n f).warm = s.warm := rfl
@[simp] theorem State.modLane_planned (s : State) (n : Fin 8) (f : Lane → Lane) :
    (s.modLane n f).planned = s.planned := rfl
@[simp] theorem State.modLane_running (s : State) (n : Fin 8) (f : Lane → Lane) :
    (s.modLane n f).running = s.running := rfl
@[simp] theorem State.modLane_romextRan (s : State) (n : Fin 8) (f : Lane → Lane) :
    (s.modLane n f).romextRan = s.romextRan := rfl
@[simp] theorem State.modLane_t1 (s : State) (n : Fin 8) (f : Lane → Lane) : (s.modLane n f).t1 = s.t1 := rfl
@[simp] theorem State.modLane_lc (s : State) (n : Fin 8) (f : Lane → Lane) : (s.modLane n f).lc = s.lc := rfl
@[simp] theorem State.modLane_lanes (s : State) (n : Fin 8) (f : Lane → Lane) :
    (s.modLane n f).lanes = vmod s.lanes n f := rfl
@[simp] theorem State.modLane_engines (s : State) (n : Fin 8) (f : Lane → Lane) :
    (s.modLane n f).engines = s.engines := rfl
@[simp] theorem State.modLane_replacedEngines (s : State) (n : Fin 8) (f : Lane → Lane) :
    (s.modLane n f).replacedEngines = s.replacedEngines := rfl
@[simp] theorem State.modLane_mirror (s : State) (n : Fin 8) (f : Lane → Lane) :
    (s.modLane n f).mirror = s.mirror := rfl
@[simp] theorem State.modLane_pages (s : State) (n : Fin 8) (f : Lane → Lane) : (s.modLane n f).pages = s.pages := rfl
@[simp] theorem State.modLane_cacheBanks (s : State) (n : Fin 8) (f : Lane → Lane) :
    (s.modLane n f).cacheBanks = s.cacheBanks := rfl
@[simp] theorem State.modLane_staging (s : State) (n : Fin 8) (f : Lane → Lane) :
    (s.modLane n f).staging = s.staging := rfl
@[simp] theorem State.modLane_resA (s : State) (n : Fin 8) (f : Lane → Lane) : (s.modLane n f).resA = s.resA := rfl
@[simp] theorem State.modLane_resB (s : State) (n : Fin 8) (f : Lane → Lane) : (s.modLane n f).resB = s.resB := rfl
@[simp] theorem State.modLane_chuck (s : State) (n : Fin 8) (f : Lane → Lane) : (s.modLane n f).chuck = s.chuck := rfl
@[simp] theorem State.modLane_fuses (s : State) (n : Fin 8) (f : Lane → Lane) : (s.modLane n f).fuses = s.fuses := rfl
@[simp] theorem State.modLane_nvm (s : State) (n : Fin 8) (f : Lane → Lane) : (s.modLane n f).nvm = s.nvm := rfl
@[simp] theorem State.modLane_keys (s : State) (n : Fin 8) (f : Lane → Lane) : (s.modLane n f).keys = s.keys := rfl
@[simp] theorem State.modLane_backup (s : State) (n : Fin 8) (f : Lane → Lane) :
    (s.modLane n f).backup = s.backup := rfl
@[simp] theorem State.modLane_weir (s : State) (n : Fin 8) (f : Lane → Lane) : (s.modLane n f).weir = s.weir := rfl
@[simp] theorem State.modLane_levee (s : State) (n : Fin 8) (f : Lane → Lane) : (s.modLane n f).levee = s.levee := rfl
@[simp] theorem State.modLane_conf (s : State) (n : Fin 8) (f : Lane → Lane) : (s.modLane n f).conf = s.conf := rfl
@[simp] theorem State.modLane_stolik (s : State) (n : Fin 8) (f : Lane → Lane) :
    (s.modLane n f).stolik = s.stolik := rfl
@[simp] theorem State.modLane_adm (s : State) (n : Fin 8) (f : Lane → Lane) : (s.modLane n f).adm = s.adm := rfl
@[simp] theorem State.modLane_fabric (s : State) (n : Fin 8) (f : Lane → Lane) :
    (s.modLane n f).fabric = s.fabric := rfl
@[simp] theorem State.modLane_buses (s : State) (n : Fin 8) (f : Lane → Lane) : (s.modLane n f).buses = s.buses := rfl
@[simp] theorem State.modLane_node (s : State) (n : Fin 8) (f : Lane → Lane) : (s.modLane n f).node = s.node := rfl
@[simp] theorem State.modLane_assigned (s : State) (n : Fin 8) (f : Lane → Lane) :
    (s.modLane n f).assigned = s.assigned := rfl
@[simp] theorem State.modLane_linkEn (s : State) (n : Fin 8) (f : Lane → Lane) :
    (s.modLane n f).linkEn = s.linkEn := rfl
@[simp] theorem State.modLane_timeRoot (s : State) (n : Fin 8) (f : Lane → Lane) :
    (s.modLane n f).timeRoot = s.timeRoot := rfl
@[simp] theorem State.modLane_eidBase (s : State) (n : Fin 8) (f : Lane → Lane) :
    (s.modLane n f).eidBase = s.eidBase := rfl
@[simp] theorem State.modLane_bridge (s : State) (n : Fin 8) (f : Lane → Lane) :
    (s.modLane n f).bridge = s.bridge := rfl
@[simp] theorem State.modLane_snap (s : State) (n : Fin 8) (f : Lane → Lane) : (s.modLane n f).snap = s.snap := rfl
@[simp] theorem State.modLane_tempWarning (s : State) (n : Fin 8) (f : Lane → Lane) :
    (s.modLane n f).tempWarning = s.tempWarning := rfl
@[simp] theorem State.modLane_defects (s : State) (n : Fin 8) (f : Lane → Lane) :
    (s.modLane n f).defects = s.defects := rfl
@[simp] theorem State.modLane_patrolled (s : State) (n : Fin 8) (f : Lane → Lane) :
    (s.modLane n f).patrolled = s.patrolled := rfl

/-! ### State.modLanes -/

@[simp] theorem State.modLanes_pending (s : State) (f : Fin 8 → Lane → Lane) :
    (s.modLanes f).pending = s.pending := rfl
@[simp] theorem State.modLanes_free (s : State) (f : Fin 8 → Lane → Lane) : (s.modLanes f).free = s.free := rfl
@[simp] theorem State.modLanes_tick (s : State) (f : Fin 8 → Lane → Lane) : (s.modLanes f).tick = s.tick := rfl
@[simp] theorem State.modLanes_time (s : State) (f : Fin 8 → Lane → Lane) : (s.modLanes f).time = s.time := rfl
@[simp] theorem State.modLanes_timeFrac (s : State) (f : Fin 8 → Lane → Lane) :
    (s.modLanes f).timeFrac = s.timeFrac := rfl
@[simp] theorem State.modLanes_timeSource (s : State) (f : Fin 8 → Lane → Lane) :
    (s.modLanes f).timeSource = s.timeSource := rfl
@[simp] theorem State.modLanes_mode (s : State) (f : Fin 8 → Lane → Lane) : (s.modLanes f).mode = s.mode := rfl
@[simp] theorem State.modLanes_warm (s : State) (f : Fin 8 → Lane → Lane) : (s.modLanes f).warm = s.warm := rfl
@[simp] theorem State.modLanes_planned (s : State) (f : Fin 8 → Lane → Lane) :
    (s.modLanes f).planned = s.planned := rfl
@[simp] theorem State.modLanes_running (s : State) (f : Fin 8 → Lane → Lane) :
    (s.modLanes f).running = s.running := rfl
@[simp] theorem State.modLanes_romextRan (s : State) (f : Fin 8 → Lane → Lane) :
    (s.modLanes f).romextRan = s.romextRan := rfl
@[simp] theorem State.modLanes_t1 (s : State) (f : Fin 8 → Lane → Lane) : (s.modLanes f).t1 = s.t1 := rfl
@[simp] theorem State.modLanes_lc (s : State) (f : Fin 8 → Lane → Lane) : (s.modLanes f).lc = s.lc := rfl
@[simp] theorem State.modLanes_lanes (s : State) (f : Fin 8 → Lane → Lane) :
    (s.modLanes f).lanes = vmapI s.lanes f := rfl
@[simp] theorem State.modLanes_engines (s : State) (f : Fin 8 → Lane → Lane) :
    (s.modLanes f).engines = s.engines := rfl
@[simp] theorem State.modLanes_replacedEngines (s : State) (f : Fin 8 → Lane → Lane) :
    (s.modLanes f).replacedEngines = s.replacedEngines := rfl
@[simp] theorem State.modLanes_mirror (s : State) (f : Fin 8 → Lane → Lane) : (s.modLanes f).mirror = s.mirror := rfl
@[simp] theorem State.modLanes_pages (s : State) (f : Fin 8 → Lane → Lane) : (s.modLanes f).pages = s.pages := rfl
@[simp] theorem State.modLanes_cacheBanks (s : State) (f : Fin 8 → Lane → Lane) :
    (s.modLanes f).cacheBanks = s.cacheBanks := rfl
@[simp] theorem State.modLanes_staging (s : State) (f : Fin 8 → Lane → Lane) :
    (s.modLanes f).staging = s.staging := rfl
@[simp] theorem State.modLanes_resA (s : State) (f : Fin 8 → Lane → Lane) : (s.modLanes f).resA = s.resA := rfl
@[simp] theorem State.modLanes_resB (s : State) (f : Fin 8 → Lane → Lane) : (s.modLanes f).resB = s.resB := rfl
@[simp] theorem State.modLanes_chuck (s : State) (f : Fin 8 → Lane → Lane) : (s.modLanes f).chuck = s.chuck := rfl
@[simp] theorem State.modLanes_fuses (s : State) (f : Fin 8 → Lane → Lane) : (s.modLanes f).fuses = s.fuses := rfl
@[simp] theorem State.modLanes_nvm (s : State) (f : Fin 8 → Lane → Lane) : (s.modLanes f).nvm = s.nvm := rfl
@[simp] theorem State.modLanes_keys (s : State) (f : Fin 8 → Lane → Lane) : (s.modLanes f).keys = s.keys := rfl
@[simp] theorem State.modLanes_backup (s : State) (f : Fin 8 → Lane → Lane) : (s.modLanes f).backup = s.backup := rfl
@[simp] theorem State.modLanes_weir (s : State) (f : Fin 8 → Lane → Lane) : (s.modLanes f).weir = s.weir := rfl
@[simp] theorem State.modLanes_levee (s : State) (f : Fin 8 → Lane → Lane) : (s.modLanes f).levee = s.levee := rfl
@[simp] theorem State.modLanes_conf (s : State) (f : Fin 8 → Lane → Lane) : (s.modLanes f).conf = s.conf := rfl
@[simp] theorem State.modLanes_stolik (s : State) (f : Fin 8 → Lane → Lane) : (s.modLanes f).stolik = s.stolik := rfl
@[simp] theorem State.modLanes_adm (s : State) (f : Fin 8 → Lane → Lane) : (s.modLanes f).adm = s.adm := rfl
@[simp] theorem State.modLanes_fabric (s : State) (f : Fin 8 → Lane → Lane) : (s.modLanes f).fabric = s.fabric := rfl
@[simp] theorem State.modLanes_buses (s : State) (f : Fin 8 → Lane → Lane) : (s.modLanes f).buses = s.buses := rfl
@[simp] theorem State.modLanes_node (s : State) (f : Fin 8 → Lane → Lane) : (s.modLanes f).node = s.node := rfl
@[simp] theorem State.modLanes_assigned (s : State) (f : Fin 8 → Lane → Lane) :
    (s.modLanes f).assigned = s.assigned := rfl
@[simp] theorem State.modLanes_linkEn (s : State) (f : Fin 8 → Lane → Lane) : (s.modLanes f).linkEn = s.linkEn := rfl
@[simp] theorem State.modLanes_timeRoot (s : State) (f : Fin 8 → Lane → Lane) :
    (s.modLanes f).timeRoot = s.timeRoot := rfl
@[simp] theorem State.modLanes_eidBase (s : State) (f : Fin 8 → Lane → Lane) :
    (s.modLanes f).eidBase = s.eidBase := rfl
@[simp] theorem State.modLanes_bridge (s : State) (f : Fin 8 → Lane → Lane) : (s.modLanes f).bridge = s.bridge := rfl
@[simp] theorem State.modLanes_snap (s : State) (f : Fin 8 → Lane → Lane) : (s.modLanes f).snap = s.snap := rfl
@[simp] theorem State.modLanes_tempWarning (s : State) (f : Fin 8 → Lane → Lane) :
    (s.modLanes f).tempWarning = s.tempWarning := rfl
@[simp] theorem State.modLanes_defects (s : State) (f : Fin 8 → Lane → Lane) :
    (s.modLanes f).defects = s.defects := rfl
@[simp] theorem State.modLanes_patrolled (s : State) (f : Fin 8 → Lane → Lane) :
    (s.modLanes f).patrolled = s.patrolled := rfl

/-! ### State.modChuck -/

@[simp] theorem State.modChuck_pending (s : State) (f : Chuck → Chuck) : (s.modChuck f).pending = s.pending := rfl
@[simp] theorem State.modChuck_free (s : State) (f : Chuck → Chuck) : (s.modChuck f).free = s.free := rfl
@[simp] theorem State.modChuck_tick (s : State) (f : Chuck → Chuck) : (s.modChuck f).tick = s.tick := rfl
@[simp] theorem State.modChuck_time (s : State) (f : Chuck → Chuck) : (s.modChuck f).time = s.time := rfl
@[simp] theorem State.modChuck_timeFrac (s : State) (f : Chuck → Chuck) : (s.modChuck f).timeFrac = s.timeFrac := rfl
@[simp] theorem State.modChuck_timeSource (s : State) (f : Chuck → Chuck) :
    (s.modChuck f).timeSource = s.timeSource := rfl
@[simp] theorem State.modChuck_mode (s : State) (f : Chuck → Chuck) : (s.modChuck f).mode = s.mode := rfl
@[simp] theorem State.modChuck_warm (s : State) (f : Chuck → Chuck) : (s.modChuck f).warm = s.warm := rfl
@[simp] theorem State.modChuck_planned (s : State) (f : Chuck → Chuck) : (s.modChuck f).planned = s.planned := rfl
@[simp] theorem State.modChuck_running (s : State) (f : Chuck → Chuck) : (s.modChuck f).running = s.running := rfl
@[simp] theorem State.modChuck_romextRan (s : State) (f : Chuck → Chuck) :
    (s.modChuck f).romextRan = s.romextRan := rfl
@[simp] theorem State.modChuck_t1 (s : State) (f : Chuck → Chuck) : (s.modChuck f).t1 = s.t1 := rfl
@[simp] theorem State.modChuck_lc (s : State) (f : Chuck → Chuck) : (s.modChuck f).lc = s.lc := rfl
@[simp] theorem State.modChuck_lanes (s : State) (f : Chuck → Chuck) : (s.modChuck f).lanes = s.lanes := rfl
@[simp] theorem State.modChuck_engines (s : State) (f : Chuck → Chuck) : (s.modChuck f).engines = s.engines := rfl
@[simp] theorem State.modChuck_replacedEngines (s : State) (f : Chuck → Chuck) :
    (s.modChuck f).replacedEngines = s.replacedEngines := rfl
@[simp] theorem State.modChuck_mirror (s : State) (f : Chuck → Chuck) : (s.modChuck f).mirror = s.mirror := rfl
@[simp] theorem State.modChuck_pages (s : State) (f : Chuck → Chuck) : (s.modChuck f).pages = s.pages := rfl
@[simp] theorem State.modChuck_cacheBanks (s : State) (f : Chuck → Chuck) :
    (s.modChuck f).cacheBanks = s.cacheBanks := rfl
@[simp] theorem State.modChuck_staging (s : State) (f : Chuck → Chuck) : (s.modChuck f).staging = s.staging := rfl
@[simp] theorem State.modChuck_resA (s : State) (f : Chuck → Chuck) : (s.modChuck f).resA = s.resA := rfl
@[simp] theorem State.modChuck_resB (s : State) (f : Chuck → Chuck) : (s.modChuck f).resB = s.resB := rfl
@[simp] theorem State.modChuck_chuck (s : State) (f : Chuck → Chuck) : (s.modChuck f).chuck = f s.chuck := rfl
@[simp] theorem State.modChuck_fuses (s : State) (f : Chuck → Chuck) : (s.modChuck f).fuses = s.fuses := rfl
@[simp] theorem State.modChuck_nvm (s : State) (f : Chuck → Chuck) : (s.modChuck f).nvm = s.nvm := rfl
@[simp] theorem State.modChuck_keys (s : State) (f : Chuck → Chuck) : (s.modChuck f).keys = s.keys := rfl
@[simp] theorem State.modChuck_backup (s : State) (f : Chuck → Chuck) : (s.modChuck f).backup = s.backup := rfl
@[simp] theorem State.modChuck_weir (s : State) (f : Chuck → Chuck) : (s.modChuck f).weir = s.weir := rfl
@[simp] theorem State.modChuck_levee (s : State) (f : Chuck → Chuck) : (s.modChuck f).levee = s.levee := rfl
@[simp] theorem State.modChuck_conf (s : State) (f : Chuck → Chuck) : (s.modChuck f).conf = s.conf := rfl
@[simp] theorem State.modChuck_stolik (s : State) (f : Chuck → Chuck) : (s.modChuck f).stolik = s.stolik := rfl
@[simp] theorem State.modChuck_adm (s : State) (f : Chuck → Chuck) : (s.modChuck f).adm = s.adm := rfl
@[simp] theorem State.modChuck_fabric (s : State) (f : Chuck → Chuck) : (s.modChuck f).fabric = s.fabric := rfl
@[simp] theorem State.modChuck_buses (s : State) (f : Chuck → Chuck) : (s.modChuck f).buses = s.buses := rfl
@[simp] theorem State.modChuck_node (s : State) (f : Chuck → Chuck) : (s.modChuck f).node = s.node := rfl
@[simp] theorem State.modChuck_assigned (s : State) (f : Chuck → Chuck) : (s.modChuck f).assigned = s.assigned := rfl
@[simp] theorem State.modChuck_linkEn (s : State) (f : Chuck → Chuck) : (s.modChuck f).linkEn = s.linkEn := rfl
@[simp] theorem State.modChuck_timeRoot (s : State) (f : Chuck → Chuck) : (s.modChuck f).timeRoot = s.timeRoot := rfl
@[simp] theorem State.modChuck_eidBase (s : State) (f : Chuck → Chuck) : (s.modChuck f).eidBase = s.eidBase := rfl
@[simp] theorem State.modChuck_bridge (s : State) (f : Chuck → Chuck) : (s.modChuck f).bridge = s.bridge := rfl
@[simp] theorem State.modChuck_snap (s : State) (f : Chuck → Chuck) : (s.modChuck f).snap = s.snap := rfl
@[simp] theorem State.modChuck_tempWarning (s : State) (f : Chuck → Chuck) :
    (s.modChuck f).tempWarning = s.tempWarning := rfl
@[simp] theorem State.modChuck_defects (s : State) (f : Chuck → Chuck) : (s.modChuck f).defects = s.defects := rfl
@[simp] theorem State.modChuck_patrolled (s : State) (f : Chuck → Chuck) :
    (s.modChuck f).patrolled = s.patrolled := rfl

/-! ### State.modHost -/

@[simp] theorem State.modHost_pending (s : State) (h : Fin 16) (f : HostState → HostState) :
    (s.modHost h f).pending = s.pending := rfl
@[simp] theorem State.modHost_free (s : State) (h : Fin 16) (f : HostState → HostState) :
    (s.modHost h f).free = s.free := rfl
@[simp] theorem State.modHost_tick (s : State) (h : Fin 16) (f : HostState → HostState) :
    (s.modHost h f).tick = s.tick := rfl
@[simp] theorem State.modHost_time (s : State) (h : Fin 16) (f : HostState → HostState) :
    (s.modHost h f).time = s.time := rfl
@[simp] theorem State.modHost_timeFrac (s : State) (h : Fin 16) (f : HostState → HostState) :
    (s.modHost h f).timeFrac = s.timeFrac := rfl
@[simp] theorem State.modHost_timeSource (s : State) (h : Fin 16) (f : HostState → HostState) :
    (s.modHost h f).timeSource = s.timeSource := rfl
@[simp] theorem State.modHost_mode (s : State) (h : Fin 16) (f : HostState → HostState) :
    (s.modHost h f).mode = s.mode := rfl
@[simp] theorem State.modHost_warm (s : State) (h : Fin 16) (f : HostState → HostState) :
    (s.modHost h f).warm = s.warm := rfl
@[simp] theorem State.modHost_planned (s : State) (h : Fin 16) (f : HostState → HostState) :
    (s.modHost h f).planned = s.planned := rfl
@[simp] theorem State.modHost_running (s : State) (h : Fin 16) (f : HostState → HostState) :
    (s.modHost h f).running = s.running := rfl
@[simp] theorem State.modHost_romextRan (s : State) (h : Fin 16) (f : HostState → HostState) :
    (s.modHost h f).romextRan = s.romextRan := rfl
@[simp] theorem State.modHost_t1 (s : State) (h : Fin 16) (f : HostState → HostState) :
    (s.modHost h f).t1 = s.t1 := rfl
@[simp] theorem State.modHost_lc (s : State) (h : Fin 16) (f : HostState → HostState) :
    (s.modHost h f).lc = s.lc := rfl
@[simp] theorem State.modHost_lanes (s : State) (h : Fin 16) (f : HostState → HostState) :
    (s.modHost h f).lanes = s.lanes := rfl
@[simp] theorem State.modHost_engines (s : State) (h : Fin 16) (f : HostState → HostState) :
    (s.modHost h f).engines = s.engines := rfl
@[simp] theorem State.modHost_replacedEngines (s : State) (h : Fin 16) (f : HostState → HostState) :
    (s.modHost h f).replacedEngines = s.replacedEngines := rfl
@[simp] theorem State.modHost_mirror (s : State) (h : Fin 16) (f : HostState → HostState) :
    (s.modHost h f).mirror = s.mirror := rfl
@[simp] theorem State.modHost_pages (s : State) (h : Fin 16) (f : HostState → HostState) :
    (s.modHost h f).pages = s.pages := rfl
@[simp] theorem State.modHost_cacheBanks (s : State) (h : Fin 16) (f : HostState → HostState) :
    (s.modHost h f).cacheBanks = s.cacheBanks := rfl
@[simp] theorem State.modHost_staging (s : State) (h : Fin 16) (f : HostState → HostState) :
    (s.modHost h f).staging = s.staging := rfl
@[simp] theorem State.modHost_resA (s : State) (h : Fin 16) (f : HostState → HostState) :
    (s.modHost h f).resA = s.resA := rfl
@[simp] theorem State.modHost_resB (s : State) (h : Fin 16) (f : HostState → HostState) :
    (s.modHost h f).resB = s.resB := rfl
@[simp] theorem State.modHost_chuck (s : State) (h : Fin 16) (f : HostState → HostState) :
    (s.modHost h f).chuck = { s.chuck with hosts := vmod s.chuck.hosts h f } := rfl
@[simp] theorem State.modHost_fuses (s : State) (h : Fin 16) (f : HostState → HostState) :
    (s.modHost h f).fuses = s.fuses := rfl
@[simp] theorem State.modHost_nvm (s : State) (h : Fin 16) (f : HostState → HostState) :
    (s.modHost h f).nvm = s.nvm := rfl
@[simp] theorem State.modHost_keys (s : State) (h : Fin 16) (f : HostState → HostState) :
    (s.modHost h f).keys = s.keys := rfl
@[simp] theorem State.modHost_backup (s : State) (h : Fin 16) (f : HostState → HostState) :
    (s.modHost h f).backup = s.backup := rfl
@[simp] theorem State.modHost_weir (s : State) (h : Fin 16) (f : HostState → HostState) :
    (s.modHost h f).weir = s.weir := rfl
@[simp] theorem State.modHost_levee (s : State) (h : Fin 16) (f : HostState → HostState) :
    (s.modHost h f).levee = s.levee := rfl
@[simp] theorem State.modHost_conf (s : State) (h : Fin 16) (f : HostState → HostState) :
    (s.modHost h f).conf = s.conf := rfl
@[simp] theorem State.modHost_stolik (s : State) (h : Fin 16) (f : HostState → HostState) :
    (s.modHost h f).stolik = s.stolik := rfl
@[simp] theorem State.modHost_adm (s : State) (h : Fin 16) (f : HostState → HostState) :
    (s.modHost h f).adm = s.adm := rfl
@[simp] theorem State.modHost_fabric (s : State) (h : Fin 16) (f : HostState → HostState) :
    (s.modHost h f).fabric = s.fabric := rfl
@[simp] theorem State.modHost_buses (s : State) (h : Fin 16) (f : HostState → HostState) :
    (s.modHost h f).buses = s.buses := rfl
@[simp] theorem State.modHost_node (s : State) (h : Fin 16) (f : HostState → HostState) :
    (s.modHost h f).node = s.node := rfl
@[simp] theorem State.modHost_assigned (s : State) (h : Fin 16) (f : HostState → HostState) :
    (s.modHost h f).assigned = s.assigned := rfl
@[simp] theorem State.modHost_linkEn (s : State) (h : Fin 16) (f : HostState → HostState) :
    (s.modHost h f).linkEn = s.linkEn := rfl
@[simp] theorem State.modHost_timeRoot (s : State) (h : Fin 16) (f : HostState → HostState) :
    (s.modHost h f).timeRoot = s.timeRoot := rfl
@[simp] theorem State.modHost_eidBase (s : State) (h : Fin 16) (f : HostState → HostState) :
    (s.modHost h f).eidBase = s.eidBase := rfl
@[simp] theorem State.modHost_bridge (s : State) (h : Fin 16) (f : HostState → HostState) :
    (s.modHost h f).bridge = s.bridge := rfl
@[simp] theorem State.modHost_snap (s : State) (h : Fin 16) (f : HostState → HostState) :
    (s.modHost h f).snap = s.snap := rfl
@[simp] theorem State.modHost_tempWarning (s : State) (h : Fin 16) (f : HostState → HostState) :
    (s.modHost h f).tempWarning = s.tempWarning := rfl
@[simp] theorem State.modHost_defects (s : State) (h : Fin 16) (f : HostState → HostState) :
    (s.modHost h f).defects = s.defects := rfl
@[simp] theorem State.modHost_patrolled (s : State) (h : Fin 16) (f : HostState → HostState) :
    (s.modHost h f).patrolled = s.patrolled := rfl

/-! ### State.modHosts -/

@[simp] theorem State.modHosts_pending (s : State) (f : Fin 16 → HostState → HostState) :
    (s.modHosts f).pending = s.pending := State.modChuck_pending s _
@[simp] theorem State.modHosts_free (s : State) (f : Fin 16 → HostState → HostState) :
    (s.modHosts f).free = s.free := State.modChuck_free s _
@[simp] theorem State.modHosts_tick (s : State) (f : Fin 16 → HostState → HostState) :
    (s.modHosts f).tick = s.tick := State.modChuck_tick s _
@[simp] theorem State.modHosts_time (s : State) (f : Fin 16 → HostState → HostState) :
    (s.modHosts f).time = s.time := State.modChuck_time s _
@[simp] theorem State.modHosts_timeFrac (s : State) (f : Fin 16 → HostState → HostState) :
    (s.modHosts f).timeFrac = s.timeFrac := State.modChuck_timeFrac s _
@[simp] theorem State.modHosts_timeSource (s : State) (f : Fin 16 → HostState → HostState) :
    (s.modHosts f).timeSource = s.timeSource := State.modChuck_timeSource s _
@[simp] theorem State.modHosts_mode (s : State) (f : Fin 16 → HostState → HostState) :
    (s.modHosts f).mode = s.mode := State.modChuck_mode s _
@[simp] theorem State.modHosts_warm (s : State) (f : Fin 16 → HostState → HostState) :
    (s.modHosts f).warm = s.warm := State.modChuck_warm s _
@[simp] theorem State.modHosts_planned (s : State) (f : Fin 16 → HostState → HostState) :
    (s.modHosts f).planned = s.planned := State.modChuck_planned s _
@[simp] theorem State.modHosts_running (s : State) (f : Fin 16 → HostState → HostState) :
    (s.modHosts f).running = s.running := State.modChuck_running s _
@[simp] theorem State.modHosts_romextRan (s : State) (f : Fin 16 → HostState → HostState) :
    (s.modHosts f).romextRan = s.romextRan := State.modChuck_romextRan s _
@[simp] theorem State.modHosts_t1 (s : State) (f : Fin 16 → HostState → HostState) :
    (s.modHosts f).t1 = s.t1 := State.modChuck_t1 s _
@[simp] theorem State.modHosts_lc (s : State) (f : Fin 16 → HostState → HostState) :
    (s.modHosts f).lc = s.lc := State.modChuck_lc s _
@[simp] theorem State.modHosts_lanes (s : State) (f : Fin 16 → HostState → HostState) :
    (s.modHosts f).lanes = s.lanes := State.modChuck_lanes s _
@[simp] theorem State.modHosts_engines (s : State) (f : Fin 16 → HostState → HostState) :
    (s.modHosts f).engines = s.engines := State.modChuck_engines s _
@[simp] theorem State.modHosts_replacedEngines (s : State) (f : Fin 16 → HostState → HostState) :
    (s.modHosts f).replacedEngines = s.replacedEngines := State.modChuck_replacedEngines s _
@[simp] theorem State.modHosts_mirror (s : State) (f : Fin 16 → HostState → HostState) :
    (s.modHosts f).mirror = s.mirror := State.modChuck_mirror s _
@[simp] theorem State.modHosts_pages (s : State) (f : Fin 16 → HostState → HostState) :
    (s.modHosts f).pages = s.pages := State.modChuck_pages s _
@[simp] theorem State.modHosts_cacheBanks (s : State) (f : Fin 16 → HostState → HostState) :
    (s.modHosts f).cacheBanks = s.cacheBanks := State.modChuck_cacheBanks s _
@[simp] theorem State.modHosts_staging (s : State) (f : Fin 16 → HostState → HostState) :
    (s.modHosts f).staging = s.staging := State.modChuck_staging s _
@[simp] theorem State.modHosts_resA (s : State) (f : Fin 16 → HostState → HostState) :
    (s.modHosts f).resA = s.resA := State.modChuck_resA s _
@[simp] theorem State.modHosts_resB (s : State) (f : Fin 16 → HostState → HostState) :
    (s.modHosts f).resB = s.resB := State.modChuck_resB s _
@[simp] theorem State.modHosts_chuck (s : State) (f : Fin 16 → HostState → HostState) :
    (s.modHosts f).chuck = { s.chuck with hosts := vmapI s.chuck.hosts f } := State.modChuck_chuck s _
@[simp] theorem State.modHosts_fuses (s : State) (f : Fin 16 → HostState → HostState) :
    (s.modHosts f).fuses = s.fuses := State.modChuck_fuses s _
@[simp] theorem State.modHosts_nvm (s : State) (f : Fin 16 → HostState → HostState) :
    (s.modHosts f).nvm = s.nvm := State.modChuck_nvm s _
@[simp] theorem State.modHosts_keys (s : State) (f : Fin 16 → HostState → HostState) :
    (s.modHosts f).keys = s.keys := State.modChuck_keys s _
@[simp] theorem State.modHosts_backup (s : State) (f : Fin 16 → HostState → HostState) :
    (s.modHosts f).backup = s.backup := State.modChuck_backup s _
@[simp] theorem State.modHosts_weir (s : State) (f : Fin 16 → HostState → HostState) :
    (s.modHosts f).weir = s.weir := State.modChuck_weir s _
@[simp] theorem State.modHosts_levee (s : State) (f : Fin 16 → HostState → HostState) :
    (s.modHosts f).levee = s.levee := State.modChuck_levee s _
@[simp] theorem State.modHosts_conf (s : State) (f : Fin 16 → HostState → HostState) :
    (s.modHosts f).conf = s.conf := State.modChuck_conf s _
@[simp] theorem State.modHosts_stolik (s : State) (f : Fin 16 → HostState → HostState) :
    (s.modHosts f).stolik = s.stolik := State.modChuck_stolik s _
@[simp] theorem State.modHosts_adm (s : State) (f : Fin 16 → HostState → HostState) :
    (s.modHosts f).adm = s.adm := State.modChuck_adm s _
@[simp] theorem State.modHosts_fabric (s : State) (f : Fin 16 → HostState → HostState) :
    (s.modHosts f).fabric = s.fabric := State.modChuck_fabric s _
@[simp] theorem State.modHosts_buses (s : State) (f : Fin 16 → HostState → HostState) :
    (s.modHosts f).buses = s.buses := State.modChuck_buses s _
@[simp] theorem State.modHosts_node (s : State) (f : Fin 16 → HostState → HostState) :
    (s.modHosts f).node = s.node := State.modChuck_node s _
@[simp] theorem State.modHosts_assigned (s : State) (f : Fin 16 → HostState → HostState) :
    (s.modHosts f).assigned = s.assigned := State.modChuck_assigned s _
@[simp] theorem State.modHosts_linkEn (s : State) (f : Fin 16 → HostState → HostState) :
    (s.modHosts f).linkEn = s.linkEn := State.modChuck_linkEn s _
@[simp] theorem State.modHosts_timeRoot (s : State) (f : Fin 16 → HostState → HostState) :
    (s.modHosts f).timeRoot = s.timeRoot := State.modChuck_timeRoot s _
@[simp] theorem State.modHosts_eidBase (s : State) (f : Fin 16 → HostState → HostState) :
    (s.modHosts f).eidBase = s.eidBase := State.modChuck_eidBase s _
@[simp] theorem State.modHosts_bridge (s : State) (f : Fin 16 → HostState → HostState) :
    (s.modHosts f).bridge = s.bridge := State.modChuck_bridge s _
@[simp] theorem State.modHosts_snap (s : State) (f : Fin 16 → HostState → HostState) :
    (s.modHosts f).snap = s.snap := State.modChuck_snap s _
@[simp] theorem State.modHosts_tempWarning (s : State) (f : Fin 16 → HostState → HostState) :
    (s.modHosts f).tempWarning = s.tempWarning := State.modChuck_tempWarning s _
@[simp] theorem State.modHosts_defects (s : State) (f : Fin 16 → HostState → HostState) :
    (s.modHosts f).defects = s.defects := State.modChuck_defects s _
@[simp] theorem State.modHosts_patrolled (s : State) (f : Fin 16 → HostState → HostState) :
    (s.modHosts f).patrolled = s.patrolled := State.modChuck_patrolled s _

/-! ### State.modHold -/

@[simp] theorem State.modHold_pending (s : State) (h : Fin 16) (f : HoldWord → HoldWord) :
    (s.modHold h f).pending = s.pending := rfl
@[simp] theorem State.modHold_free (s : State) (h : Fin 16) (f : HoldWord → HoldWord) :
    (s.modHold h f).free = s.free := rfl
@[simp] theorem State.modHold_tick (s : State) (h : Fin 16) (f : HoldWord → HoldWord) :
    (s.modHold h f).tick = s.tick := rfl
@[simp] theorem State.modHold_time (s : State) (h : Fin 16) (f : HoldWord → HoldWord) :
    (s.modHold h f).time = s.time := rfl
@[simp] theorem State.modHold_timeFrac (s : State) (h : Fin 16) (f : HoldWord → HoldWord) :
    (s.modHold h f).timeFrac = s.timeFrac := rfl
@[simp] theorem State.modHold_timeSource (s : State) (h : Fin 16) (f : HoldWord → HoldWord) :
    (s.modHold h f).timeSource = s.timeSource := rfl
@[simp] theorem State.modHold_mode (s : State) (h : Fin 16) (f : HoldWord → HoldWord) :
    (s.modHold h f).mode = s.mode := rfl
@[simp] theorem State.modHold_warm (s : State) (h : Fin 16) (f : HoldWord → HoldWord) :
    (s.modHold h f).warm = s.warm := rfl
@[simp] theorem State.modHold_planned (s : State) (h : Fin 16) (f : HoldWord → HoldWord) :
    (s.modHold h f).planned = s.planned := rfl
@[simp] theorem State.modHold_running (s : State) (h : Fin 16) (f : HoldWord → HoldWord) :
    (s.modHold h f).running = s.running := rfl
@[simp] theorem State.modHold_romextRan (s : State) (h : Fin 16) (f : HoldWord → HoldWord) :
    (s.modHold h f).romextRan = s.romextRan := rfl
@[simp] theorem State.modHold_t1 (s : State) (h : Fin 16) (f : HoldWord → HoldWord) : (s.modHold h f).t1 = s.t1 := rfl
@[simp] theorem State.modHold_lc (s : State) (h : Fin 16) (f : HoldWord → HoldWord) : (s.modHold h f).lc = s.lc := rfl
@[simp] theorem State.modHold_lanes (s : State) (h : Fin 16) (f : HoldWord → HoldWord) :
    (s.modHold h f).lanes = s.lanes := rfl
@[simp] theorem State.modHold_engines (s : State) (h : Fin 16) (f : HoldWord → HoldWord) :
    (s.modHold h f).engines = s.engines := rfl
@[simp] theorem State.modHold_replacedEngines (s : State) (h : Fin 16) (f : HoldWord → HoldWord) :
    (s.modHold h f).replacedEngines = s.replacedEngines := rfl
@[simp] theorem State.modHold_mirror (s : State) (h : Fin 16) (f : HoldWord → HoldWord) :
    (s.modHold h f).mirror = s.mirror := rfl
@[simp] theorem State.modHold_pages (s : State) (h : Fin 16) (f : HoldWord → HoldWord) :
    (s.modHold h f).pages = s.pages := rfl
@[simp] theorem State.modHold_cacheBanks (s : State) (h : Fin 16) (f : HoldWord → HoldWord) :
    (s.modHold h f).cacheBanks = s.cacheBanks := rfl
@[simp] theorem State.modHold_staging (s : State) (h : Fin 16) (f : HoldWord → HoldWord) :
    (s.modHold h f).staging = s.staging := rfl
@[simp] theorem State.modHold_resA (s : State) (h : Fin 16) (f : HoldWord → HoldWord) :
    (s.modHold h f).resA = s.resA := rfl
@[simp] theorem State.modHold_resB (s : State) (h : Fin 16) (f : HoldWord → HoldWord) :
    (s.modHold h f).resB = s.resB := rfl
@[simp] theorem State.modHold_chuck (s : State) (h : Fin 16) (f : HoldWord → HoldWord) :
    (s.modHold h f).chuck = { s.chuck with hosts := vmod s.chuck.hosts h fun x => { x with hold := f x.hold } } := rfl
@[simp] theorem State.modHold_fuses (s : State) (h : Fin 16) (f : HoldWord → HoldWord) :
    (s.modHold h f).fuses = s.fuses := rfl
@[simp] theorem State.modHold_nvm (s : State) (h : Fin 16) (f : HoldWord → HoldWord) :
    (s.modHold h f).nvm = s.nvm := rfl
@[simp] theorem State.modHold_keys (s : State) (h : Fin 16) (f : HoldWord → HoldWord) :
    (s.modHold h f).keys = s.keys := rfl
@[simp] theorem State.modHold_backup (s : State) (h : Fin 16) (f : HoldWord → HoldWord) :
    (s.modHold h f).backup = s.backup := rfl
@[simp] theorem State.modHold_weir (s : State) (h : Fin 16) (f : HoldWord → HoldWord) :
    (s.modHold h f).weir = s.weir := rfl
@[simp] theorem State.modHold_levee (s : State) (h : Fin 16) (f : HoldWord → HoldWord) :
    (s.modHold h f).levee = s.levee := rfl
@[simp] theorem State.modHold_conf (s : State) (h : Fin 16) (f : HoldWord → HoldWord) :
    (s.modHold h f).conf = s.conf := rfl
@[simp] theorem State.modHold_stolik (s : State) (h : Fin 16) (f : HoldWord → HoldWord) :
    (s.modHold h f).stolik = s.stolik := rfl
@[simp] theorem State.modHold_adm (s : State) (h : Fin 16) (f : HoldWord → HoldWord) :
    (s.modHold h f).adm = s.adm := rfl
@[simp] theorem State.modHold_fabric (s : State) (h : Fin 16) (f : HoldWord → HoldWord) :
    (s.modHold h f).fabric = s.fabric := rfl
@[simp] theorem State.modHold_buses (s : State) (h : Fin 16) (f : HoldWord → HoldWord) :
    (s.modHold h f).buses = s.buses := rfl
@[simp] theorem State.modHold_node (s : State) (h : Fin 16) (f : HoldWord → HoldWord) :
    (s.modHold h f).node = s.node := rfl
@[simp] theorem State.modHold_assigned (s : State) (h : Fin 16) (f : HoldWord → HoldWord) :
    (s.modHold h f).assigned = s.assigned := rfl
@[simp] theorem State.modHold_linkEn (s : State) (h : Fin 16) (f : HoldWord → HoldWord) :
    (s.modHold h f).linkEn = s.linkEn := rfl
@[simp] theorem State.modHold_timeRoot (s : State) (h : Fin 16) (f : HoldWord → HoldWord) :
    (s.modHold h f).timeRoot = s.timeRoot := rfl
@[simp] theorem State.modHold_eidBase (s : State) (h : Fin 16) (f : HoldWord → HoldWord) :
    (s.modHold h f).eidBase = s.eidBase := rfl
@[simp] theorem State.modHold_bridge (s : State) (h : Fin 16) (f : HoldWord → HoldWord) :
    (s.modHold h f).bridge = s.bridge := rfl
@[simp] theorem State.modHold_snap (s : State) (h : Fin 16) (f : HoldWord → HoldWord) :
    (s.modHold h f).snap = s.snap := rfl
@[simp] theorem State.modHold_tempWarning (s : State) (h : Fin 16) (f : HoldWord → HoldWord) :
    (s.modHold h f).tempWarning = s.tempWarning := rfl
@[simp] theorem State.modHold_defects (s : State) (h : Fin 16) (f : HoldWord → HoldWord) :
    (s.modHold h f).defects = s.defects := rfl
@[simp] theorem State.modHold_patrolled (s : State) (h : Fin 16) (f : HoldWord → HoldWord) :
    (s.modHold h f).patrolled = s.patrolled := rfl

/-! ### State.modNvm -/

@[simp] theorem State.modNvm_pending (s : State) (f : Nvm → Nvm) : (s.modNvm f).pending = s.pending := rfl
@[simp] theorem State.modNvm_free (s : State) (f : Nvm → Nvm) : (s.modNvm f).free = s.free := rfl
@[simp] theorem State.modNvm_tick (s : State) (f : Nvm → Nvm) : (s.modNvm f).tick = s.tick := rfl
@[simp] theorem State.modNvm_time (s : State) (f : Nvm → Nvm) : (s.modNvm f).time = s.time := rfl
@[simp] theorem State.modNvm_timeFrac (s : State) (f : Nvm → Nvm) : (s.modNvm f).timeFrac = s.timeFrac := rfl
@[simp] theorem State.modNvm_timeSource (s : State) (f : Nvm → Nvm) : (s.modNvm f).timeSource = s.timeSource := rfl
@[simp] theorem State.modNvm_mode (s : State) (f : Nvm → Nvm) : (s.modNvm f).mode = s.mode := rfl
@[simp] theorem State.modNvm_warm (s : State) (f : Nvm → Nvm) : (s.modNvm f).warm = s.warm := rfl
@[simp] theorem State.modNvm_planned (s : State) (f : Nvm → Nvm) : (s.modNvm f).planned = s.planned := rfl
@[simp] theorem State.modNvm_running (s : State) (f : Nvm → Nvm) : (s.modNvm f).running = s.running := rfl
@[simp] theorem State.modNvm_romextRan (s : State) (f : Nvm → Nvm) : (s.modNvm f).romextRan = s.romextRan := rfl
@[simp] theorem State.modNvm_t1 (s : State) (f : Nvm → Nvm) : (s.modNvm f).t1 = s.t1 := rfl
@[simp] theorem State.modNvm_lc (s : State) (f : Nvm → Nvm) : (s.modNvm f).lc = s.lc := rfl
@[simp] theorem State.modNvm_lanes (s : State) (f : Nvm → Nvm) : (s.modNvm f).lanes = s.lanes := rfl
@[simp] theorem State.modNvm_engines (s : State) (f : Nvm → Nvm) : (s.modNvm f).engines = s.engines := rfl
@[simp] theorem State.modNvm_replacedEngines (s : State) (f : Nvm → Nvm) :
    (s.modNvm f).replacedEngines = s.replacedEngines := rfl
@[simp] theorem State.modNvm_mirror (s : State) (f : Nvm → Nvm) : (s.modNvm f).mirror = s.mirror := rfl
@[simp] theorem State.modNvm_pages (s : State) (f : Nvm → Nvm) : (s.modNvm f).pages = s.pages := rfl
@[simp] theorem State.modNvm_cacheBanks (s : State) (f : Nvm → Nvm) : (s.modNvm f).cacheBanks = s.cacheBanks := rfl
@[simp] theorem State.modNvm_staging (s : State) (f : Nvm → Nvm) : (s.modNvm f).staging = s.staging := rfl
@[simp] theorem State.modNvm_resA (s : State) (f : Nvm → Nvm) : (s.modNvm f).resA = s.resA := rfl
@[simp] theorem State.modNvm_resB (s : State) (f : Nvm → Nvm) : (s.modNvm f).resB = s.resB := rfl
@[simp] theorem State.modNvm_chuck (s : State) (f : Nvm → Nvm) : (s.modNvm f).chuck = s.chuck := rfl
@[simp] theorem State.modNvm_fuses (s : State) (f : Nvm → Nvm) : (s.modNvm f).fuses = s.fuses := rfl
@[simp] theorem State.modNvm_nvm (s : State) (f : Nvm → Nvm) : (s.modNvm f).nvm = f s.nvm := rfl
@[simp] theorem State.modNvm_keys (s : State) (f : Nvm → Nvm) : (s.modNvm f).keys = s.keys := rfl
@[simp] theorem State.modNvm_backup (s : State) (f : Nvm → Nvm) : (s.modNvm f).backup = s.backup := rfl
@[simp] theorem State.modNvm_weir (s : State) (f : Nvm → Nvm) : (s.modNvm f).weir = s.weir := rfl
@[simp] theorem State.modNvm_levee (s : State) (f : Nvm → Nvm) : (s.modNvm f).levee = s.levee := rfl
@[simp] theorem State.modNvm_conf (s : State) (f : Nvm → Nvm) : (s.modNvm f).conf = s.conf := rfl
@[simp] theorem State.modNvm_stolik (s : State) (f : Nvm → Nvm) : (s.modNvm f).stolik = s.stolik := rfl
@[simp] theorem State.modNvm_adm (s : State) (f : Nvm → Nvm) : (s.modNvm f).adm = s.adm := rfl
@[simp] theorem State.modNvm_fabric (s : State) (f : Nvm → Nvm) : (s.modNvm f).fabric = s.fabric := rfl
@[simp] theorem State.modNvm_buses (s : State) (f : Nvm → Nvm) : (s.modNvm f).buses = s.buses := rfl
@[simp] theorem State.modNvm_node (s : State) (f : Nvm → Nvm) : (s.modNvm f).node = s.node := rfl
@[simp] theorem State.modNvm_assigned (s : State) (f : Nvm → Nvm) : (s.modNvm f).assigned = s.assigned := rfl
@[simp] theorem State.modNvm_linkEn (s : State) (f : Nvm → Nvm) : (s.modNvm f).linkEn = s.linkEn := rfl
@[simp] theorem State.modNvm_timeRoot (s : State) (f : Nvm → Nvm) : (s.modNvm f).timeRoot = s.timeRoot := rfl
@[simp] theorem State.modNvm_eidBase (s : State) (f : Nvm → Nvm) : (s.modNvm f).eidBase = s.eidBase := rfl
@[simp] theorem State.modNvm_bridge (s : State) (f : Nvm → Nvm) : (s.modNvm f).bridge = s.bridge := rfl
@[simp] theorem State.modNvm_snap (s : State) (f : Nvm → Nvm) : (s.modNvm f).snap = s.snap := rfl
@[simp] theorem State.modNvm_tempWarning (s : State) (f : Nvm → Nvm) : (s.modNvm f).tempWarning = s.tempWarning := rfl
@[simp] theorem State.modNvm_defects (s : State) (f : Nvm → Nvm) : (s.modNvm f).defects = s.defects := rfl
@[simp] theorem State.modNvm_patrolled (s : State) (f : Nvm → Nvm) : (s.modNvm f).patrolled = s.patrolled := rfl

/-! ### State.modCommit -/

@[simp] theorem State.modCommit_pending (s : State) (f : Commit → Commit) : (s.modCommit f).pending = s.pending := rfl
@[simp] theorem State.modCommit_free (s : State) (f : Commit → Commit) : (s.modCommit f).free = s.free := rfl
@[simp] theorem State.modCommit_tick (s : State) (f : Commit → Commit) : (s.modCommit f).tick = s.tick := rfl
@[simp] theorem State.modCommit_time (s : State) (f : Commit → Commit) : (s.modCommit f).time = s.time := rfl
@[simp] theorem State.modCommit_timeFrac (s : State) (f : Commit → Commit) :
    (s.modCommit f).timeFrac = s.timeFrac := rfl
@[simp] theorem State.modCommit_timeSource (s : State) (f : Commit → Commit) :
    (s.modCommit f).timeSource = s.timeSource := rfl
@[simp] theorem State.modCommit_mode (s : State) (f : Commit → Commit) : (s.modCommit f).mode = s.mode := rfl
@[simp] theorem State.modCommit_warm (s : State) (f : Commit → Commit) : (s.modCommit f).warm = s.warm := rfl
@[simp] theorem State.modCommit_planned (s : State) (f : Commit → Commit) : (s.modCommit f).planned = s.planned := rfl
@[simp] theorem State.modCommit_running (s : State) (f : Commit → Commit) : (s.modCommit f).running = s.running := rfl
@[simp] theorem State.modCommit_romextRan (s : State) (f : Commit → Commit) :
    (s.modCommit f).romextRan = s.romextRan := rfl
@[simp] theorem State.modCommit_t1 (s : State) (f : Commit → Commit) : (s.modCommit f).t1 = s.t1 := rfl
@[simp] theorem State.modCommit_lc (s : State) (f : Commit → Commit) : (s.modCommit f).lc = s.lc := rfl
@[simp] theorem State.modCommit_lanes (s : State) (f : Commit → Commit) : (s.modCommit f).lanes = s.lanes := rfl
@[simp] theorem State.modCommit_engines (s : State) (f : Commit → Commit) : (s.modCommit f).engines = s.engines := rfl
@[simp] theorem State.modCommit_replacedEngines (s : State) (f : Commit → Commit) :
    (s.modCommit f).replacedEngines = s.replacedEngines := rfl
@[simp] theorem State.modCommit_mirror (s : State) (f : Commit → Commit) : (s.modCommit f).mirror = s.mirror := rfl
@[simp] theorem State.modCommit_pages (s : State) (f : Commit → Commit) : (s.modCommit f).pages = s.pages := rfl
@[simp] theorem State.modCommit_cacheBanks (s : State) (f : Commit → Commit) :
    (s.modCommit f).cacheBanks = s.cacheBanks := rfl
@[simp] theorem State.modCommit_staging (s : State) (f : Commit → Commit) : (s.modCommit f).staging = s.staging := rfl
@[simp] theorem State.modCommit_resA (s : State) (f : Commit → Commit) : (s.modCommit f).resA = s.resA := rfl
@[simp] theorem State.modCommit_resB (s : State) (f : Commit → Commit) : (s.modCommit f).resB = s.resB := rfl
@[simp] theorem State.modCommit_chuck (s : State) (f : Commit → Commit) : (s.modCommit f).chuck = s.chuck := rfl
@[simp] theorem State.modCommit_fuses (s : State) (f : Commit → Commit) : (s.modCommit f).fuses = s.fuses := rfl
@[simp] theorem State.modCommit_nvm (s : State) (f : Commit → Commit) :
    (s.modCommit f).nvm = { s.nvm with commit := f s.nvm.commit } := rfl
@[simp] theorem State.modCommit_keys (s : State) (f : Commit → Commit) : (s.modCommit f).keys = s.keys := rfl
@[simp] theorem State.modCommit_backup (s : State) (f : Commit → Commit) : (s.modCommit f).backup = s.backup := rfl
@[simp] theorem State.modCommit_weir (s : State) (f : Commit → Commit) : (s.modCommit f).weir = s.weir := rfl
@[simp] theorem State.modCommit_levee (s : State) (f : Commit → Commit) : (s.modCommit f).levee = s.levee := rfl
@[simp] theorem State.modCommit_conf (s : State) (f : Commit → Commit) : (s.modCommit f).conf = s.conf := rfl
@[simp] theorem State.modCommit_stolik (s : State) (f : Commit → Commit) : (s.modCommit f).stolik = s.stolik := rfl
@[simp] theorem State.modCommit_adm (s : State) (f : Commit → Commit) : (s.modCommit f).adm = s.adm := rfl
@[simp] theorem State.modCommit_fabric (s : State) (f : Commit → Commit) : (s.modCommit f).fabric = s.fabric := rfl
@[simp] theorem State.modCommit_buses (s : State) (f : Commit → Commit) : (s.modCommit f).buses = s.buses := rfl
@[simp] theorem State.modCommit_node (s : State) (f : Commit → Commit) : (s.modCommit f).node = s.node := rfl
@[simp] theorem State.modCommit_assigned (s : State) (f : Commit → Commit) :
    (s.modCommit f).assigned = s.assigned := rfl
@[simp] theorem State.modCommit_linkEn (s : State) (f : Commit → Commit) : (s.modCommit f).linkEn = s.linkEn := rfl
@[simp] theorem State.modCommit_timeRoot (s : State) (f : Commit → Commit) :
    (s.modCommit f).timeRoot = s.timeRoot := rfl
@[simp] theorem State.modCommit_eidBase (s : State) (f : Commit → Commit) : (s.modCommit f).eidBase = s.eidBase := rfl
@[simp] theorem State.modCommit_bridge (s : State) (f : Commit → Commit) : (s.modCommit f).bridge = s.bridge := rfl
@[simp] theorem State.modCommit_snap (s : State) (f : Commit → Commit) : (s.modCommit f).snap = s.snap := rfl
@[simp] theorem State.modCommit_tempWarning (s : State) (f : Commit → Commit) :
    (s.modCommit f).tempWarning = s.tempWarning := rfl
@[simp] theorem State.modCommit_defects (s : State) (f : Commit → Commit) : (s.modCommit f).defects = s.defects := rfl
@[simp] theorem State.modCommit_patrolled (s : State) (f : Commit → Commit) :
    (s.modCommit f).patrolled = s.patrolled := rfl

/-! ### State.modWin -/

@[simp] theorem State.modWin_pending (s : State) (n w : Fin 8) (f : WinEntry → WinEntry) :
    (s.modWin n w f).pending = s.pending := rfl
@[simp] theorem State.modWin_free (s : State) (n w : Fin 8) (f : WinEntry → WinEntry) :
    (s.modWin n w f).free = s.free := rfl
@[simp] theorem State.modWin_tick (s : State) (n w : Fin 8) (f : WinEntry → WinEntry) :
    (s.modWin n w f).tick = s.tick := rfl
@[simp] theorem State.modWin_time (s : State) (n w : Fin 8) (f : WinEntry → WinEntry) :
    (s.modWin n w f).time = s.time := rfl
@[simp] theorem State.modWin_timeFrac (s : State) (n w : Fin 8) (f : WinEntry → WinEntry) :
    (s.modWin n w f).timeFrac = s.timeFrac := rfl
@[simp] theorem State.modWin_timeSource (s : State) (n w : Fin 8) (f : WinEntry → WinEntry) :
    (s.modWin n w f).timeSource = s.timeSource := rfl
@[simp] theorem State.modWin_mode (s : State) (n w : Fin 8) (f : WinEntry → WinEntry) :
    (s.modWin n w f).mode = s.mode := rfl
@[simp] theorem State.modWin_warm (s : State) (n w : Fin 8) (f : WinEntry → WinEntry) :
    (s.modWin n w f).warm = s.warm := rfl
@[simp] theorem State.modWin_planned (s : State) (n w : Fin 8) (f : WinEntry → WinEntry) :
    (s.modWin n w f).planned = s.planned := rfl
@[simp] theorem State.modWin_running (s : State) (n w : Fin 8) (f : WinEntry → WinEntry) :
    (s.modWin n w f).running = s.running := rfl
@[simp] theorem State.modWin_romextRan (s : State) (n w : Fin 8) (f : WinEntry → WinEntry) :
    (s.modWin n w f).romextRan = s.romextRan := rfl
@[simp] theorem State.modWin_t1 (s : State) (n w : Fin 8) (f : WinEntry → WinEntry) :
    (s.modWin n w f).t1 = s.t1 := rfl
@[simp] theorem State.modWin_lc (s : State) (n w : Fin 8) (f : WinEntry → WinEntry) :
    (s.modWin n w f).lc = s.lc := rfl
@[simp] theorem State.modWin_lanes (s : State) (n w : Fin 8) (f : WinEntry → WinEntry) :
    (s.modWin n w f).lanes = s.lanes := rfl
@[simp] theorem State.modWin_engines (s : State) (n w : Fin 8) (f : WinEntry → WinEntry) :
    (s.modWin n w f).engines = s.engines := rfl
@[simp] theorem State.modWin_replacedEngines (s : State) (n w : Fin 8) (f : WinEntry → WinEntry) :
    (s.modWin n w f).replacedEngines = s.replacedEngines := rfl
@[simp] theorem State.modWin_mirror (s : State) (n w : Fin 8) (f : WinEntry → WinEntry) :
    (s.modWin n w f).mirror = s.mirror := rfl
@[simp] theorem State.modWin_pages (s : State) (n w : Fin 8) (f : WinEntry → WinEntry) :
    (s.modWin n w f).pages = s.pages := rfl
@[simp] theorem State.modWin_cacheBanks (s : State) (n w : Fin 8) (f : WinEntry → WinEntry) :
    (s.modWin n w f).cacheBanks = s.cacheBanks := rfl
@[simp] theorem State.modWin_staging (s : State) (n w : Fin 8) (f : WinEntry → WinEntry) :
    (s.modWin n w f).staging = s.staging := rfl
@[simp] theorem State.modWin_resA (s : State) (n w : Fin 8) (f : WinEntry → WinEntry) :
    (s.modWin n w f).resA = s.resA := rfl
@[simp] theorem State.modWin_resB (s : State) (n w : Fin 8) (f : WinEntry → WinEntry) :
    (s.modWin n w f).resB = s.resB := rfl
@[simp] theorem State.modWin_chuck (s : State) (n w : Fin 8) (f : WinEntry → WinEntry) :
    (s.modWin n w f).chuck = s.chuck := rfl
@[simp] theorem State.modWin_fuses (s : State) (n w : Fin 8) (f : WinEntry → WinEntry) :
    (s.modWin n w f).fuses = s.fuses := rfl
@[simp] theorem State.modWin_nvm (s : State) (n w : Fin 8) (f : WinEntry → WinEntry) :
    (s.modWin n w f).nvm = { s.nvm with commit := { s.nvm.commit with wins := vmod s.nvm.commit.wins (winIx n w) f } } := rfl
@[simp] theorem State.modWin_keys (s : State) (n w : Fin 8) (f : WinEntry → WinEntry) :
    (s.modWin n w f).keys = s.keys := rfl
@[simp] theorem State.modWin_backup (s : State) (n w : Fin 8) (f : WinEntry → WinEntry) :
    (s.modWin n w f).backup = s.backup := rfl
@[simp] theorem State.modWin_weir (s : State) (n w : Fin 8) (f : WinEntry → WinEntry) :
    (s.modWin n w f).weir = s.weir := rfl
@[simp] theorem State.modWin_levee (s : State) (n w : Fin 8) (f : WinEntry → WinEntry) :
    (s.modWin n w f).levee = s.levee := rfl
@[simp] theorem State.modWin_conf (s : State) (n w : Fin 8) (f : WinEntry → WinEntry) :
    (s.modWin n w f).conf = s.conf := rfl
@[simp] theorem State.modWin_stolik (s : State) (n w : Fin 8) (f : WinEntry → WinEntry) :
    (s.modWin n w f).stolik = s.stolik := rfl
@[simp] theorem State.modWin_adm (s : State) (n w : Fin 8) (f : WinEntry → WinEntry) :
    (s.modWin n w f).adm = s.adm := rfl
@[simp] theorem State.modWin_fabric (s : State) (n w : Fin 8) (f : WinEntry → WinEntry) :
    (s.modWin n w f).fabric = s.fabric := rfl
@[simp] theorem State.modWin_buses (s : State) (n w : Fin 8) (f : WinEntry → WinEntry) :
    (s.modWin n w f).buses = s.buses := rfl
@[simp] theorem State.modWin_node (s : State) (n w : Fin 8) (f : WinEntry → WinEntry) :
    (s.modWin n w f).node = s.node := rfl
@[simp] theorem State.modWin_assigned (s : State) (n w : Fin 8) (f : WinEntry → WinEntry) :
    (s.modWin n w f).assigned = s.assigned := rfl
@[simp] theorem State.modWin_linkEn (s : State) (n w : Fin 8) (f : WinEntry → WinEntry) :
    (s.modWin n w f).linkEn = s.linkEn := rfl
@[simp] theorem State.modWin_timeRoot (s : State) (n w : Fin 8) (f : WinEntry → WinEntry) :
    (s.modWin n w f).timeRoot = s.timeRoot := rfl
@[simp] theorem State.modWin_eidBase (s : State) (n w : Fin 8) (f : WinEntry → WinEntry) :
    (s.modWin n w f).eidBase = s.eidBase := rfl
@[simp] theorem State.modWin_bridge (s : State) (n w : Fin 8) (f : WinEntry → WinEntry) :
    (s.modWin n w f).bridge = s.bridge := rfl
@[simp] theorem State.modWin_snap (s : State) (n w : Fin 8) (f : WinEntry → WinEntry) :
    (s.modWin n w f).snap = s.snap := rfl
@[simp] theorem State.modWin_tempWarning (s : State) (n w : Fin 8) (f : WinEntry → WinEntry) :
    (s.modWin n w f).tempWarning = s.tempWarning := rfl
@[simp] theorem State.modWin_defects (s : State) (n w : Fin 8) (f : WinEntry → WinEntry) :
    (s.modWin n w f).defects = s.defects := rfl
@[simp] theorem State.modWin_patrolled (s : State) (n w : Fin 8) (f : WinEntry → WinEntry) :
    (s.modWin n w f).patrolled = s.patrolled := rfl

/-! ### State.modLog -/

@[simp] theorem State.modLog_pending (s : State) (f : RingLog → RingLog) : (s.modLog f).pending = s.pending := rfl
@[simp] theorem State.modLog_free (s : State) (f : RingLog → RingLog) : (s.modLog f).free = s.free := rfl
@[simp] theorem State.modLog_tick (s : State) (f : RingLog → RingLog) : (s.modLog f).tick = s.tick := rfl
@[simp] theorem State.modLog_time (s : State) (f : RingLog → RingLog) : (s.modLog f).time = s.time := rfl
@[simp] theorem State.modLog_timeFrac (s : State) (f : RingLog → RingLog) : (s.modLog f).timeFrac = s.timeFrac := rfl
@[simp] theorem State.modLog_timeSource (s : State) (f : RingLog → RingLog) :
    (s.modLog f).timeSource = s.timeSource := rfl
@[simp] theorem State.modLog_mode (s : State) (f : RingLog → RingLog) : (s.modLog f).mode = s.mode := rfl
@[simp] theorem State.modLog_warm (s : State) (f : RingLog → RingLog) : (s.modLog f).warm = s.warm := rfl
@[simp] theorem State.modLog_planned (s : State) (f : RingLog → RingLog) : (s.modLog f).planned = s.planned := rfl
@[simp] theorem State.modLog_running (s : State) (f : RingLog → RingLog) : (s.modLog f).running = s.running := rfl
@[simp] theorem State.modLog_romextRan (s : State) (f : RingLog → RingLog) :
    (s.modLog f).romextRan = s.romextRan := rfl
@[simp] theorem State.modLog_t1 (s : State) (f : RingLog → RingLog) : (s.modLog f).t1 = s.t1 := rfl
@[simp] theorem State.modLog_lc (s : State) (f : RingLog → RingLog) : (s.modLog f).lc = s.lc := rfl
@[simp] theorem State.modLog_lanes (s : State) (f : RingLog → RingLog) : (s.modLog f).lanes = s.lanes := rfl
@[simp] theorem State.modLog_engines (s : State) (f : RingLog → RingLog) : (s.modLog f).engines = s.engines := rfl
@[simp] theorem State.modLog_replacedEngines (s : State) (f : RingLog → RingLog) :
    (s.modLog f).replacedEngines = s.replacedEngines := rfl
@[simp] theorem State.modLog_mirror (s : State) (f : RingLog → RingLog) : (s.modLog f).mirror = s.mirror := rfl
@[simp] theorem State.modLog_pages (s : State) (f : RingLog → RingLog) : (s.modLog f).pages = s.pages := rfl
@[simp] theorem State.modLog_cacheBanks (s : State) (f : RingLog → RingLog) :
    (s.modLog f).cacheBanks = s.cacheBanks := rfl
@[simp] theorem State.modLog_staging (s : State) (f : RingLog → RingLog) : (s.modLog f).staging = s.staging := rfl
@[simp] theorem State.modLog_resA (s : State) (f : RingLog → RingLog) : (s.modLog f).resA = s.resA := rfl
@[simp] theorem State.modLog_resB (s : State) (f : RingLog → RingLog) : (s.modLog f).resB = s.resB := rfl
@[simp] theorem State.modLog_chuck (s : State) (f : RingLog → RingLog) : (s.modLog f).chuck = s.chuck := rfl
@[simp] theorem State.modLog_fuses (s : State) (f : RingLog → RingLog) : (s.modLog f).fuses = s.fuses := rfl
@[simp] theorem State.modLog_nvm (s : State) (f : RingLog → RingLog) :
    (s.modLog f).nvm = { s.nvm with log := f s.nvm.log } := rfl
@[simp] theorem State.modLog_keys (s : State) (f : RingLog → RingLog) : (s.modLog f).keys = s.keys := rfl
@[simp] theorem State.modLog_backup (s : State) (f : RingLog → RingLog) : (s.modLog f).backup = s.backup := rfl
@[simp] theorem State.modLog_weir (s : State) (f : RingLog → RingLog) : (s.modLog f).weir = s.weir := rfl
@[simp] theorem State.modLog_levee (s : State) (f : RingLog → RingLog) : (s.modLog f).levee = s.levee := rfl
@[simp] theorem State.modLog_conf (s : State) (f : RingLog → RingLog) : (s.modLog f).conf = s.conf := rfl
@[simp] theorem State.modLog_stolik (s : State) (f : RingLog → RingLog) : (s.modLog f).stolik = s.stolik := rfl
@[simp] theorem State.modLog_adm (s : State) (f : RingLog → RingLog) : (s.modLog f).adm = s.adm := rfl
@[simp] theorem State.modLog_fabric (s : State) (f : RingLog → RingLog) : (s.modLog f).fabric = s.fabric := rfl
@[simp] theorem State.modLog_buses (s : State) (f : RingLog → RingLog) : (s.modLog f).buses = s.buses := rfl
@[simp] theorem State.modLog_node (s : State) (f : RingLog → RingLog) : (s.modLog f).node = s.node := rfl
@[simp] theorem State.modLog_assigned (s : State) (f : RingLog → RingLog) : (s.modLog f).assigned = s.assigned := rfl
@[simp] theorem State.modLog_linkEn (s : State) (f : RingLog → RingLog) : (s.modLog f).linkEn = s.linkEn := rfl
@[simp] theorem State.modLog_timeRoot (s : State) (f : RingLog → RingLog) : (s.modLog f).timeRoot = s.timeRoot := rfl
@[simp] theorem State.modLog_eidBase (s : State) (f : RingLog → RingLog) : (s.modLog f).eidBase = s.eidBase := rfl
@[simp] theorem State.modLog_bridge (s : State) (f : RingLog → RingLog) : (s.modLog f).bridge = s.bridge := rfl
@[simp] theorem State.modLog_snap (s : State) (f : RingLog → RingLog) : (s.modLog f).snap = s.snap := rfl
@[simp] theorem State.modLog_tempWarning (s : State) (f : RingLog → RingLog) :
    (s.modLog f).tempWarning = s.tempWarning := rfl
@[simp] theorem State.modLog_defects (s : State) (f : RingLog → RingLog) : (s.modLog f).defects = s.defects := rfl
@[simp] theorem State.modLog_patrolled (s : State) (f : RingLog → RingLog) :
    (s.modLog f).patrolled = s.patrolled := rfl

/-! ### State.modSlot -/

@[simp] theorem State.modSlot_pending (s : State) (i : Fin 1024) (f : Slot → Slot) :
    (s.modSlot i f).pending = s.pending := rfl
@[simp] theorem State.modSlot_free (s : State) (i : Fin 1024) (f : Slot → Slot) : (s.modSlot i f).free = s.free := rfl
@[simp] theorem State.modSlot_tick (s : State) (i : Fin 1024) (f : Slot → Slot) : (s.modSlot i f).tick = s.tick := rfl
@[simp] theorem State.modSlot_time (s : State) (i : Fin 1024) (f : Slot → Slot) : (s.modSlot i f).time = s.time := rfl
@[simp] theorem State.modSlot_timeFrac (s : State) (i : Fin 1024) (f : Slot → Slot) :
    (s.modSlot i f).timeFrac = s.timeFrac := rfl
@[simp] theorem State.modSlot_timeSource (s : State) (i : Fin 1024) (f : Slot → Slot) :
    (s.modSlot i f).timeSource = s.timeSource := rfl
@[simp] theorem State.modSlot_mode (s : State) (i : Fin 1024) (f : Slot → Slot) : (s.modSlot i f).mode = s.mode := rfl
@[simp] theorem State.modSlot_warm (s : State) (i : Fin 1024) (f : Slot → Slot) : (s.modSlot i f).warm = s.warm := rfl
@[simp] theorem State.modSlot_planned (s : State) (i : Fin 1024) (f : Slot → Slot) :
    (s.modSlot i f).planned = s.planned := rfl
@[simp] theorem State.modSlot_running (s : State) (i : Fin 1024) (f : Slot → Slot) :
    (s.modSlot i f).running = s.running := rfl
@[simp] theorem State.modSlot_romextRan (s : State) (i : Fin 1024) (f : Slot → Slot) :
    (s.modSlot i f).romextRan = s.romextRan := rfl
@[simp] theorem State.modSlot_t1 (s : State) (i : Fin 1024) (f : Slot → Slot) : (s.modSlot i f).t1 = s.t1 := rfl
@[simp] theorem State.modSlot_lc (s : State) (i : Fin 1024) (f : Slot → Slot) : (s.modSlot i f).lc = s.lc := rfl
@[simp] theorem State.modSlot_lanes (s : State) (i : Fin 1024) (f : Slot → Slot) :
    (s.modSlot i f).lanes = s.lanes := rfl
@[simp] theorem State.modSlot_engines (s : State) (i : Fin 1024) (f : Slot → Slot) :
    (s.modSlot i f).engines = s.engines := rfl
@[simp] theorem State.modSlot_replacedEngines (s : State) (i : Fin 1024) (f : Slot → Slot) :
    (s.modSlot i f).replacedEngines = s.replacedEngines := rfl
@[simp] theorem State.modSlot_mirror (s : State) (i : Fin 1024) (f : Slot → Slot) :
    (s.modSlot i f).mirror = s.mirror := rfl
@[simp] theorem State.modSlot_pages (s : State) (i : Fin 1024) (f : Slot → Slot) :
    (s.modSlot i f).pages = s.pages := rfl
@[simp] theorem State.modSlot_cacheBanks (s : State) (i : Fin 1024) (f : Slot → Slot) :
    (s.modSlot i f).cacheBanks = s.cacheBanks := rfl
@[simp] theorem State.modSlot_staging (s : State) (i : Fin 1024) (f : Slot → Slot) :
    (s.modSlot i f).staging = s.staging := rfl
@[simp] theorem State.modSlot_resA (s : State) (i : Fin 1024) (f : Slot → Slot) : (s.modSlot i f).resA = s.resA := rfl
@[simp] theorem State.modSlot_resB (s : State) (i : Fin 1024) (f : Slot → Slot) : (s.modSlot i f).resB = s.resB := rfl
@[simp] theorem State.modSlot_chuck (s : State) (i : Fin 1024) (f : Slot → Slot) :
    (s.modSlot i f).chuck = s.chuck := rfl
@[simp] theorem State.modSlot_fuses (s : State) (i : Fin 1024) (f : Slot → Slot) :
    (s.modSlot i f).fuses = s.fuses := rfl
@[simp] theorem State.modSlot_nvm (s : State) (i : Fin 1024) (f : Slot → Slot) :
    (s.modSlot i f).nvm = { s.nvm with slots := vmod s.nvm.slots i f } := rfl
@[simp] theorem State.modSlot_keys (s : State) (i : Fin 1024) (f : Slot → Slot) : (s.modSlot i f).keys = s.keys := rfl
@[simp] theorem State.modSlot_backup (s : State) (i : Fin 1024) (f : Slot → Slot) :
    (s.modSlot i f).backup = s.backup := rfl
@[simp] theorem State.modSlot_weir (s : State) (i : Fin 1024) (f : Slot → Slot) : (s.modSlot i f).weir = s.weir := rfl
@[simp] theorem State.modSlot_levee (s : State) (i : Fin 1024) (f : Slot → Slot) :
    (s.modSlot i f).levee = s.levee := rfl
@[simp] theorem State.modSlot_conf (s : State) (i : Fin 1024) (f : Slot → Slot) : (s.modSlot i f).conf = s.conf := rfl
@[simp] theorem State.modSlot_stolik (s : State) (i : Fin 1024) (f : Slot → Slot) :
    (s.modSlot i f).stolik = s.stolik := rfl
@[simp] theorem State.modSlot_adm (s : State) (i : Fin 1024) (f : Slot → Slot) : (s.modSlot i f).adm = s.adm := rfl
@[simp] theorem State.modSlot_fabric (s : State) (i : Fin 1024) (f : Slot → Slot) :
    (s.modSlot i f).fabric = s.fabric := rfl
@[simp] theorem State.modSlot_buses (s : State) (i : Fin 1024) (f : Slot → Slot) :
    (s.modSlot i f).buses = s.buses := rfl
@[simp] theorem State.modSlot_node (s : State) (i : Fin 1024) (f : Slot → Slot) : (s.modSlot i f).node = s.node := rfl
@[simp] theorem State.modSlot_assigned (s : State) (i : Fin 1024) (f : Slot → Slot) :
    (s.modSlot i f).assigned = s.assigned := rfl
@[simp] theorem State.modSlot_linkEn (s : State) (i : Fin 1024) (f : Slot → Slot) :
    (s.modSlot i f).linkEn = s.linkEn := rfl
@[simp] theorem State.modSlot_timeRoot (s : State) (i : Fin 1024) (f : Slot → Slot) :
    (s.modSlot i f).timeRoot = s.timeRoot := rfl
@[simp] theorem State.modSlot_eidBase (s : State) (i : Fin 1024) (f : Slot → Slot) :
    (s.modSlot i f).eidBase = s.eidBase := rfl
@[simp] theorem State.modSlot_bridge (s : State) (i : Fin 1024) (f : Slot → Slot) :
    (s.modSlot i f).bridge = s.bridge := rfl
@[simp] theorem State.modSlot_snap (s : State) (i : Fin 1024) (f : Slot → Slot) : (s.modSlot i f).snap = s.snap := rfl
@[simp] theorem State.modSlot_tempWarning (s : State) (i : Fin 1024) (f : Slot → Slot) :
    (s.modSlot i f).tempWarning = s.tempWarning := rfl
@[simp] theorem State.modSlot_defects (s : State) (i : Fin 1024) (f : Slot → Slot) :
    (s.modSlot i f).defects = s.defects := rfl
@[simp] theorem State.modSlot_patrolled (s : State) (i : Fin 1024) (f : Slot → Slot) :
    (s.modSlot i f).patrolled = s.patrolled := rfl

/-! ### State.modKeys -/

@[simp] theorem State.modKeys_pending (s : State) (f : Keys → Keys) : (s.modKeys f).pending = s.pending := rfl
@[simp] theorem State.modKeys_free (s : State) (f : Keys → Keys) : (s.modKeys f).free = s.free := rfl
@[simp] theorem State.modKeys_tick (s : State) (f : Keys → Keys) : (s.modKeys f).tick = s.tick := rfl
@[simp] theorem State.modKeys_time (s : State) (f : Keys → Keys) : (s.modKeys f).time = s.time := rfl
@[simp] theorem State.modKeys_timeFrac (s : State) (f : Keys → Keys) : (s.modKeys f).timeFrac = s.timeFrac := rfl
@[simp] theorem State.modKeys_timeSource (s : State) (f : Keys → Keys) :
    (s.modKeys f).timeSource = s.timeSource := rfl
@[simp] theorem State.modKeys_mode (s : State) (f : Keys → Keys) : (s.modKeys f).mode = s.mode := rfl
@[simp] theorem State.modKeys_warm (s : State) (f : Keys → Keys) : (s.modKeys f).warm = s.warm := rfl
@[simp] theorem State.modKeys_planned (s : State) (f : Keys → Keys) : (s.modKeys f).planned = s.planned := rfl
@[simp] theorem State.modKeys_running (s : State) (f : Keys → Keys) : (s.modKeys f).running = s.running := rfl
@[simp] theorem State.modKeys_romextRan (s : State) (f : Keys → Keys) : (s.modKeys f).romextRan = s.romextRan := rfl
@[simp] theorem State.modKeys_t1 (s : State) (f : Keys → Keys) : (s.modKeys f).t1 = s.t1 := rfl
@[simp] theorem State.modKeys_lc (s : State) (f : Keys → Keys) : (s.modKeys f).lc = s.lc := rfl
@[simp] theorem State.modKeys_lanes (s : State) (f : Keys → Keys) : (s.modKeys f).lanes = s.lanes := rfl
@[simp] theorem State.modKeys_engines (s : State) (f : Keys → Keys) : (s.modKeys f).engines = s.engines := rfl
@[simp] theorem State.modKeys_replacedEngines (s : State) (f : Keys → Keys) :
    (s.modKeys f).replacedEngines = s.replacedEngines := rfl
@[simp] theorem State.modKeys_mirror (s : State) (f : Keys → Keys) : (s.modKeys f).mirror = s.mirror := rfl
@[simp] theorem State.modKeys_pages (s : State) (f : Keys → Keys) : (s.modKeys f).pages = s.pages := rfl
@[simp] theorem State.modKeys_cacheBanks (s : State) (f : Keys → Keys) :
    (s.modKeys f).cacheBanks = s.cacheBanks := rfl
@[simp] theorem State.modKeys_staging (s : State) (f : Keys → Keys) : (s.modKeys f).staging = s.staging := rfl
@[simp] theorem State.modKeys_resA (s : State) (f : Keys → Keys) : (s.modKeys f).resA = s.resA := rfl
@[simp] theorem State.modKeys_resB (s : State) (f : Keys → Keys) : (s.modKeys f).resB = s.resB := rfl
@[simp] theorem State.modKeys_chuck (s : State) (f : Keys → Keys) : (s.modKeys f).chuck = s.chuck := rfl
@[simp] theorem State.modKeys_fuses (s : State) (f : Keys → Keys) : (s.modKeys f).fuses = s.fuses := rfl
@[simp] theorem State.modKeys_nvm (s : State) (f : Keys → Keys) : (s.modKeys f).nvm = s.nvm := rfl
@[simp] theorem State.modKeys_keys (s : State) (f : Keys → Keys) : (s.modKeys f).keys = f s.keys := rfl
@[simp] theorem State.modKeys_backup (s : State) (f : Keys → Keys) : (s.modKeys f).backup = s.backup := rfl
@[simp] theorem State.modKeys_weir (s : State) (f : Keys → Keys) : (s.modKeys f).weir = s.weir := rfl
@[simp] theorem State.modKeys_levee (s : State) (f : Keys → Keys) : (s.modKeys f).levee = s.levee := rfl
@[simp] theorem State.modKeys_conf (s : State) (f : Keys → Keys) : (s.modKeys f).conf = s.conf := rfl
@[simp] theorem State.modKeys_stolik (s : State) (f : Keys → Keys) : (s.modKeys f).stolik = s.stolik := rfl
@[simp] theorem State.modKeys_adm (s : State) (f : Keys → Keys) : (s.modKeys f).adm = s.adm := rfl
@[simp] theorem State.modKeys_fabric (s : State) (f : Keys → Keys) : (s.modKeys f).fabric = s.fabric := rfl
@[simp] theorem State.modKeys_buses (s : State) (f : Keys → Keys) : (s.modKeys f).buses = s.buses := rfl
@[simp] theorem State.modKeys_node (s : State) (f : Keys → Keys) : (s.modKeys f).node = s.node := rfl
@[simp] theorem State.modKeys_assigned (s : State) (f : Keys → Keys) : (s.modKeys f).assigned = s.assigned := rfl
@[simp] theorem State.modKeys_linkEn (s : State) (f : Keys → Keys) : (s.modKeys f).linkEn = s.linkEn := rfl
@[simp] theorem State.modKeys_timeRoot (s : State) (f : Keys → Keys) : (s.modKeys f).timeRoot = s.timeRoot := rfl
@[simp] theorem State.modKeys_eidBase (s : State) (f : Keys → Keys) : (s.modKeys f).eidBase = s.eidBase := rfl
@[simp] theorem State.modKeys_bridge (s : State) (f : Keys → Keys) : (s.modKeys f).bridge = s.bridge := rfl
@[simp] theorem State.modKeys_snap (s : State) (f : Keys → Keys) : (s.modKeys f).snap = s.snap := rfl
@[simp] theorem State.modKeys_tempWarning (s : State) (f : Keys → Keys) :
    (s.modKeys f).tempWarning = s.tempWarning := rfl
@[simp] theorem State.modKeys_defects (s : State) (f : Keys → Keys) : (s.modKeys f).defects = s.defects := rfl
@[simp] theorem State.modKeys_patrolled (s : State) (f : Keys → Keys) : (s.modKeys f).patrolled = s.patrolled := rfl

/-! ### State.modBackup -/

@[simp] theorem State.modBackup_pending (s : State) (f : Backup → Backup) : (s.modBackup f).pending = s.pending := rfl
@[simp] theorem State.modBackup_free (s : State) (f : Backup → Backup) : (s.modBackup f).free = s.free := rfl
@[simp] theorem State.modBackup_tick (s : State) (f : Backup → Backup) : (s.modBackup f).tick = s.tick := rfl
@[simp] theorem State.modBackup_time (s : State) (f : Backup → Backup) : (s.modBackup f).time = s.time := rfl
@[simp] theorem State.modBackup_timeFrac (s : State) (f : Backup → Backup) :
    (s.modBackup f).timeFrac = s.timeFrac := rfl
@[simp] theorem State.modBackup_timeSource (s : State) (f : Backup → Backup) :
    (s.modBackup f).timeSource = s.timeSource := rfl
@[simp] theorem State.modBackup_mode (s : State) (f : Backup → Backup) : (s.modBackup f).mode = s.mode := rfl
@[simp] theorem State.modBackup_warm (s : State) (f : Backup → Backup) : (s.modBackup f).warm = s.warm := rfl
@[simp] theorem State.modBackup_planned (s : State) (f : Backup → Backup) : (s.modBackup f).planned = s.planned := rfl
@[simp] theorem State.modBackup_running (s : State) (f : Backup → Backup) : (s.modBackup f).running = s.running := rfl
@[simp] theorem State.modBackup_romextRan (s : State) (f : Backup → Backup) :
    (s.modBackup f).romextRan = s.romextRan := rfl
@[simp] theorem State.modBackup_t1 (s : State) (f : Backup → Backup) : (s.modBackup f).t1 = s.t1 := rfl
@[simp] theorem State.modBackup_lc (s : State) (f : Backup → Backup) : (s.modBackup f).lc = s.lc := rfl
@[simp] theorem State.modBackup_lanes (s : State) (f : Backup → Backup) : (s.modBackup f).lanes = s.lanes := rfl
@[simp] theorem State.modBackup_engines (s : State) (f : Backup → Backup) : (s.modBackup f).engines = s.engines := rfl
@[simp] theorem State.modBackup_replacedEngines (s : State) (f : Backup → Backup) :
    (s.modBackup f).replacedEngines = s.replacedEngines := rfl
@[simp] theorem State.modBackup_mirror (s : State) (f : Backup → Backup) : (s.modBackup f).mirror = s.mirror := rfl
@[simp] theorem State.modBackup_pages (s : State) (f : Backup → Backup) : (s.modBackup f).pages = s.pages := rfl
@[simp] theorem State.modBackup_cacheBanks (s : State) (f : Backup → Backup) :
    (s.modBackup f).cacheBanks = s.cacheBanks := rfl
@[simp] theorem State.modBackup_staging (s : State) (f : Backup → Backup) : (s.modBackup f).staging = s.staging := rfl
@[simp] theorem State.modBackup_resA (s : State) (f : Backup → Backup) : (s.modBackup f).resA = s.resA := rfl
@[simp] theorem State.modBackup_resB (s : State) (f : Backup → Backup) : (s.modBackup f).resB = s.resB := rfl
@[simp] theorem State.modBackup_chuck (s : State) (f : Backup → Backup) : (s.modBackup f).chuck = s.chuck := rfl
@[simp] theorem State.modBackup_fuses (s : State) (f : Backup → Backup) : (s.modBackup f).fuses = s.fuses := rfl
@[simp] theorem State.modBackup_nvm (s : State) (f : Backup → Backup) : (s.modBackup f).nvm = s.nvm := rfl
@[simp] theorem State.modBackup_keys (s : State) (f : Backup → Backup) : (s.modBackup f).keys = s.keys := rfl
@[simp] theorem State.modBackup_backup (s : State) (f : Backup → Backup) : (s.modBackup f).backup = f s.backup := rfl
@[simp] theorem State.modBackup_weir (s : State) (f : Backup → Backup) : (s.modBackup f).weir = s.weir := rfl
@[simp] theorem State.modBackup_levee (s : State) (f : Backup → Backup) : (s.modBackup f).levee = s.levee := rfl
@[simp] theorem State.modBackup_conf (s : State) (f : Backup → Backup) : (s.modBackup f).conf = s.conf := rfl
@[simp] theorem State.modBackup_stolik (s : State) (f : Backup → Backup) : (s.modBackup f).stolik = s.stolik := rfl
@[simp] theorem State.modBackup_adm (s : State) (f : Backup → Backup) : (s.modBackup f).adm = s.adm := rfl
@[simp] theorem State.modBackup_fabric (s : State) (f : Backup → Backup) : (s.modBackup f).fabric = s.fabric := rfl
@[simp] theorem State.modBackup_buses (s : State) (f : Backup → Backup) : (s.modBackup f).buses = s.buses := rfl
@[simp] theorem State.modBackup_node (s : State) (f : Backup → Backup) : (s.modBackup f).node = s.node := rfl
@[simp] theorem State.modBackup_assigned (s : State) (f : Backup → Backup) :
    (s.modBackup f).assigned = s.assigned := rfl
@[simp] theorem State.modBackup_linkEn (s : State) (f : Backup → Backup) : (s.modBackup f).linkEn = s.linkEn := rfl
@[simp] theorem State.modBackup_timeRoot (s : State) (f : Backup → Backup) :
    (s.modBackup f).timeRoot = s.timeRoot := rfl
@[simp] theorem State.modBackup_eidBase (s : State) (f : Backup → Backup) : (s.modBackup f).eidBase = s.eidBase := rfl
@[simp] theorem State.modBackup_bridge (s : State) (f : Backup → Backup) : (s.modBackup f).bridge = s.bridge := rfl
@[simp] theorem State.modBackup_snap (s : State) (f : Backup → Backup) : (s.modBackup f).snap = s.snap := rfl
@[simp] theorem State.modBackup_tempWarning (s : State) (f : Backup → Backup) :
    (s.modBackup f).tempWarning = s.tempWarning := rfl
@[simp] theorem State.modBackup_defects (s : State) (f : Backup → Backup) : (s.modBackup f).defects = s.defects := rfl
@[simp] theorem State.modBackup_patrolled (s : State) (f : Backup → Backup) :
    (s.modBackup f).patrolled = s.patrolled := rfl

/-! ### State.modWeir -/

@[simp] theorem State.modWeir_pending (s : State) (f : Weir → Weir) : (s.modWeir f).pending = s.pending := rfl
@[simp] theorem State.modWeir_free (s : State) (f : Weir → Weir) : (s.modWeir f).free = s.free := rfl
@[simp] theorem State.modWeir_tick (s : State) (f : Weir → Weir) : (s.modWeir f).tick = s.tick := rfl
@[simp] theorem State.modWeir_time (s : State) (f : Weir → Weir) : (s.modWeir f).time = s.time := rfl
@[simp] theorem State.modWeir_timeFrac (s : State) (f : Weir → Weir) : (s.modWeir f).timeFrac = s.timeFrac := rfl
@[simp] theorem State.modWeir_timeSource (s : State) (f : Weir → Weir) :
    (s.modWeir f).timeSource = s.timeSource := rfl
@[simp] theorem State.modWeir_mode (s : State) (f : Weir → Weir) : (s.modWeir f).mode = s.mode := rfl
@[simp] theorem State.modWeir_warm (s : State) (f : Weir → Weir) : (s.modWeir f).warm = s.warm := rfl
@[simp] theorem State.modWeir_planned (s : State) (f : Weir → Weir) : (s.modWeir f).planned = s.planned := rfl
@[simp] theorem State.modWeir_running (s : State) (f : Weir → Weir) : (s.modWeir f).running = s.running := rfl
@[simp] theorem State.modWeir_romextRan (s : State) (f : Weir → Weir) : (s.modWeir f).romextRan = s.romextRan := rfl
@[simp] theorem State.modWeir_t1 (s : State) (f : Weir → Weir) : (s.modWeir f).t1 = s.t1 := rfl
@[simp] theorem State.modWeir_lc (s : State) (f : Weir → Weir) : (s.modWeir f).lc = s.lc := rfl
@[simp] theorem State.modWeir_lanes (s : State) (f : Weir → Weir) : (s.modWeir f).lanes = s.lanes := rfl
@[simp] theorem State.modWeir_engines (s : State) (f : Weir → Weir) : (s.modWeir f).engines = s.engines := rfl
@[simp] theorem State.modWeir_replacedEngines (s : State) (f : Weir → Weir) :
    (s.modWeir f).replacedEngines = s.replacedEngines := rfl
@[simp] theorem State.modWeir_mirror (s : State) (f : Weir → Weir) : (s.modWeir f).mirror = s.mirror := rfl
@[simp] theorem State.modWeir_pages (s : State) (f : Weir → Weir) : (s.modWeir f).pages = s.pages := rfl
@[simp] theorem State.modWeir_cacheBanks (s : State) (f : Weir → Weir) :
    (s.modWeir f).cacheBanks = s.cacheBanks := rfl
@[simp] theorem State.modWeir_staging (s : State) (f : Weir → Weir) : (s.modWeir f).staging = s.staging := rfl
@[simp] theorem State.modWeir_resA (s : State) (f : Weir → Weir) : (s.modWeir f).resA = s.resA := rfl
@[simp] theorem State.modWeir_resB (s : State) (f : Weir → Weir) : (s.modWeir f).resB = s.resB := rfl
@[simp] theorem State.modWeir_chuck (s : State) (f : Weir → Weir) : (s.modWeir f).chuck = s.chuck := rfl
@[simp] theorem State.modWeir_fuses (s : State) (f : Weir → Weir) : (s.modWeir f).fuses = s.fuses := rfl
@[simp] theorem State.modWeir_nvm (s : State) (f : Weir → Weir) : (s.modWeir f).nvm = s.nvm := rfl
@[simp] theorem State.modWeir_keys (s : State) (f : Weir → Weir) : (s.modWeir f).keys = s.keys := rfl
@[simp] theorem State.modWeir_backup (s : State) (f : Weir → Weir) : (s.modWeir f).backup = s.backup := rfl
@[simp] theorem State.modWeir_weir (s : State) (f : Weir → Weir) : (s.modWeir f).weir = f s.weir := rfl
@[simp] theorem State.modWeir_levee (s : State) (f : Weir → Weir) : (s.modWeir f).levee = s.levee := rfl
@[simp] theorem State.modWeir_conf (s : State) (f : Weir → Weir) : (s.modWeir f).conf = s.conf := rfl
@[simp] theorem State.modWeir_stolik (s : State) (f : Weir → Weir) : (s.modWeir f).stolik = s.stolik := rfl
@[simp] theorem State.modWeir_adm (s : State) (f : Weir → Weir) : (s.modWeir f).adm = s.adm := rfl
@[simp] theorem State.modWeir_fabric (s : State) (f : Weir → Weir) : (s.modWeir f).fabric = s.fabric := rfl
@[simp] theorem State.modWeir_buses (s : State) (f : Weir → Weir) : (s.modWeir f).buses = s.buses := rfl
@[simp] theorem State.modWeir_node (s : State) (f : Weir → Weir) : (s.modWeir f).node = s.node := rfl
@[simp] theorem State.modWeir_assigned (s : State) (f : Weir → Weir) : (s.modWeir f).assigned = s.assigned := rfl
@[simp] theorem State.modWeir_linkEn (s : State) (f : Weir → Weir) : (s.modWeir f).linkEn = s.linkEn := rfl
@[simp] theorem State.modWeir_timeRoot (s : State) (f : Weir → Weir) : (s.modWeir f).timeRoot = s.timeRoot := rfl
@[simp] theorem State.modWeir_eidBase (s : State) (f : Weir → Weir) : (s.modWeir f).eidBase = s.eidBase := rfl
@[simp] theorem State.modWeir_bridge (s : State) (f : Weir → Weir) : (s.modWeir f).bridge = s.bridge := rfl
@[simp] theorem State.modWeir_snap (s : State) (f : Weir → Weir) : (s.modWeir f).snap = s.snap := rfl
@[simp] theorem State.modWeir_tempWarning (s : State) (f : Weir → Weir) :
    (s.modWeir f).tempWarning = s.tempWarning := rfl
@[simp] theorem State.modWeir_defects (s : State) (f : Weir → Weir) : (s.modWeir f).defects = s.defects := rfl
@[simp] theorem State.modWeir_patrolled (s : State) (f : Weir → Weir) : (s.modWeir f).patrolled = s.patrolled := rfl

/-! ### State.modLevee -/

@[simp] theorem State.modLevee_pending (s : State) (f : Levee → Levee) : (s.modLevee f).pending = s.pending := rfl
@[simp] theorem State.modLevee_free (s : State) (f : Levee → Levee) : (s.modLevee f).free = s.free := rfl
@[simp] theorem State.modLevee_tick (s : State) (f : Levee → Levee) : (s.modLevee f).tick = s.tick := rfl
@[simp] theorem State.modLevee_time (s : State) (f : Levee → Levee) : (s.modLevee f).time = s.time := rfl
@[simp] theorem State.modLevee_timeFrac (s : State) (f : Levee → Levee) : (s.modLevee f).timeFrac = s.timeFrac := rfl
@[simp] theorem State.modLevee_timeSource (s : State) (f : Levee → Levee) :
    (s.modLevee f).timeSource = s.timeSource := rfl
@[simp] theorem State.modLevee_mode (s : State) (f : Levee → Levee) : (s.modLevee f).mode = s.mode := rfl
@[simp] theorem State.modLevee_warm (s : State) (f : Levee → Levee) : (s.modLevee f).warm = s.warm := rfl
@[simp] theorem State.modLevee_planned (s : State) (f : Levee → Levee) : (s.modLevee f).planned = s.planned := rfl
@[simp] theorem State.modLevee_running (s : State) (f : Levee → Levee) : (s.modLevee f).running = s.running := rfl
@[simp] theorem State.modLevee_romextRan (s : State) (f : Levee → Levee) :
    (s.modLevee f).romextRan = s.romextRan := rfl
@[simp] theorem State.modLevee_t1 (s : State) (f : Levee → Levee) : (s.modLevee f).t1 = s.t1 := rfl
@[simp] theorem State.modLevee_lc (s : State) (f : Levee → Levee) : (s.modLevee f).lc = s.lc := rfl
@[simp] theorem State.modLevee_lanes (s : State) (f : Levee → Levee) : (s.modLevee f).lanes = s.lanes := rfl
@[simp] theorem State.modLevee_engines (s : State) (f : Levee → Levee) : (s.modLevee f).engines = s.engines := rfl
@[simp] theorem State.modLevee_replacedEngines (s : State) (f : Levee → Levee) :
    (s.modLevee f).replacedEngines = s.replacedEngines := rfl
@[simp] theorem State.modLevee_mirror (s : State) (f : Levee → Levee) : (s.modLevee f).mirror = s.mirror := rfl
@[simp] theorem State.modLevee_pages (s : State) (f : Levee → Levee) : (s.modLevee f).pages = s.pages := rfl
@[simp] theorem State.modLevee_cacheBanks (s : State) (f : Levee → Levee) :
    (s.modLevee f).cacheBanks = s.cacheBanks := rfl
@[simp] theorem State.modLevee_staging (s : State) (f : Levee → Levee) : (s.modLevee f).staging = s.staging := rfl
@[simp] theorem State.modLevee_resA (s : State) (f : Levee → Levee) : (s.modLevee f).resA = s.resA := rfl
@[simp] theorem State.modLevee_resB (s : State) (f : Levee → Levee) : (s.modLevee f).resB = s.resB := rfl
@[simp] theorem State.modLevee_chuck (s : State) (f : Levee → Levee) : (s.modLevee f).chuck = s.chuck := rfl
@[simp] theorem State.modLevee_fuses (s : State) (f : Levee → Levee) : (s.modLevee f).fuses = s.fuses := rfl
@[simp] theorem State.modLevee_nvm (s : State) (f : Levee → Levee) : (s.modLevee f).nvm = s.nvm := rfl
@[simp] theorem State.modLevee_keys (s : State) (f : Levee → Levee) : (s.modLevee f).keys = s.keys := rfl
@[simp] theorem State.modLevee_backup (s : State) (f : Levee → Levee) : (s.modLevee f).backup = s.backup := rfl
@[simp] theorem State.modLevee_weir (s : State) (f : Levee → Levee) : (s.modLevee f).weir = s.weir := rfl
@[simp] theorem State.modLevee_levee (s : State) (f : Levee → Levee) : (s.modLevee f).levee = f s.levee := rfl
@[simp] theorem State.modLevee_conf (s : State) (f : Levee → Levee) : (s.modLevee f).conf = s.conf := rfl
@[simp] theorem State.modLevee_stolik (s : State) (f : Levee → Levee) : (s.modLevee f).stolik = s.stolik := rfl
@[simp] theorem State.modLevee_adm (s : State) (f : Levee → Levee) : (s.modLevee f).adm = s.adm := rfl
@[simp] theorem State.modLevee_fabric (s : State) (f : Levee → Levee) : (s.modLevee f).fabric = s.fabric := rfl
@[simp] theorem State.modLevee_buses (s : State) (f : Levee → Levee) : (s.modLevee f).buses = s.buses := rfl
@[simp] theorem State.modLevee_node (s : State) (f : Levee → Levee) : (s.modLevee f).node = s.node := rfl
@[simp] theorem State.modLevee_assigned (s : State) (f : Levee → Levee) : (s.modLevee f).assigned = s.assigned := rfl
@[simp] theorem State.modLevee_linkEn (s : State) (f : Levee → Levee) : (s.modLevee f).linkEn = s.linkEn := rfl
@[simp] theorem State.modLevee_timeRoot (s : State) (f : Levee → Levee) : (s.modLevee f).timeRoot = s.timeRoot := rfl
@[simp] theorem State.modLevee_eidBase (s : State) (f : Levee → Levee) : (s.modLevee f).eidBase = s.eidBase := rfl
@[simp] theorem State.modLevee_bridge (s : State) (f : Levee → Levee) : (s.modLevee f).bridge = s.bridge := rfl
@[simp] theorem State.modLevee_snap (s : State) (f : Levee → Levee) : (s.modLevee f).snap = s.snap := rfl
@[simp] theorem State.modLevee_tempWarning (s : State) (f : Levee → Levee) :
    (s.modLevee f).tempWarning = s.tempWarning := rfl
@[simp] theorem State.modLevee_defects (s : State) (f : Levee → Levee) : (s.modLevee f).defects = s.defects := rfl
@[simp] theorem State.modLevee_patrolled (s : State) (f : Levee → Levee) :
    (s.modLevee f).patrolled = s.patrolled := rfl

/-! ### State.modConf -/

@[simp] theorem State.modConf_pending (s : State) (f : Confluence → Confluence) :
    (s.modConf f).pending = s.pending := rfl
@[simp] theorem State.modConf_free (s : State) (f : Confluence → Confluence) : (s.modConf f).free = s.free := rfl
@[simp] theorem State.modConf_tick (s : State) (f : Confluence → Confluence) : (s.modConf f).tick = s.tick := rfl
@[simp] theorem State.modConf_time (s : State) (f : Confluence → Confluence) : (s.modConf f).time = s.time := rfl
@[simp] theorem State.modConf_timeFrac (s : State) (f : Confluence → Confluence) :
    (s.modConf f).timeFrac = s.timeFrac := rfl
@[simp] theorem State.modConf_timeSource (s : State) (f : Confluence → Confluence) :
    (s.modConf f).timeSource = s.timeSource := rfl
@[simp] theorem State.modConf_mode (s : State) (f : Confluence → Confluence) : (s.modConf f).mode = s.mode := rfl
@[simp] theorem State.modConf_warm (s : State) (f : Confluence → Confluence) : (s.modConf f).warm = s.warm := rfl
@[simp] theorem State.modConf_planned (s : State) (f : Confluence → Confluence) :
    (s.modConf f).planned = s.planned := rfl
@[simp] theorem State.modConf_running (s : State) (f : Confluence → Confluence) :
    (s.modConf f).running = s.running := rfl
@[simp] theorem State.modConf_romextRan (s : State) (f : Confluence → Confluence) :
    (s.modConf f).romextRan = s.romextRan := rfl
@[simp] theorem State.modConf_t1 (s : State) (f : Confluence → Confluence) : (s.modConf f).t1 = s.t1 := rfl
@[simp] theorem State.modConf_lc (s : State) (f : Confluence → Confluence) : (s.modConf f).lc = s.lc := rfl
@[simp] theorem State.modConf_lanes (s : State) (f : Confluence → Confluence) : (s.modConf f).lanes = s.lanes := rfl
@[simp] theorem State.modConf_engines (s : State) (f : Confluence → Confluence) :
    (s.modConf f).engines = s.engines := rfl
@[simp] theorem State.modConf_replacedEngines (s : State) (f : Confluence → Confluence) :
    (s.modConf f).replacedEngines = s.replacedEngines := rfl
@[simp] theorem State.modConf_mirror (s : State) (f : Confluence → Confluence) :
    (s.modConf f).mirror = s.mirror := rfl
@[simp] theorem State.modConf_pages (s : State) (f : Confluence → Confluence) : (s.modConf f).pages = s.pages := rfl
@[simp] theorem State.modConf_cacheBanks (s : State) (f : Confluence → Confluence) :
    (s.modConf f).cacheBanks = s.cacheBanks := rfl
@[simp] theorem State.modConf_staging (s : State) (f : Confluence → Confluence) :
    (s.modConf f).staging = s.staging := rfl
@[simp] theorem State.modConf_resA (s : State) (f : Confluence → Confluence) : (s.modConf f).resA = s.resA := rfl
@[simp] theorem State.modConf_resB (s : State) (f : Confluence → Confluence) : (s.modConf f).resB = s.resB := rfl
@[simp] theorem State.modConf_chuck (s : State) (f : Confluence → Confluence) : (s.modConf f).chuck = s.chuck := rfl
@[simp] theorem State.modConf_fuses (s : State) (f : Confluence → Confluence) : (s.modConf f).fuses = s.fuses := rfl
@[simp] theorem State.modConf_nvm (s : State) (f : Confluence → Confluence) : (s.modConf f).nvm = s.nvm := rfl
@[simp] theorem State.modConf_keys (s : State) (f : Confluence → Confluence) : (s.modConf f).keys = s.keys := rfl
@[simp] theorem State.modConf_backup (s : State) (f : Confluence → Confluence) :
    (s.modConf f).backup = s.backup := rfl
@[simp] theorem State.modConf_weir (s : State) (f : Confluence → Confluence) : (s.modConf f).weir = s.weir := rfl
@[simp] theorem State.modConf_levee (s : State) (f : Confluence → Confluence) : (s.modConf f).levee = s.levee := rfl
@[simp] theorem State.modConf_conf (s : State) (f : Confluence → Confluence) : (s.modConf f).conf = f s.conf := rfl
@[simp] theorem State.modConf_stolik (s : State) (f : Confluence → Confluence) :
    (s.modConf f).stolik = s.stolik := rfl
@[simp] theorem State.modConf_adm (s : State) (f : Confluence → Confluence) : (s.modConf f).adm = s.adm := rfl
@[simp] theorem State.modConf_fabric (s : State) (f : Confluence → Confluence) :
    (s.modConf f).fabric = s.fabric := rfl
@[simp] theorem State.modConf_buses (s : State) (f : Confluence → Confluence) : (s.modConf f).buses = s.buses := rfl
@[simp] theorem State.modConf_node (s : State) (f : Confluence → Confluence) : (s.modConf f).node = s.node := rfl
@[simp] theorem State.modConf_assigned (s : State) (f : Confluence → Confluence) :
    (s.modConf f).assigned = s.assigned := rfl
@[simp] theorem State.modConf_linkEn (s : State) (f : Confluence → Confluence) :
    (s.modConf f).linkEn = s.linkEn := rfl
@[simp] theorem State.modConf_timeRoot (s : State) (f : Confluence → Confluence) :
    (s.modConf f).timeRoot = s.timeRoot := rfl
@[simp] theorem State.modConf_eidBase (s : State) (f : Confluence → Confluence) :
    (s.modConf f).eidBase = s.eidBase := rfl
@[simp] theorem State.modConf_bridge (s : State) (f : Confluence → Confluence) :
    (s.modConf f).bridge = s.bridge := rfl
@[simp] theorem State.modConf_snap (s : State) (f : Confluence → Confluence) : (s.modConf f).snap = s.snap := rfl
@[simp] theorem State.modConf_tempWarning (s : State) (f : Confluence → Confluence) :
    (s.modConf f).tempWarning = s.tempWarning := rfl
@[simp] theorem State.modConf_defects (s : State) (f : Confluence → Confluence) :
    (s.modConf f).defects = s.defects := rfl
@[simp] theorem State.modConf_patrolled (s : State) (f : Confluence → Confluence) :
    (s.modConf f).patrolled = s.patrolled := rfl

/-! ### State.modStolik -/

@[simp] theorem State.modStolik_pending (s : State) (f : Stolik → Stolik) : (s.modStolik f).pending = s.pending := rfl
@[simp] theorem State.modStolik_free (s : State) (f : Stolik → Stolik) : (s.modStolik f).free = s.free := rfl
@[simp] theorem State.modStolik_tick (s : State) (f : Stolik → Stolik) : (s.modStolik f).tick = s.tick := rfl
@[simp] theorem State.modStolik_time (s : State) (f : Stolik → Stolik) : (s.modStolik f).time = s.time := rfl
@[simp] theorem State.modStolik_timeFrac (s : State) (f : Stolik → Stolik) :
    (s.modStolik f).timeFrac = s.timeFrac := rfl
@[simp] theorem State.modStolik_timeSource (s : State) (f : Stolik → Stolik) :
    (s.modStolik f).timeSource = s.timeSource := rfl
@[simp] theorem State.modStolik_mode (s : State) (f : Stolik → Stolik) : (s.modStolik f).mode = s.mode := rfl
@[simp] theorem State.modStolik_warm (s : State) (f : Stolik → Stolik) : (s.modStolik f).warm = s.warm := rfl
@[simp] theorem State.modStolik_planned (s : State) (f : Stolik → Stolik) : (s.modStolik f).planned = s.planned := rfl
@[simp] theorem State.modStolik_running (s : State) (f : Stolik → Stolik) : (s.modStolik f).running = s.running := rfl
@[simp] theorem State.modStolik_romextRan (s : State) (f : Stolik → Stolik) :
    (s.modStolik f).romextRan = s.romextRan := rfl
@[simp] theorem State.modStolik_t1 (s : State) (f : Stolik → Stolik) : (s.modStolik f).t1 = s.t1 := rfl
@[simp] theorem State.modStolik_lc (s : State) (f : Stolik → Stolik) : (s.modStolik f).lc = s.lc := rfl
@[simp] theorem State.modStolik_lanes (s : State) (f : Stolik → Stolik) : (s.modStolik f).lanes = s.lanes := rfl
@[simp] theorem State.modStolik_engines (s : State) (f : Stolik → Stolik) : (s.modStolik f).engines = s.engines := rfl
@[simp] theorem State.modStolik_replacedEngines (s : State) (f : Stolik → Stolik) :
    (s.modStolik f).replacedEngines = s.replacedEngines := rfl
@[simp] theorem State.modStolik_mirror (s : State) (f : Stolik → Stolik) : (s.modStolik f).mirror = s.mirror := rfl
@[simp] theorem State.modStolik_pages (s : State) (f : Stolik → Stolik) : (s.modStolik f).pages = s.pages := rfl
@[simp] theorem State.modStolik_cacheBanks (s : State) (f : Stolik → Stolik) :
    (s.modStolik f).cacheBanks = s.cacheBanks := rfl
@[simp] theorem State.modStolik_staging (s : State) (f : Stolik → Stolik) : (s.modStolik f).staging = s.staging := rfl
@[simp] theorem State.modStolik_resA (s : State) (f : Stolik → Stolik) : (s.modStolik f).resA = s.resA := rfl
@[simp] theorem State.modStolik_resB (s : State) (f : Stolik → Stolik) : (s.modStolik f).resB = s.resB := rfl
@[simp] theorem State.modStolik_chuck (s : State) (f : Stolik → Stolik) : (s.modStolik f).chuck = s.chuck := rfl
@[simp] theorem State.modStolik_fuses (s : State) (f : Stolik → Stolik) : (s.modStolik f).fuses = s.fuses := rfl
@[simp] theorem State.modStolik_nvm (s : State) (f : Stolik → Stolik) : (s.modStolik f).nvm = s.nvm := rfl
@[simp] theorem State.modStolik_keys (s : State) (f : Stolik → Stolik) : (s.modStolik f).keys = s.keys := rfl
@[simp] theorem State.modStolik_backup (s : State) (f : Stolik → Stolik) : (s.modStolik f).backup = s.backup := rfl
@[simp] theorem State.modStolik_weir (s : State) (f : Stolik → Stolik) : (s.modStolik f).weir = s.weir := rfl
@[simp] theorem State.modStolik_levee (s : State) (f : Stolik → Stolik) : (s.modStolik f).levee = s.levee := rfl
@[simp] theorem State.modStolik_conf (s : State) (f : Stolik → Stolik) : (s.modStolik f).conf = s.conf := rfl
@[simp] theorem State.modStolik_stolik (s : State) (f : Stolik → Stolik) : (s.modStolik f).stolik = f s.stolik := rfl
@[simp] theorem State.modStolik_adm (s : State) (f : Stolik → Stolik) : (s.modStolik f).adm = s.adm := rfl
@[simp] theorem State.modStolik_fabric (s : State) (f : Stolik → Stolik) : (s.modStolik f).fabric = s.fabric := rfl
@[simp] theorem State.modStolik_buses (s : State) (f : Stolik → Stolik) : (s.modStolik f).buses = s.buses := rfl
@[simp] theorem State.modStolik_node (s : State) (f : Stolik → Stolik) : (s.modStolik f).node = s.node := rfl
@[simp] theorem State.modStolik_assigned (s : State) (f : Stolik → Stolik) :
    (s.modStolik f).assigned = s.assigned := rfl
@[simp] theorem State.modStolik_linkEn (s : State) (f : Stolik → Stolik) : (s.modStolik f).linkEn = s.linkEn := rfl
@[simp] theorem State.modStolik_timeRoot (s : State) (f : Stolik → Stolik) :
    (s.modStolik f).timeRoot = s.timeRoot := rfl
@[simp] theorem State.modStolik_eidBase (s : State) (f : Stolik → Stolik) : (s.modStolik f).eidBase = s.eidBase := rfl
@[simp] theorem State.modStolik_bridge (s : State) (f : Stolik → Stolik) : (s.modStolik f).bridge = s.bridge := rfl
@[simp] theorem State.modStolik_snap (s : State) (f : Stolik → Stolik) : (s.modStolik f).snap = s.snap := rfl
@[simp] theorem State.modStolik_tempWarning (s : State) (f : Stolik → Stolik) :
    (s.modStolik f).tempWarning = s.tempWarning := rfl
@[simp] theorem State.modStolik_defects (s : State) (f : Stolik → Stolik) : (s.modStolik f).defects = s.defects := rfl
@[simp] theorem State.modStolik_patrolled (s : State) (f : Stolik → Stolik) :
    (s.modStolik f).patrolled = s.patrolled := rfl

/-! ### State.modFabric -/

@[simp] theorem State.modFabric_pending (s : State) (f : Fabric → Fabric) : (s.modFabric f).pending = s.pending := rfl
@[simp] theorem State.modFabric_free (s : State) (f : Fabric → Fabric) : (s.modFabric f).free = s.free := rfl
@[simp] theorem State.modFabric_tick (s : State) (f : Fabric → Fabric) : (s.modFabric f).tick = s.tick := rfl
@[simp] theorem State.modFabric_time (s : State) (f : Fabric → Fabric) : (s.modFabric f).time = s.time := rfl
@[simp] theorem State.modFabric_timeFrac (s : State) (f : Fabric → Fabric) :
    (s.modFabric f).timeFrac = s.timeFrac := rfl
@[simp] theorem State.modFabric_timeSource (s : State) (f : Fabric → Fabric) :
    (s.modFabric f).timeSource = s.timeSource := rfl
@[simp] theorem State.modFabric_mode (s : State) (f : Fabric → Fabric) : (s.modFabric f).mode = s.mode := rfl
@[simp] theorem State.modFabric_warm (s : State) (f : Fabric → Fabric) : (s.modFabric f).warm = s.warm := rfl
@[simp] theorem State.modFabric_planned (s : State) (f : Fabric → Fabric) : (s.modFabric f).planned = s.planned := rfl
@[simp] theorem State.modFabric_running (s : State) (f : Fabric → Fabric) : (s.modFabric f).running = s.running := rfl
@[simp] theorem State.modFabric_romextRan (s : State) (f : Fabric → Fabric) :
    (s.modFabric f).romextRan = s.romextRan := rfl
@[simp] theorem State.modFabric_t1 (s : State) (f : Fabric → Fabric) : (s.modFabric f).t1 = s.t1 := rfl
@[simp] theorem State.modFabric_lc (s : State) (f : Fabric → Fabric) : (s.modFabric f).lc = s.lc := rfl
@[simp] theorem State.modFabric_lanes (s : State) (f : Fabric → Fabric) : (s.modFabric f).lanes = s.lanes := rfl
@[simp] theorem State.modFabric_engines (s : State) (f : Fabric → Fabric) : (s.modFabric f).engines = s.engines := rfl
@[simp] theorem State.modFabric_replacedEngines (s : State) (f : Fabric → Fabric) :
    (s.modFabric f).replacedEngines = s.replacedEngines := rfl
@[simp] theorem State.modFabric_mirror (s : State) (f : Fabric → Fabric) : (s.modFabric f).mirror = s.mirror := rfl
@[simp] theorem State.modFabric_pages (s : State) (f : Fabric → Fabric) : (s.modFabric f).pages = s.pages := rfl
@[simp] theorem State.modFabric_cacheBanks (s : State) (f : Fabric → Fabric) :
    (s.modFabric f).cacheBanks = s.cacheBanks := rfl
@[simp] theorem State.modFabric_staging (s : State) (f : Fabric → Fabric) : (s.modFabric f).staging = s.staging := rfl
@[simp] theorem State.modFabric_resA (s : State) (f : Fabric → Fabric) : (s.modFabric f).resA = s.resA := rfl
@[simp] theorem State.modFabric_resB (s : State) (f : Fabric → Fabric) : (s.modFabric f).resB = s.resB := rfl
@[simp] theorem State.modFabric_chuck (s : State) (f : Fabric → Fabric) : (s.modFabric f).chuck = s.chuck := rfl
@[simp] theorem State.modFabric_fuses (s : State) (f : Fabric → Fabric) : (s.modFabric f).fuses = s.fuses := rfl
@[simp] theorem State.modFabric_nvm (s : State) (f : Fabric → Fabric) : (s.modFabric f).nvm = s.nvm := rfl
@[simp] theorem State.modFabric_keys (s : State) (f : Fabric → Fabric) : (s.modFabric f).keys = s.keys := rfl
@[simp] theorem State.modFabric_backup (s : State) (f : Fabric → Fabric) : (s.modFabric f).backup = s.backup := rfl
@[simp] theorem State.modFabric_weir (s : State) (f : Fabric → Fabric) : (s.modFabric f).weir = s.weir := rfl
@[simp] theorem State.modFabric_levee (s : State) (f : Fabric → Fabric) : (s.modFabric f).levee = s.levee := rfl
@[simp] theorem State.modFabric_conf (s : State) (f : Fabric → Fabric) : (s.modFabric f).conf = s.conf := rfl
@[simp] theorem State.modFabric_stolik (s : State) (f : Fabric → Fabric) : (s.modFabric f).stolik = s.stolik := rfl
@[simp] theorem State.modFabric_adm (s : State) (f : Fabric → Fabric) : (s.modFabric f).adm = s.adm := rfl
@[simp] theorem State.modFabric_fabric (s : State) (f : Fabric → Fabric) : (s.modFabric f).fabric = f s.fabric := rfl
@[simp] theorem State.modFabric_buses (s : State) (f : Fabric → Fabric) : (s.modFabric f).buses = s.buses := rfl
@[simp] theorem State.modFabric_node (s : State) (f : Fabric → Fabric) : (s.modFabric f).node = s.node := rfl
@[simp] theorem State.modFabric_assigned (s : State) (f : Fabric → Fabric) :
    (s.modFabric f).assigned = s.assigned := rfl
@[simp] theorem State.modFabric_linkEn (s : State) (f : Fabric → Fabric) : (s.modFabric f).linkEn = s.linkEn := rfl
@[simp] theorem State.modFabric_timeRoot (s : State) (f : Fabric → Fabric) :
    (s.modFabric f).timeRoot = s.timeRoot := rfl
@[simp] theorem State.modFabric_eidBase (s : State) (f : Fabric → Fabric) : (s.modFabric f).eidBase = s.eidBase := rfl
@[simp] theorem State.modFabric_bridge (s : State) (f : Fabric → Fabric) : (s.modFabric f).bridge = s.bridge := rfl
@[simp] theorem State.modFabric_snap (s : State) (f : Fabric → Fabric) : (s.modFabric f).snap = s.snap := rfl
@[simp] theorem State.modFabric_tempWarning (s : State) (f : Fabric → Fabric) :
    (s.modFabric f).tempWarning = s.tempWarning := rfl
@[simp] theorem State.modFabric_defects (s : State) (f : Fabric → Fabric) : (s.modFabric f).defects = s.defects := rfl
@[simp] theorem State.modFabric_patrolled (s : State) (f : Fabric → Fabric) :
    (s.modFabric f).patrolled = s.patrolled := rfl

/-! ### State.modLink -/

@[simp] theorem State.modLink_pending (s : State) (k : Fin 4) (f : Link → Link) :
    (s.modLink k f).pending = s.pending := rfl
@[simp] theorem State.modLink_free (s : State) (k : Fin 4) (f : Link → Link) : (s.modLink k f).free = s.free := rfl
@[simp] theorem State.modLink_tick (s : State) (k : Fin 4) (f : Link → Link) : (s.modLink k f).tick = s.tick := rfl
@[simp] theorem State.modLink_time (s : State) (k : Fin 4) (f : Link → Link) : (s.modLink k f).time = s.time := rfl
@[simp] theorem State.modLink_timeFrac (s : State) (k : Fin 4) (f : Link → Link) :
    (s.modLink k f).timeFrac = s.timeFrac := rfl
@[simp] theorem State.modLink_timeSource (s : State) (k : Fin 4) (f : Link → Link) :
    (s.modLink k f).timeSource = s.timeSource := rfl
@[simp] theorem State.modLink_mode (s : State) (k : Fin 4) (f : Link → Link) : (s.modLink k f).mode = s.mode := rfl
@[simp] theorem State.modLink_warm (s : State) (k : Fin 4) (f : Link → Link) : (s.modLink k f).warm = s.warm := rfl
@[simp] theorem State.modLink_planned (s : State) (k : Fin 4) (f : Link → Link) :
    (s.modLink k f).planned = s.planned := rfl
@[simp] theorem State.modLink_running (s : State) (k : Fin 4) (f : Link → Link) :
    (s.modLink k f).running = s.running := rfl
@[simp] theorem State.modLink_romextRan (s : State) (k : Fin 4) (f : Link → Link) :
    (s.modLink k f).romextRan = s.romextRan := rfl
@[simp] theorem State.modLink_t1 (s : State) (k : Fin 4) (f : Link → Link) : (s.modLink k f).t1 = s.t1 := rfl
@[simp] theorem State.modLink_lc (s : State) (k : Fin 4) (f : Link → Link) : (s.modLink k f).lc = s.lc := rfl
@[simp] theorem State.modLink_lanes (s : State) (k : Fin 4) (f : Link → Link) : (s.modLink k f).lanes = s.lanes := rfl
@[simp] theorem State.modLink_engines (s : State) (k : Fin 4) (f : Link → Link) :
    (s.modLink k f).engines = s.engines := rfl
@[simp] theorem State.modLink_replacedEngines (s : State) (k : Fin 4) (f : Link → Link) :
    (s.modLink k f).replacedEngines = s.replacedEngines := rfl
@[simp] theorem State.modLink_mirror (s : State) (k : Fin 4) (f : Link → Link) :
    (s.modLink k f).mirror = s.mirror := rfl
@[simp] theorem State.modLink_pages (s : State) (k : Fin 4) (f : Link → Link) : (s.modLink k f).pages = s.pages := rfl
@[simp] theorem State.modLink_cacheBanks (s : State) (k : Fin 4) (f : Link → Link) :
    (s.modLink k f).cacheBanks = s.cacheBanks := rfl
@[simp] theorem State.modLink_staging (s : State) (k : Fin 4) (f : Link → Link) :
    (s.modLink k f).staging = s.staging := rfl
@[simp] theorem State.modLink_resA (s : State) (k : Fin 4) (f : Link → Link) : (s.modLink k f).resA = s.resA := rfl
@[simp] theorem State.modLink_resB (s : State) (k : Fin 4) (f : Link → Link) : (s.modLink k f).resB = s.resB := rfl
@[simp] theorem State.modLink_chuck (s : State) (k : Fin 4) (f : Link → Link) : (s.modLink k f).chuck = s.chuck := rfl
@[simp] theorem State.modLink_fuses (s : State) (k : Fin 4) (f : Link → Link) : (s.modLink k f).fuses = s.fuses := rfl
@[simp] theorem State.modLink_nvm (s : State) (k : Fin 4) (f : Link → Link) : (s.modLink k f).nvm = s.nvm := rfl
@[simp] theorem State.modLink_keys (s : State) (k : Fin 4) (f : Link → Link) : (s.modLink k f).keys = s.keys := rfl
@[simp] theorem State.modLink_backup (s : State) (k : Fin 4) (f : Link → Link) :
    (s.modLink k f).backup = s.backup := rfl
@[simp] theorem State.modLink_weir (s : State) (k : Fin 4) (f : Link → Link) : (s.modLink k f).weir = s.weir := rfl
@[simp] theorem State.modLink_levee (s : State) (k : Fin 4) (f : Link → Link) : (s.modLink k f).levee = s.levee := rfl
@[simp] theorem State.modLink_conf (s : State) (k : Fin 4) (f : Link → Link) : (s.modLink k f).conf = s.conf := rfl
@[simp] theorem State.modLink_stolik (s : State) (k : Fin 4) (f : Link → Link) :
    (s.modLink k f).stolik = s.stolik := rfl
@[simp] theorem State.modLink_adm (s : State) (k : Fin 4) (f : Link → Link) : (s.modLink k f).adm = s.adm := rfl
@[simp] theorem State.modLink_fabric (s : State) (k : Fin 4) (f : Link → Link) :
    (s.modLink k f).fabric = { s.fabric with links := vmod s.fabric.links k f } := rfl
@[simp] theorem State.modLink_buses (s : State) (k : Fin 4) (f : Link → Link) : (s.modLink k f).buses = s.buses := rfl
@[simp] theorem State.modLink_node (s : State) (k : Fin 4) (f : Link → Link) : (s.modLink k f).node = s.node := rfl
@[simp] theorem State.modLink_assigned (s : State) (k : Fin 4) (f : Link → Link) :
    (s.modLink k f).assigned = s.assigned := rfl
@[simp] theorem State.modLink_linkEn (s : State) (k : Fin 4) (f : Link → Link) :
    (s.modLink k f).linkEn = s.linkEn := rfl
@[simp] theorem State.modLink_timeRoot (s : State) (k : Fin 4) (f : Link → Link) :
    (s.modLink k f).timeRoot = s.timeRoot := rfl
@[simp] theorem State.modLink_eidBase (s : State) (k : Fin 4) (f : Link → Link) :
    (s.modLink k f).eidBase = s.eidBase := rfl
@[simp] theorem State.modLink_bridge (s : State) (k : Fin 4) (f : Link → Link) :
    (s.modLink k f).bridge = s.bridge := rfl
@[simp] theorem State.modLink_snap (s : State) (k : Fin 4) (f : Link → Link) : (s.modLink k f).snap = s.snap := rfl
@[simp] theorem State.modLink_tempWarning (s : State) (k : Fin 4) (f : Link → Link) :
    (s.modLink k f).tempWarning = s.tempWarning := rfl
@[simp] theorem State.modLink_defects (s : State) (k : Fin 4) (f : Link → Link) :
    (s.modLink k f).defects = s.defects := rfl
@[simp] theorem State.modLink_patrolled (s : State) (k : Fin 4) (f : Link → Link) :
    (s.modLink k f).patrolled = s.patrolled := rfl

/-! ### State.modBus -/

@[simp] theorem State.modBus_pending (s : State) (b : Fin 16) (f : Bus → Bus) :
    (s.modBus b f).pending = s.pending := rfl
@[simp] theorem State.modBus_free (s : State) (b : Fin 16) (f : Bus → Bus) : (s.modBus b f).free = s.free := rfl
@[simp] theorem State.modBus_tick (s : State) (b : Fin 16) (f : Bus → Bus) : (s.modBus b f).tick = s.tick := rfl
@[simp] theorem State.modBus_time (s : State) (b : Fin 16) (f : Bus → Bus) : (s.modBus b f).time = s.time := rfl
@[simp] theorem State.modBus_timeFrac (s : State) (b : Fin 16) (f : Bus → Bus) :
    (s.modBus b f).timeFrac = s.timeFrac := rfl
@[simp] theorem State.modBus_timeSource (s : State) (b : Fin 16) (f : Bus → Bus) :
    (s.modBus b f).timeSource = s.timeSource := rfl
@[simp] theorem State.modBus_mode (s : State) (b : Fin 16) (f : Bus → Bus) : (s.modBus b f).mode = s.mode := rfl
@[simp] theorem State.modBus_warm (s : State) (b : Fin 16) (f : Bus → Bus) : (s.modBus b f).warm = s.warm := rfl
@[simp] theorem State.modBus_planned (s : State) (b : Fin 16) (f : Bus → Bus) :
    (s.modBus b f).planned = s.planned := rfl
@[simp] theorem State.modBus_running (s : State) (b : Fin 16) (f : Bus → Bus) :
    (s.modBus b f).running = s.running := rfl
@[simp] theorem State.modBus_romextRan (s : State) (b : Fin 16) (f : Bus → Bus) :
    (s.modBus b f).romextRan = s.romextRan := rfl
@[simp] theorem State.modBus_t1 (s : State) (b : Fin 16) (f : Bus → Bus) : (s.modBus b f).t1 = s.t1 := rfl
@[simp] theorem State.modBus_lc (s : State) (b : Fin 16) (f : Bus → Bus) : (s.modBus b f).lc = s.lc := rfl
@[simp] theorem State.modBus_lanes (s : State) (b : Fin 16) (f : Bus → Bus) : (s.modBus b f).lanes = s.lanes := rfl
@[simp] theorem State.modBus_engines (s : State) (b : Fin 16) (f : Bus → Bus) :
    (s.modBus b f).engines = s.engines := rfl
@[simp] theorem State.modBus_replacedEngines (s : State) (b : Fin 16) (f : Bus → Bus) :
    (s.modBus b f).replacedEngines = s.replacedEngines := rfl
@[simp] theorem State.modBus_mirror (s : State) (b : Fin 16) (f : Bus → Bus) : (s.modBus b f).mirror = s.mirror := rfl
@[simp] theorem State.modBus_pages (s : State) (b : Fin 16) (f : Bus → Bus) : (s.modBus b f).pages = s.pages := rfl
@[simp] theorem State.modBus_cacheBanks (s : State) (b : Fin 16) (f : Bus → Bus) :
    (s.modBus b f).cacheBanks = s.cacheBanks := rfl
@[simp] theorem State.modBus_staging (s : State) (b : Fin 16) (f : Bus → Bus) :
    (s.modBus b f).staging = s.staging := rfl
@[simp] theorem State.modBus_resA (s : State) (b : Fin 16) (f : Bus → Bus) : (s.modBus b f).resA = s.resA := rfl
@[simp] theorem State.modBus_resB (s : State) (b : Fin 16) (f : Bus → Bus) : (s.modBus b f).resB = s.resB := rfl
@[simp] theorem State.modBus_chuck (s : State) (b : Fin 16) (f : Bus → Bus) : (s.modBus b f).chuck = s.chuck := rfl
@[simp] theorem State.modBus_fuses (s : State) (b : Fin 16) (f : Bus → Bus) : (s.modBus b f).fuses = s.fuses := rfl
@[simp] theorem State.modBus_nvm (s : State) (b : Fin 16) (f : Bus → Bus) : (s.modBus b f).nvm = s.nvm := rfl
@[simp] theorem State.modBus_keys (s : State) (b : Fin 16) (f : Bus → Bus) : (s.modBus b f).keys = s.keys := rfl
@[simp] theorem State.modBus_backup (s : State) (b : Fin 16) (f : Bus → Bus) : (s.modBus b f).backup = s.backup := rfl
@[simp] theorem State.modBus_weir (s : State) (b : Fin 16) (f : Bus → Bus) : (s.modBus b f).weir = s.weir := rfl
@[simp] theorem State.modBus_levee (s : State) (b : Fin 16) (f : Bus → Bus) : (s.modBus b f).levee = s.levee := rfl
@[simp] theorem State.modBus_conf (s : State) (b : Fin 16) (f : Bus → Bus) : (s.modBus b f).conf = s.conf := rfl
@[simp] theorem State.modBus_stolik (s : State) (b : Fin 16) (f : Bus → Bus) : (s.modBus b f).stolik = s.stolik := rfl
@[simp] theorem State.modBus_adm (s : State) (b : Fin 16) (f : Bus → Bus) : (s.modBus b f).adm = s.adm := rfl
@[simp] theorem State.modBus_fabric (s : State) (b : Fin 16) (f : Bus → Bus) : (s.modBus b f).fabric = s.fabric := rfl
@[simp] theorem State.modBus_buses (s : State) (b : Fin 16) (f : Bus → Bus) :
    (s.modBus b f).buses = vmod s.buses b f := rfl
@[simp] theorem State.modBus_node (s : State) (b : Fin 16) (f : Bus → Bus) : (s.modBus b f).node = s.node := rfl
@[simp] theorem State.modBus_assigned (s : State) (b : Fin 16) (f : Bus → Bus) :
    (s.modBus b f).assigned = s.assigned := rfl
@[simp] theorem State.modBus_linkEn (s : State) (b : Fin 16) (f : Bus → Bus) : (s.modBus b f).linkEn = s.linkEn := rfl
@[simp] theorem State.modBus_timeRoot (s : State) (b : Fin 16) (f : Bus → Bus) :
    (s.modBus b f).timeRoot = s.timeRoot := rfl
@[simp] theorem State.modBus_eidBase (s : State) (b : Fin 16) (f : Bus → Bus) :
    (s.modBus b f).eidBase = s.eidBase := rfl
@[simp] theorem State.modBus_bridge (s : State) (b : Fin 16) (f : Bus → Bus) : (s.modBus b f).bridge = s.bridge := rfl
@[simp] theorem State.modBus_snap (s : State) (b : Fin 16) (f : Bus → Bus) : (s.modBus b f).snap = s.snap := rfl
@[simp] theorem State.modBus_tempWarning (s : State) (b : Fin 16) (f : Bus → Bus) :
    (s.modBus b f).tempWarning = s.tempWarning := rfl
@[simp] theorem State.modBus_defects (s : State) (b : Fin 16) (f : Bus → Bus) :
    (s.modBus b f).defects = s.defects := rfl
@[simp] theorem State.modBus_patrolled (s : State) (b : Fin 16) (f : Bus → Bus) :
    (s.modBus b f).patrolled = s.patrolled := rfl

/-! ### State.modRes -/

@[simp] theorem State.modRes_pending (s : State) (r : Sel) (f : Reservoir → Reservoir) :
    (s.modRes r f).pending = s.pending := by cases r <;> rfl
@[simp] theorem State.modRes_free (s : State) (r : Sel) (f : Reservoir → Reservoir) :
    (s.modRes r f).free = s.free := by cases r <;> rfl
@[simp] theorem State.modRes_tick (s : State) (r : Sel) (f : Reservoir → Reservoir) :
    (s.modRes r f).tick = s.tick := by cases r <;> rfl
@[simp] theorem State.modRes_time (s : State) (r : Sel) (f : Reservoir → Reservoir) :
    (s.modRes r f).time = s.time := by cases r <;> rfl
@[simp] theorem State.modRes_timeFrac (s : State) (r : Sel) (f : Reservoir → Reservoir) :
    (s.modRes r f).timeFrac = s.timeFrac := by cases r <;> rfl
@[simp] theorem State.modRes_timeSource (s : State) (r : Sel) (f : Reservoir → Reservoir) :
    (s.modRes r f).timeSource = s.timeSource := by cases r <;> rfl
@[simp] theorem State.modRes_mode (s : State) (r : Sel) (f : Reservoir → Reservoir) :
    (s.modRes r f).mode = s.mode := by cases r <;> rfl
@[simp] theorem State.modRes_warm (s : State) (r : Sel) (f : Reservoir → Reservoir) :
    (s.modRes r f).warm = s.warm := by cases r <;> rfl
@[simp] theorem State.modRes_planned (s : State) (r : Sel) (f : Reservoir → Reservoir) :
    (s.modRes r f).planned = s.planned := by cases r <;> rfl
@[simp] theorem State.modRes_running (s : State) (r : Sel) (f : Reservoir → Reservoir) :
    (s.modRes r f).running = s.running := by cases r <;> rfl
@[simp] theorem State.modRes_romextRan (s : State) (r : Sel) (f : Reservoir → Reservoir) :
    (s.modRes r f).romextRan = s.romextRan := by cases r <;> rfl
@[simp] theorem State.modRes_t1 (s : State) (r : Sel) (f : Reservoir → Reservoir) :
    (s.modRes r f).t1 = s.t1 := by cases r <;> rfl
@[simp] theorem State.modRes_lc (s : State) (r : Sel) (f : Reservoir → Reservoir) :
    (s.modRes r f).lc = s.lc := by cases r <;> rfl
@[simp] theorem State.modRes_lanes (s : State) (r : Sel) (f : Reservoir → Reservoir) :
    (s.modRes r f).lanes = s.lanes := by cases r <;> rfl
@[simp] theorem State.modRes_engines (s : State) (r : Sel) (f : Reservoir → Reservoir) :
    (s.modRes r f).engines = s.engines := by cases r <;> rfl
@[simp] theorem State.modRes_replacedEngines (s : State) (r : Sel) (f : Reservoir → Reservoir) :
    (s.modRes r f).replacedEngines = s.replacedEngines := by cases r <;> rfl
@[simp] theorem State.modRes_mirror (s : State) (r : Sel) (f : Reservoir → Reservoir) :
    (s.modRes r f).mirror = s.mirror := by cases r <;> rfl
@[simp] theorem State.modRes_pages (s : State) (r : Sel) (f : Reservoir → Reservoir) :
    (s.modRes r f).pages = s.pages := by cases r <;> rfl
@[simp] theorem State.modRes_cacheBanks (s : State) (r : Sel) (f : Reservoir → Reservoir) :
    (s.modRes r f).cacheBanks = s.cacheBanks := by cases r <;> rfl
@[simp] theorem State.modRes_staging (s : State) (r : Sel) (f : Reservoir → Reservoir) :
    (s.modRes r f).staging = s.staging := by cases r <;> rfl
@[simp] theorem State.modRes_chuck (s : State) (r : Sel) (f : Reservoir → Reservoir) :
    (s.modRes r f).chuck = s.chuck := by cases r <;> rfl
@[simp] theorem State.modRes_fuses (s : State) (r : Sel) (f : Reservoir → Reservoir) :
    (s.modRes r f).fuses = s.fuses := by cases r <;> rfl
@[simp] theorem State.modRes_nvm (s : State) (r : Sel) (f : Reservoir → Reservoir) :
    (s.modRes r f).nvm = s.nvm := by cases r <;> rfl
@[simp] theorem State.modRes_keys (s : State) (r : Sel) (f : Reservoir → Reservoir) :
    (s.modRes r f).keys = s.keys := by cases r <;> rfl
@[simp] theorem State.modRes_backup (s : State) (r : Sel) (f : Reservoir → Reservoir) :
    (s.modRes r f).backup = s.backup := by cases r <;> rfl
@[simp] theorem State.modRes_weir (s : State) (r : Sel) (f : Reservoir → Reservoir) :
    (s.modRes r f).weir = s.weir := by cases r <;> rfl
@[simp] theorem State.modRes_levee (s : State) (r : Sel) (f : Reservoir → Reservoir) :
    (s.modRes r f).levee = s.levee := by cases r <;> rfl
@[simp] theorem State.modRes_conf (s : State) (r : Sel) (f : Reservoir → Reservoir) :
    (s.modRes r f).conf = s.conf := by cases r <;> rfl
@[simp] theorem State.modRes_stolik (s : State) (r : Sel) (f : Reservoir → Reservoir) :
    (s.modRes r f).stolik = s.stolik := by cases r <;> rfl
@[simp] theorem State.modRes_adm (s : State) (r : Sel) (f : Reservoir → Reservoir) :
    (s.modRes r f).adm = s.adm := by cases r <;> rfl
@[simp] theorem State.modRes_fabric (s : State) (r : Sel) (f : Reservoir → Reservoir) :
    (s.modRes r f).fabric = s.fabric := by cases r <;> rfl
@[simp] theorem State.modRes_buses (s : State) (r : Sel) (f : Reservoir → Reservoir) :
    (s.modRes r f).buses = s.buses := by cases r <;> rfl
@[simp] theorem State.modRes_node (s : State) (r : Sel) (f : Reservoir → Reservoir) :
    (s.modRes r f).node = s.node := by cases r <;> rfl
@[simp] theorem State.modRes_assigned (s : State) (r : Sel) (f : Reservoir → Reservoir) :
    (s.modRes r f).assigned = s.assigned := by cases r <;> rfl
@[simp] theorem State.modRes_linkEn (s : State) (r : Sel) (f : Reservoir → Reservoir) :
    (s.modRes r f).linkEn = s.linkEn := by cases r <;> rfl
@[simp] theorem State.modRes_timeRoot (s : State) (r : Sel) (f : Reservoir → Reservoir) :
    (s.modRes r f).timeRoot = s.timeRoot := by cases r <;> rfl
@[simp] theorem State.modRes_eidBase (s : State) (r : Sel) (f : Reservoir → Reservoir) :
    (s.modRes r f).eidBase = s.eidBase := by cases r <;> rfl
@[simp] theorem State.modRes_bridge (s : State) (r : Sel) (f : Reservoir → Reservoir) :
    (s.modRes r f).bridge = s.bridge := by cases r <;> rfl
@[simp] theorem State.modRes_snap (s : State) (r : Sel) (f : Reservoir → Reservoir) :
    (s.modRes r f).snap = s.snap := by cases r <;> rfl
@[simp] theorem State.modRes_tempWarning (s : State) (r : Sel) (f : Reservoir → Reservoir) :
    (s.modRes r f).tempWarning = s.tempWarning := by cases r <;> rfl
@[simp] theorem State.modRes_defects (s : State) (r : Sel) (f : Reservoir → Reservoir) :
    (s.modRes r f).defects = s.defects := by cases r <;> rfl
@[simp] theorem State.modRes_patrolled (s : State) (r : Sel) (f : Reservoir → Reservoir) :
    (s.modRes r f).patrolled = s.patrolled := by cases r <;> rfl

theorem State.modRes_same (s : State) (r : Sel) (f : Reservoir → Reservoir) : (s.modRes r f).res r = f (s.res r) := by
  cases r <;> rfl
theorem State.modRes_other (s : State) (r : Sel) (f : Reservoir → Reservoir) :
    (s.modRes r f).res (otherSel r) = s.res (otherSel r) := by cases r <;> rfl

/-! ### Free values and the ring-log queues -/

@[simp] theorem drawBytes_pending (n : Nat) (s : State) : (drawBytes n s).2.pending = s.pending := rfl
@[simp] theorem drawNat_pending (s : State) : (drawNat s).2.pending = s.pending := rfl
@[simp] theorem drawBit_pending (s : State) : (drawBit s).2.pending = s.pending := rfl
@[simp] theorem drawBytes_tick (n : Nat) (s : State) : (drawBytes n s).2.tick = s.tick := rfl
@[simp] theorem drawNat_tick (s : State) : (drawNat s).2.tick = s.tick := rfl
@[simp] theorem drawBit_tick (s : State) : (drawBit s).2.tick = s.tick := rfl
@[simp] theorem drawBytes_time (n : Nat) (s : State) : (drawBytes n s).2.time = s.time := rfl
@[simp] theorem drawNat_time (s : State) : (drawNat s).2.time = s.time := rfl
@[simp] theorem drawBit_time (s : State) : (drawBit s).2.time = s.time := rfl
@[simp] theorem drawBytes_timeFrac (n : Nat) (s : State) : (drawBytes n s).2.timeFrac = s.timeFrac := rfl
@[simp] theorem drawNat_timeFrac (s : State) : (drawNat s).2.timeFrac = s.timeFrac := rfl
@[simp] theorem drawBit_timeFrac (s : State) : (drawBit s).2.timeFrac = s.timeFrac := rfl
@[simp] theorem drawBytes_timeSource (n : Nat) (s : State) : (drawBytes n s).2.timeSource = s.timeSource := rfl
@[simp] theorem drawNat_timeSource (s : State) : (drawNat s).2.timeSource = s.timeSource := rfl
@[simp] theorem drawBit_timeSource (s : State) : (drawBit s).2.timeSource = s.timeSource := rfl
@[simp] theorem drawBytes_mode (n : Nat) (s : State) : (drawBytes n s).2.mode = s.mode := rfl
@[simp] theorem drawNat_mode (s : State) : (drawNat s).2.mode = s.mode := rfl
@[simp] theorem drawBit_mode (s : State) : (drawBit s).2.mode = s.mode := rfl
@[simp] theorem drawBytes_warm (n : Nat) (s : State) : (drawBytes n s).2.warm = s.warm := rfl
@[simp] theorem drawNat_warm (s : State) : (drawNat s).2.warm = s.warm := rfl
@[simp] theorem drawBit_warm (s : State) : (drawBit s).2.warm = s.warm := rfl
@[simp] theorem drawBytes_planned (n : Nat) (s : State) : (drawBytes n s).2.planned = s.planned := rfl
@[simp] theorem drawNat_planned (s : State) : (drawNat s).2.planned = s.planned := rfl
@[simp] theorem drawBit_planned (s : State) : (drawBit s).2.planned = s.planned := rfl
@[simp] theorem drawBytes_running (n : Nat) (s : State) : (drawBytes n s).2.running = s.running := rfl
@[simp] theorem drawNat_running (s : State) : (drawNat s).2.running = s.running := rfl
@[simp] theorem drawBit_running (s : State) : (drawBit s).2.running = s.running := rfl
@[simp] theorem drawBytes_romextRan (n : Nat) (s : State) : (drawBytes n s).2.romextRan = s.romextRan := rfl
@[simp] theorem drawNat_romextRan (s : State) : (drawNat s).2.romextRan = s.romextRan := rfl
@[simp] theorem drawBit_romextRan (s : State) : (drawBit s).2.romextRan = s.romextRan := rfl
@[simp] theorem drawBytes_t1 (n : Nat) (s : State) : (drawBytes n s).2.t1 = s.t1 := rfl
@[simp] theorem drawNat_t1 (s : State) : (drawNat s).2.t1 = s.t1 := rfl
@[simp] theorem drawBit_t1 (s : State) : (drawBit s).2.t1 = s.t1 := rfl
@[simp] theorem drawBytes_lc (n : Nat) (s : State) : (drawBytes n s).2.lc = s.lc := rfl
@[simp] theorem drawNat_lc (s : State) : (drawNat s).2.lc = s.lc := rfl
@[simp] theorem drawBit_lc (s : State) : (drawBit s).2.lc = s.lc := rfl
@[simp] theorem drawBytes_lanes (n : Nat) (s : State) : (drawBytes n s).2.lanes = s.lanes := rfl
@[simp] theorem drawNat_lanes (s : State) : (drawNat s).2.lanes = s.lanes := rfl
@[simp] theorem drawBit_lanes (s : State) : (drawBit s).2.lanes = s.lanes := rfl
@[simp] theorem drawBytes_engines (n : Nat) (s : State) : (drawBytes n s).2.engines = s.engines := rfl
@[simp] theorem drawNat_engines (s : State) : (drawNat s).2.engines = s.engines := rfl
@[simp] theorem drawBit_engines (s : State) : (drawBit s).2.engines = s.engines := rfl
@[simp] theorem drawBytes_replacedEngines (n : Nat) (s : State) : (drawBytes n s).2.replacedEngines = s.replacedEngines := rfl
@[simp] theorem drawNat_replacedEngines (s : State) : (drawNat s).2.replacedEngines = s.replacedEngines := rfl
@[simp] theorem drawBit_replacedEngines (s : State) : (drawBit s).2.replacedEngines = s.replacedEngines := rfl
@[simp] theorem drawBytes_mirror (n : Nat) (s : State) : (drawBytes n s).2.mirror = s.mirror := rfl
@[simp] theorem drawNat_mirror (s : State) : (drawNat s).2.mirror = s.mirror := rfl
@[simp] theorem drawBit_mirror (s : State) : (drawBit s).2.mirror = s.mirror := rfl
@[simp] theorem drawBytes_pages (n : Nat) (s : State) : (drawBytes n s).2.pages = s.pages := rfl
@[simp] theorem drawNat_pages (s : State) : (drawNat s).2.pages = s.pages := rfl
@[simp] theorem drawBit_pages (s : State) : (drawBit s).2.pages = s.pages := rfl
@[simp] theorem drawBytes_cacheBanks (n : Nat) (s : State) : (drawBytes n s).2.cacheBanks = s.cacheBanks := rfl
@[simp] theorem drawNat_cacheBanks (s : State) : (drawNat s).2.cacheBanks = s.cacheBanks := rfl
@[simp] theorem drawBit_cacheBanks (s : State) : (drawBit s).2.cacheBanks = s.cacheBanks := rfl
@[simp] theorem drawBytes_staging (n : Nat) (s : State) : (drawBytes n s).2.staging = s.staging := rfl
@[simp] theorem drawNat_staging (s : State) : (drawNat s).2.staging = s.staging := rfl
@[simp] theorem drawBit_staging (s : State) : (drawBit s).2.staging = s.staging := rfl
@[simp] theorem drawBytes_resA (n : Nat) (s : State) : (drawBytes n s).2.resA = s.resA := rfl
@[simp] theorem drawNat_resA (s : State) : (drawNat s).2.resA = s.resA := rfl
@[simp] theorem drawBit_resA (s : State) : (drawBit s).2.resA = s.resA := rfl
@[simp] theorem drawBytes_resB (n : Nat) (s : State) : (drawBytes n s).2.resB = s.resB := rfl
@[simp] theorem drawNat_resB (s : State) : (drawNat s).2.resB = s.resB := rfl
@[simp] theorem drawBit_resB (s : State) : (drawBit s).2.resB = s.resB := rfl
@[simp] theorem drawBytes_chuck (n : Nat) (s : State) : (drawBytes n s).2.chuck = s.chuck := rfl
@[simp] theorem drawNat_chuck (s : State) : (drawNat s).2.chuck = s.chuck := rfl
@[simp] theorem drawBit_chuck (s : State) : (drawBit s).2.chuck = s.chuck := rfl
@[simp] theorem drawBytes_fuses (n : Nat) (s : State) : (drawBytes n s).2.fuses = s.fuses := rfl
@[simp] theorem drawNat_fuses (s : State) : (drawNat s).2.fuses = s.fuses := rfl
@[simp] theorem drawBit_fuses (s : State) : (drawBit s).2.fuses = s.fuses := rfl
@[simp] theorem drawBytes_nvm (n : Nat) (s : State) : (drawBytes n s).2.nvm = s.nvm := rfl
@[simp] theorem drawNat_nvm (s : State) : (drawNat s).2.nvm = s.nvm := rfl
@[simp] theorem drawBit_nvm (s : State) : (drawBit s).2.nvm = s.nvm := rfl
@[simp] theorem drawBytes_keys (n : Nat) (s : State) : (drawBytes n s).2.keys = s.keys := rfl
@[simp] theorem drawNat_keys (s : State) : (drawNat s).2.keys = s.keys := rfl
@[simp] theorem drawBit_keys (s : State) : (drawBit s).2.keys = s.keys := rfl
@[simp] theorem drawBytes_backup (n : Nat) (s : State) : (drawBytes n s).2.backup = s.backup := rfl
@[simp] theorem drawNat_backup (s : State) : (drawNat s).2.backup = s.backup := rfl
@[simp] theorem drawBit_backup (s : State) : (drawBit s).2.backup = s.backup := rfl
@[simp] theorem drawBytes_weir (n : Nat) (s : State) : (drawBytes n s).2.weir = s.weir := rfl
@[simp] theorem drawNat_weir (s : State) : (drawNat s).2.weir = s.weir := rfl
@[simp] theorem drawBit_weir (s : State) : (drawBit s).2.weir = s.weir := rfl
@[simp] theorem drawBytes_levee (n : Nat) (s : State) : (drawBytes n s).2.levee = s.levee := rfl
@[simp] theorem drawNat_levee (s : State) : (drawNat s).2.levee = s.levee := rfl
@[simp] theorem drawBit_levee (s : State) : (drawBit s).2.levee = s.levee := rfl
@[simp] theorem drawBytes_conf (n : Nat) (s : State) : (drawBytes n s).2.conf = s.conf := rfl
@[simp] theorem drawNat_conf (s : State) : (drawNat s).2.conf = s.conf := rfl
@[simp] theorem drawBit_conf (s : State) : (drawBit s).2.conf = s.conf := rfl
@[simp] theorem drawBytes_stolik (n : Nat) (s : State) : (drawBytes n s).2.stolik = s.stolik := rfl
@[simp] theorem drawNat_stolik (s : State) : (drawNat s).2.stolik = s.stolik := rfl
@[simp] theorem drawBit_stolik (s : State) : (drawBit s).2.stolik = s.stolik := rfl
@[simp] theorem drawBytes_adm (n : Nat) (s : State) : (drawBytes n s).2.adm = s.adm := rfl
@[simp] theorem drawNat_adm (s : State) : (drawNat s).2.adm = s.adm := rfl
@[simp] theorem drawBit_adm (s : State) : (drawBit s).2.adm = s.adm := rfl
@[simp] theorem drawBytes_fabric (n : Nat) (s : State) : (drawBytes n s).2.fabric = s.fabric := rfl
@[simp] theorem drawNat_fabric (s : State) : (drawNat s).2.fabric = s.fabric := rfl
@[simp] theorem drawBit_fabric (s : State) : (drawBit s).2.fabric = s.fabric := rfl
@[simp] theorem drawBytes_buses (n : Nat) (s : State) : (drawBytes n s).2.buses = s.buses := rfl
@[simp] theorem drawNat_buses (s : State) : (drawNat s).2.buses = s.buses := rfl
@[simp] theorem drawBit_buses (s : State) : (drawBit s).2.buses = s.buses := rfl
@[simp] theorem drawBytes_node (n : Nat) (s : State) : (drawBytes n s).2.node = s.node := rfl
@[simp] theorem drawNat_node (s : State) : (drawNat s).2.node = s.node := rfl
@[simp] theorem drawBit_node (s : State) : (drawBit s).2.node = s.node := rfl
@[simp] theorem drawBytes_assigned (n : Nat) (s : State) : (drawBytes n s).2.assigned = s.assigned := rfl
@[simp] theorem drawNat_assigned (s : State) : (drawNat s).2.assigned = s.assigned := rfl
@[simp] theorem drawBit_assigned (s : State) : (drawBit s).2.assigned = s.assigned := rfl
@[simp] theorem drawBytes_linkEn (n : Nat) (s : State) : (drawBytes n s).2.linkEn = s.linkEn := rfl
@[simp] theorem drawNat_linkEn (s : State) : (drawNat s).2.linkEn = s.linkEn := rfl
@[simp] theorem drawBit_linkEn (s : State) : (drawBit s).2.linkEn = s.linkEn := rfl
@[simp] theorem drawBytes_timeRoot (n : Nat) (s : State) : (drawBytes n s).2.timeRoot = s.timeRoot := rfl
@[simp] theorem drawNat_timeRoot (s : State) : (drawNat s).2.timeRoot = s.timeRoot := rfl
@[simp] theorem drawBit_timeRoot (s : State) : (drawBit s).2.timeRoot = s.timeRoot := rfl
@[simp] theorem drawBytes_eidBase (n : Nat) (s : State) : (drawBytes n s).2.eidBase = s.eidBase := rfl
@[simp] theorem drawNat_eidBase (s : State) : (drawNat s).2.eidBase = s.eidBase := rfl
@[simp] theorem drawBit_eidBase (s : State) : (drawBit s).2.eidBase = s.eidBase := rfl
@[simp] theorem drawBytes_bridge (n : Nat) (s : State) : (drawBytes n s).2.bridge = s.bridge := rfl
@[simp] theorem drawNat_bridge (s : State) : (drawNat s).2.bridge = s.bridge := rfl
@[simp] theorem drawBit_bridge (s : State) : (drawBit s).2.bridge = s.bridge := rfl
@[simp] theorem drawBytes_snap (n : Nat) (s : State) : (drawBytes n s).2.snap = s.snap := rfl
@[simp] theorem drawNat_snap (s : State) : (drawNat s).2.snap = s.snap := rfl
@[simp] theorem drawBit_snap (s : State) : (drawBit s).2.snap = s.snap := rfl
@[simp] theorem drawBytes_tempWarning (n : Nat) (s : State) : (drawBytes n s).2.tempWarning = s.tempWarning := rfl
@[simp] theorem drawNat_tempWarning (s : State) : (drawNat s).2.tempWarning = s.tempWarning := rfl
@[simp] theorem drawBit_tempWarning (s : State) : (drawBit s).2.tempWarning = s.tempWarning := rfl
@[simp] theorem drawBytes_defects (n : Nat) (s : State) : (drawBytes n s).2.defects = s.defects := rfl
@[simp] theorem drawNat_defects (s : State) : (drawNat s).2.defects = s.defects := rfl
@[simp] theorem drawBit_defects (s : State) : (drawBit s).2.defects = s.defects := rfl
@[simp] theorem drawBytes_patrolled (n : Nat) (s : State) : (drawBytes n s).2.patrolled = s.patrolled := rfl
@[simp] theorem drawNat_patrolled (s : State) : (drawNat s).2.patrolled = s.patrolled := rfl
@[simp] theorem drawBit_patrolled (s : State) : (drawBit s).2.patrolled = s.patrolled := rfl
@[simp] theorem logAt_pending (t y o : Nat) (d : Bytes) (s : State) : (logAt t y o d s).pending = s.pending := rfl
@[simp] theorem logNow_pending (y o : Nat) (d : Bytes) (s : State) : (logNow y o d s).pending = s.pending := rfl
@[simp] theorem logAt_free (t y o : Nat) (d : Bytes) (s : State) : (logAt t y o d s).free = s.free := rfl
@[simp] theorem logNow_free (y o : Nat) (d : Bytes) (s : State) : (logNow y o d s).free = s.free := rfl
@[simp] theorem logAt_tick (t y o : Nat) (d : Bytes) (s : State) : (logAt t y o d s).tick = s.tick := rfl
@[simp] theorem logNow_tick (y o : Nat) (d : Bytes) (s : State) : (logNow y o d s).tick = s.tick := rfl
@[simp] theorem logAt_time (t y o : Nat) (d : Bytes) (s : State) : (logAt t y o d s).time = s.time := rfl
@[simp] theorem logNow_time (y o : Nat) (d : Bytes) (s : State) : (logNow y o d s).time = s.time := rfl
@[simp] theorem logAt_timeFrac (t y o : Nat) (d : Bytes) (s : State) : (logAt t y o d s).timeFrac = s.timeFrac := rfl
@[simp] theorem logNow_timeFrac (y o : Nat) (d : Bytes) (s : State) : (logNow y o d s).timeFrac = s.timeFrac := rfl
@[simp] theorem logAt_timeSource (t y o : Nat) (d : Bytes) (s : State) : (logAt t y o d s).timeSource = s.timeSource := rfl
@[simp] theorem logNow_timeSource (y o : Nat) (d : Bytes) (s : State) : (logNow y o d s).timeSource = s.timeSource := rfl
@[simp] theorem logAt_mode (t y o : Nat) (d : Bytes) (s : State) : (logAt t y o d s).mode = s.mode := rfl
@[simp] theorem logNow_mode (y o : Nat) (d : Bytes) (s : State) : (logNow y o d s).mode = s.mode := rfl
@[simp] theorem logAt_warm (t y o : Nat) (d : Bytes) (s : State) : (logAt t y o d s).warm = s.warm := rfl
@[simp] theorem logNow_warm (y o : Nat) (d : Bytes) (s : State) : (logNow y o d s).warm = s.warm := rfl
@[simp] theorem logAt_planned (t y o : Nat) (d : Bytes) (s : State) : (logAt t y o d s).planned = s.planned := rfl
@[simp] theorem logNow_planned (y o : Nat) (d : Bytes) (s : State) : (logNow y o d s).planned = s.planned := rfl
@[simp] theorem logAt_running (t y o : Nat) (d : Bytes) (s : State) : (logAt t y o d s).running = s.running := rfl
@[simp] theorem logNow_running (y o : Nat) (d : Bytes) (s : State) : (logNow y o d s).running = s.running := rfl
@[simp] theorem logAt_romextRan (t y o : Nat) (d : Bytes) (s : State) : (logAt t y o d s).romextRan = s.romextRan := rfl
@[simp] theorem logNow_romextRan (y o : Nat) (d : Bytes) (s : State) : (logNow y o d s).romextRan = s.romextRan := rfl
@[simp] theorem logAt_t1 (t y o : Nat) (d : Bytes) (s : State) : (logAt t y o d s).t1 = s.t1 := rfl
@[simp] theorem logNow_t1 (y o : Nat) (d : Bytes) (s : State) : (logNow y o d s).t1 = s.t1 := rfl
@[simp] theorem logAt_lc (t y o : Nat) (d : Bytes) (s : State) : (logAt t y o d s).lc = s.lc := rfl
@[simp] theorem logNow_lc (y o : Nat) (d : Bytes) (s : State) : (logNow y o d s).lc = s.lc := rfl
@[simp] theorem logAt_lanes (t y o : Nat) (d : Bytes) (s : State) : (logAt t y o d s).lanes = s.lanes := rfl
@[simp] theorem logNow_lanes (y o : Nat) (d : Bytes) (s : State) : (logNow y o d s).lanes = s.lanes := rfl
@[simp] theorem logAt_engines (t y o : Nat) (d : Bytes) (s : State) : (logAt t y o d s).engines = s.engines := rfl
@[simp] theorem logNow_engines (y o : Nat) (d : Bytes) (s : State) : (logNow y o d s).engines = s.engines := rfl
@[simp] theorem logAt_replacedEngines (t y o : Nat) (d : Bytes) (s : State) : (logAt t y o d s).replacedEngines = s.replacedEngines := rfl
@[simp] theorem logNow_replacedEngines (y o : Nat) (d : Bytes) (s : State) : (logNow y o d s).replacedEngines = s.replacedEngines := rfl
@[simp] theorem logAt_mirror (t y o : Nat) (d : Bytes) (s : State) : (logAt t y o d s).mirror = s.mirror := rfl
@[simp] theorem logNow_mirror (y o : Nat) (d : Bytes) (s : State) : (logNow y o d s).mirror = s.mirror := rfl
@[simp] theorem logAt_pages (t y o : Nat) (d : Bytes) (s : State) : (logAt t y o d s).pages = s.pages := rfl
@[simp] theorem logNow_pages (y o : Nat) (d : Bytes) (s : State) : (logNow y o d s).pages = s.pages := rfl
@[simp] theorem logAt_cacheBanks (t y o : Nat) (d : Bytes) (s : State) : (logAt t y o d s).cacheBanks = s.cacheBanks := rfl
@[simp] theorem logNow_cacheBanks (y o : Nat) (d : Bytes) (s : State) : (logNow y o d s).cacheBanks = s.cacheBanks := rfl
@[simp] theorem logAt_staging (t y o : Nat) (d : Bytes) (s : State) : (logAt t y o d s).staging = s.staging := rfl
@[simp] theorem logNow_staging (y o : Nat) (d : Bytes) (s : State) : (logNow y o d s).staging = s.staging := rfl
@[simp] theorem logAt_resA (t y o : Nat) (d : Bytes) (s : State) : (logAt t y o d s).resA = s.resA := rfl
@[simp] theorem logNow_resA (y o : Nat) (d : Bytes) (s : State) : (logNow y o d s).resA = s.resA := rfl
@[simp] theorem logAt_resB (t y o : Nat) (d : Bytes) (s : State) : (logAt t y o d s).resB = s.resB := rfl
@[simp] theorem logNow_resB (y o : Nat) (d : Bytes) (s : State) : (logNow y o d s).resB = s.resB := rfl
@[simp] theorem logAt_chuck (t y o : Nat) (d : Bytes) (s : State) : (logAt t y o d s).chuck = s.chuck := rfl
@[simp] theorem logNow_chuck (y o : Nat) (d : Bytes) (s : State) : (logNow y o d s).chuck = s.chuck := rfl
@[simp] theorem logAt_fuses (t y o : Nat) (d : Bytes) (s : State) : (logAt t y o d s).fuses = s.fuses := rfl
@[simp] theorem logNow_fuses (y o : Nat) (d : Bytes) (s : State) : (logNow y o d s).fuses = s.fuses := rfl
@[simp] theorem logAt_keys (t y o : Nat) (d : Bytes) (s : State) : (logAt t y o d s).keys = s.keys := rfl
@[simp] theorem logNow_keys (y o : Nat) (d : Bytes) (s : State) : (logNow y o d s).keys = s.keys := rfl
@[simp] theorem logAt_backup (t y o : Nat) (d : Bytes) (s : State) : (logAt t y o d s).backup = s.backup := rfl
@[simp] theorem logNow_backup (y o : Nat) (d : Bytes) (s : State) : (logNow y o d s).backup = s.backup := rfl
@[simp] theorem logAt_weir (t y o : Nat) (d : Bytes) (s : State) : (logAt t y o d s).weir = s.weir := rfl
@[simp] theorem logNow_weir (y o : Nat) (d : Bytes) (s : State) : (logNow y o d s).weir = s.weir := rfl
@[simp] theorem logAt_levee (t y o : Nat) (d : Bytes) (s : State) : (logAt t y o d s).levee = s.levee := rfl
@[simp] theorem logNow_levee (y o : Nat) (d : Bytes) (s : State) : (logNow y o d s).levee = s.levee := rfl
@[simp] theorem logAt_conf (t y o : Nat) (d : Bytes) (s : State) : (logAt t y o d s).conf = s.conf := rfl
@[simp] theorem logNow_conf (y o : Nat) (d : Bytes) (s : State) : (logNow y o d s).conf = s.conf := rfl
@[simp] theorem logAt_stolik (t y o : Nat) (d : Bytes) (s : State) : (logAt t y o d s).stolik = s.stolik := rfl
@[simp] theorem logNow_stolik (y o : Nat) (d : Bytes) (s : State) : (logNow y o d s).stolik = s.stolik := rfl
@[simp] theorem logAt_adm (t y o : Nat) (d : Bytes) (s : State) : (logAt t y o d s).adm = s.adm := rfl
@[simp] theorem logNow_adm (y o : Nat) (d : Bytes) (s : State) : (logNow y o d s).adm = s.adm := rfl
@[simp] theorem logAt_fabric (t y o : Nat) (d : Bytes) (s : State) : (logAt t y o d s).fabric = s.fabric := rfl
@[simp] theorem logNow_fabric (y o : Nat) (d : Bytes) (s : State) : (logNow y o d s).fabric = s.fabric := rfl
@[simp] theorem logAt_buses (t y o : Nat) (d : Bytes) (s : State) : (logAt t y o d s).buses = s.buses := rfl
@[simp] theorem logNow_buses (y o : Nat) (d : Bytes) (s : State) : (logNow y o d s).buses = s.buses := rfl
@[simp] theorem logAt_node (t y o : Nat) (d : Bytes) (s : State) : (logAt t y o d s).node = s.node := rfl
@[simp] theorem logNow_node (y o : Nat) (d : Bytes) (s : State) : (logNow y o d s).node = s.node := rfl
@[simp] theorem logAt_assigned (t y o : Nat) (d : Bytes) (s : State) : (logAt t y o d s).assigned = s.assigned := rfl
@[simp] theorem logNow_assigned (y o : Nat) (d : Bytes) (s : State) : (logNow y o d s).assigned = s.assigned := rfl
@[simp] theorem logAt_linkEn (t y o : Nat) (d : Bytes) (s : State) : (logAt t y o d s).linkEn = s.linkEn := rfl
@[simp] theorem logNow_linkEn (y o : Nat) (d : Bytes) (s : State) : (logNow y o d s).linkEn = s.linkEn := rfl
@[simp] theorem logAt_timeRoot (t y o : Nat) (d : Bytes) (s : State) : (logAt t y o d s).timeRoot = s.timeRoot := rfl
@[simp] theorem logNow_timeRoot (y o : Nat) (d : Bytes) (s : State) : (logNow y o d s).timeRoot = s.timeRoot := rfl
@[simp] theorem logAt_eidBase (t y o : Nat) (d : Bytes) (s : State) : (logAt t y o d s).eidBase = s.eidBase := rfl
@[simp] theorem logNow_eidBase (y o : Nat) (d : Bytes) (s : State) : (logNow y o d s).eidBase = s.eidBase := rfl
@[simp] theorem logAt_bridge (t y o : Nat) (d : Bytes) (s : State) : (logAt t y o d s).bridge = s.bridge := rfl
@[simp] theorem logNow_bridge (y o : Nat) (d : Bytes) (s : State) : (logNow y o d s).bridge = s.bridge := rfl
@[simp] theorem logAt_snap (t y o : Nat) (d : Bytes) (s : State) : (logAt t y o d s).snap = s.snap := rfl
@[simp] theorem logNow_snap (y o : Nat) (d : Bytes) (s : State) : (logNow y o d s).snap = s.snap := rfl
@[simp] theorem logAt_tempWarning (t y o : Nat) (d : Bytes) (s : State) : (logAt t y o d s).tempWarning = s.tempWarning := rfl
@[simp] theorem logNow_tempWarning (y o : Nat) (d : Bytes) (s : State) : (logNow y o d s).tempWarning = s.tempWarning := rfl
@[simp] theorem logAt_defects (t y o : Nat) (d : Bytes) (s : State) : (logAt t y o d s).defects = s.defects := rfl
@[simp] theorem logNow_defects (y o : Nat) (d : Bytes) (s : State) : (logNow y o d s).defects = s.defects := rfl
@[simp] theorem logAt_patrolled (t y o : Nat) (d : Bytes) (s : State) : (logAt t y o d s).patrolled = s.patrolled := rfl
@[simp] theorem logNow_patrolled (y o : Nat) (d : Bytes) (s : State) : (logNow y o d s).patrolled = s.patrolled := rfl

end Sys2Proof.Machine
end

