-- ==== Sys2Proof/Machine/Pins.lean ====
section
/-! DEFINITION. How Virund drives each of its signal pins between commands: the reset states, the banks that are powered, and
what lanes, Chuck, Weir, Levee and firmware set later (R557, R559, R564 to R566, R586). -/
namespace Sys2Proof.Machine
open Sys2Proof

/-- The I/O bank of a pin (R557): 22 and 23 are always powered with VSB, PL pins and MON inputs belong to none. -/
def pinBank : Pin → Option Nat
  | .hpSck n => some n.val
  | .hpCs n _ => some n.val
  | .hpDq n => some n.val
  | .hpDs n => some n.val
  | .fpSck n => some (8 + n.val)
  | .fpCs n _ => some (8 + n.val)
  | .fpDq n => some (8 + n.val)
  | .fpDs n => some (8 + n.val)
  | .fpRst n => some (8 + n.val)
  | .rvSck x => some (resBank x)
  | .rvCs x _ => some (resBank x)
  | .rvDq x => some (resBank x)
  | .rvDs x => some (resBank x)
  | .rvRst x => some (resBank x)
  | .mb b => some (18 + b.val / 4)
  | .plTx _ => none
  | .plRx _ => none
  | .mon _ => none
  | .encA _ => some 23
  | .encB _ => some 23
  | _ => some 22

/-- The bank is powered in the present state (R561, R565, R566). -/
def State.bankOn (s : State) (k : Nat) : Bool :=
  let strapped := (s.chuck.ioOn[k]?).getD true
  match s.chuck.power with
  | .run => strapped
  | .idle => strapped
  | .retain => strapped && decide (18 ≤ k)
  | .deep => decide (22 ≤ k)
  | .backup => k == 23
  | .unpowered => k == 23

/-- The pull of ERR_OUT_N and PLAT_HOLD_N while they are not driven (R559). -/
def State.masterPull (s : State) : PinDrive := if s.chuck.pullMaster = .gnd then .highZ else .pullUp

/-- The BUSES record works the management buses: from firmware start on (R564). -/
def State.busesSet (s : State) : Bool :=
  match s.mode with
  | .held => false
  | .rom => s.warm
  | .scrapped => false
  | .headwater => false
  | _ => true

/-- A management bus pin (R564, R586): released, pulled up where the bus has a role and in Headwater. -/
def State.mbPin (s : State) (b : Fin 16) : PinDrive :=
  if s.mode == .headwater || (s.busesSet && (s.buses[b]).role != 0) then .pullUp else .highZ

/-- ENC_SW_A[k] (R456, R564, R565): the code of an enabled pair, else its pull-down. -/
def State.encPin (s : State) (k : Fin 8) : PinDrive :=
  if s.backup.encEnable.getLsbD k.val && s.backup.encDebounce != 0 then .code else .pullDown

/-- A transmitter (R528, R529, R564): electrical idle before the link may train, after a LEAVE, and while its domain is off. -/
def State.plPin (s : State) (k : Fin 4) : PinDrive :=
  if !s.lanesPowered then .highZ
  else if s.fabricRuns && s.linkTrains k && (s.link k).st != .leave then .code else .electricalIdle

/-- The pin while its bank is powered, with no transaction in progress (R564). -/
def State.pinPowered (s : State) : Pin → PinDrive
  | .hpSck _ => .highZ
  | .hpCs _ _ => .pullUp
  | .hpDq _ => .highZ
  | .hpDs _ => .highZ
  | .fpSck _ => .low
  | .fpCs _ _ => .high
  | .fpDq _ => .keeper
  | .fpDs _ => .pullDown
  | .fpRst n => if (s.lane n).rstHigh then .high else .low
  | .rvSck _ => .low
  | .rvCs _ _ => .high
  | .rvDq _ => .keeper
  | .rvDs _ => .pullDown
  | .rvRst x => if (s.res x).rstHigh then .high else .low
  | .mb b => s.mbPin b
  | .plTx k => s.plPin k
  | .plRx _ => .terminated
  | .seqOut k => s.seqOut k
  | .seqIn _ => .pullDown
  | .mon _ => .highZ
  | .encA k => s.encPin k
  | .encB _ => .pullDown
  | .errOut => if s.weir.pin = .released then s.masterPull else .low
  | .platHold => if s.chuck.platDrive then .low else s.masterPull
  | .rstIn => .pullUp
  | .tck => .pullDown
  | .trst => .pullDown
  | .tms => .pullUp
  | .tdi => .pullUp
  | .tdo => .highZ
  | .strap _ => .highZ
  | .rsvd _ => .highZ

/-- How a pin is driven (R564 to R566). Unpowered it is at high impedance, but for the passive pull-down of a SEQ_OUT. -/
def State.pin (s : State) (p : Pin) : PinDrive :=
  match p with
  | .seqOut k => if s.bankOn 22 then s.seqOut k else .pullDown
  | _ =>
    match pinBank p with
    | some k => if s.bankOn k then s.pinPowered p else .highZ
    | none => s.pinPowered p

end Sys2Proof.Machine
end

