-- ==== Sys2Proof/Tests/Slice0.lean ====
section
/-! SUPPORT. The package's own tests: for each clause of a statement that has hypotheses, a named theorem
(hyp_<statement>_<clause>) that shows a state and operands which meet them all; the commands that WellFormed refuses; and
values worked out in the manual or in the standards that it names. -/
namespace Sys2Proof.Tests
open Sys2Proof Sys2Proof.Machine

set_option maxRecDepth 100000
set_option Elab.async false

/-! ### Helpers -/

/-- `Admitted` as a Boolean. -/
def admittedB (c : Cmd) (r : Req) (s : State) (ch : Option Bytes) : Bool :=
  serviceState c r.port (callOf r).cmd s == .serve && (s.received r.port (reqFrame c r) || decide (s.deviceLoad < 1024))
    && headerOk r && (match checkCall c r (callOf r) s with
      | .ok x => x == ch
      | .error _ => false)

theorem admitted_of {c : Cmd} {r : Req} {s : State} {ch : Option Bytes} (h : admittedB c r s ch = true) :
    Admitted c r s ch := by
  simp only [admittedB, Bool.and_eq_true, Bool.or_eq_true, beq_iff_eq, decide_eq_true_eq] at h
  obtain ⟨⟨⟨h1, h2⟩, h3⟩, h4⟩ := h
  refine ⟨h1, h2, h3, ?_⟩
  split at h4 <;> simp_all

/-- The outcome of the checks of a transaction whose clock and chip-select high time are within their limits, as a Boolean. -/
def gatedB (w : OpClass) (t : Txn) (s : State) (g : Gate) : Bool :=
  decide (t.sckKHz ≤ sckLimit (s.lane t.lane) t)
    && (match lastTail (s.lane t.lane) with
      | none => true
      | some x => csHighFits (s.lane t.lane) t x.2)
    && decide ((gate w t s).1 = g)

theorem gated_of {w : OpClass} {t : Txn} {s : State} {g : Gate} (h : gatedB w t s g = true) : gate w t s = (g, s) := by
  simp only [gatedB, Bool.and_eq_true, decide_eq_true_eq] at h
  obtain ⟨⟨h1, h3⟩, h2⟩ := h
  have hs : csHighShort t s = (false, s) := by
    unfold csHighShort
    split at h3 <;> simp_all
  refine Prod.ext h2 ?_
  unfold gate
  simp only [h1, if_true, hs]
  repeat' split
  all_goals rfl

theorem passed_of {w : OpClass} {t : Txn} {s : State} (h : gatedB w t s .pass = true) : Passed w t s := gated_of h

/-- `Stands` as a Boolean. -/
def standsB (c : SeqCtx) (code : OpCode) (waiting : Bool) (pos : SeqPos) (o : SeqOp) (s : State) : Bool :=
  decide (s.opIs c code waiting = some (pos, o)) && (match s.chuck.policy with
    | none => false
    | some p => decide (settle p c settleFuel pos = some pos))

theorem stands_of {c : SeqCtx} {code : OpCode} {waiting : Bool} {pos : SeqPos} {o : SeqOp} {s : State}
    (h : standsB c code waiting pos o s = true) : Stands c code waiting pos o s := by
  simp only [standsB, Bool.and_eq_true, decide_eq_true_eq] at h
  obtain ⟨h1, h2⟩ := h
  refine ⟨h1, ?_⟩
  split at h2
  · cases h2
  · next p hp => exact ⟨p, hp, of_decide_eq_true h2⟩

/-- Firmware runs, right after reset. -/
def run : State := { State.reset with mode := .firmware }

/-- A request of a payload without a record on management bus 0. -/
def ask (payload : Bytes) : Req := ⟨.mb 0, 0, 1, payload⟩

/-- A transaction of an opcode on lane 0. -/
def txn (op : Byte) : Txn := ⟨0, 0, op, 0, 1000, 1000, ⟨false, false, none⟩⟩

/-- A read of flash bytes with no fault. -/
def env (flash : Bytes) : ReadEnv := ⟨flash, [], none, none, none, none, none⟩

/-- A state with lane 0 changed. -/
def lane0 (f : Lane → Lane) (s : State) : State := s.modLane 0 f

/-- A rule over the 256 units of the default host chip select. -/
def rule (a : Access) (act : MisAction) : RuleEntry := ⟨0, 256, a, act, 1, 0, false, false, 0⟩

/-- Lane 0 open to its host under one rule, with a flash of 256 units on chip select 0. -/
def open0 (a : Access) : State :=
  lane0 (fun l => { l with
    denyReset := false, denyNoPolicy := false, rules := [rule a .log], hits := [0]
    cfg := { l.cfg with jedec := [1, 2, 3], flash0 := 256 } }) run

/-- The state of flash chip select 0 of lane 0 changed. -/
def chip0 (f : FlashChip → FlashChip) (s : State) : State := lane0 (fun l => { l with chips := vmod l.chips 0 f }) s

/-- Rows of n bytes, each a number with its first byte most significant. -/
def hex (n : Nat) (rows : List Nat) : Bytes := rows.flatMap (beBytes n)

/-- The key block of an HSS key of height 10 with w = 4 (R165, R166). -/
def ownerKey : Bytes :=
  hex 48 [0x0200000044000000000000010000000600000003000102030405060708090a0b0c0d0e0fb9bf6f48cfda4f378bc3262a] ++
  hex 20 [0x8a96be7832ffcf6f92d4eaca41f7cf45be169029]

/-- A signature by that key of the manifest: its head, the values of its chains and its tail. -/
def headManifest : Bytes := hex 44 [0x00000000000000000000000337d8c2669aea6f931e7c4243386e6194ae3f456bcebe22f6deb6fa13025d53c2]
def valsManifest0 : Bytes :=
  hex 48 [0x7e87821bf3a7547d87f0301a9bcef53f88b194d60da9647cd38da92cbab896339a72d214ce23ad72c9f4de549c8e554e,
    0x6f97a6b3d2f92ca0a5f6f484021ae25549770f995f0f6e37b0d3991369078355d36e3268d75e75c151aaddcf458c68ac,
    0xb813278cf1daf27e278ac4e16e08de54be29bf90430304e41f2c2ba168aaf2b0d670fdeebc7c873cce1c6c14acc2639c,
    0x1fd0b4518dc0b4d276c1d94601371c2a212a7fb10973b86de8ca6be8ffaf391b0d628246a273e6269559a0fb6df1d001,
    0xcf3408a282fada7c12f591a4ff26f8bdfcc5a07b877b88e6f10c6b089a0d9b5421913bfdda2ec56fd1b24334504764a1,
    0x232df2c02f0f63f2cae40ce948f4b3ac2130e8fdf2853fa4e308b3696b46eda81e4055354113e4f2047459081d2e08f7,
    0x6c8fc80e0d3b2fd24fea0862490e49161376d0612616ef0cab9e3c4e74e5544547d680d55e39d9e2ce010cd42fbb14cc,
    0xd585d1fcbe23e2610058a85f15345a6b142870417cc30dfe45c22af4f5529ccf8248304648652e4f2f08bfa89e22b611,
    0x2e02126d0e7d5b639a532637dbcb44b341b0052d3eb2b05393a9256b1748d04b6651198a19944aa3e2230210df7e73ba] ++
  hex 16 [0x1a36b5d02fd4d2ee8af1b6c29fc1ef6f]
def valsManifest1 : Bytes :=
  hex 48 [0x3a4bc1bb83c78a954e68c648103f0d1b1b17a369de5cf10ee1af9f503a6d947f3a4e87be1477b803e365e3fc34d75047,
    0x8b6166b54183cac7d29c3e5d52755dac90e9a491669c77a1726a21341813ac3d317fbd5d0bf209ab8183fc6d24281c7b,
    0x18c49cb3d026d004f693bae305fd2ff0944665a6c01e9165ccf7452c54942880205b85ee7f121bb322410eb59597c969,
    0xc6f731515c3ac212f7a7e94359d60c3c48a23fb465e95c392f36e869beac205c032e3bc36e5d92c4ecbef816c51b21e4,
    0xf34c34bde1766c71edf0584b95658891378d1caba08e9f18fff14265861b5e42e16c9160720cd7dc15a2fd6bce08eea0,
    0x40413897f14b52baa7eb7415dc99e7234b081481190fd17a41bb5bf8f6c232e8bed115bbc41f0acdc4a2949a4930740e,
    0xde9b50bd0ec7948bf6826ccb710ac4658ab1d2c188263ab69613b3f5bf3c30f9757b991eee218478d971dccb2e3e45e4,
    0xadf94f9dd61bb9618576a47e67af3f8b15a87899399af4d27a0786d7d9bc563dfbc7fe27c5e61bd8e3147c53e18c2a4d,
    0xdf75a7247aa71b0905e668f4091c27e4eef2ad6ee774511a8d86e4814a1642663f9e93a63cb2417d8f207890c2be3d4b] ++
  hex 16 [0x88c767c833d02b6423dba691842e2501]
def valsManifest2 : Bytes :=
  hex 48 [0x2489f6c14bf19f9b3b86778cae87b7b3e6b61c2a4a2670e4ed066af9efe029779d7d1619e2777613894d853f63f3e91b,
    0xdf363fa085a700774a454ee9a9ad5daf7033cfa88071ef584231c1135df4ddc15bb53f5cdbc4320185e36616de70f73a,
    0x7b623991d216d3f4d30f6658c6105e3d71e9a714fa09f14648046b66cd35bdc8613f9157f566f7e9cfd03aaedfafcc8f,
    0x9c03d5e363c371e4dcc17495c977ec26fb033018235c33b13db2425c68aeaff15c615fbfe25e8d2034208e87eb223d96,
    0x3e813d161cf5396bf55172c73c1f4a69c11587842b546938bf85c0811a683ac1fa3331d6d785590c28152d1cecf5ce02,
    0x9877acc739d3d3bd3f049d772350a2df45ce3c2c027fb5fb1f07c937ad5687c82b8489a8eb0a4b534f122c256293a445,
    0xb3b90a9966738ec7e54ae635fa491a6fbebba230376330dd025cf805e2b8202736a6f96637597df0df1fb968b66c3a56,
    0x1f87a9e6e2ce844a6aa7b5ea1116a01bdf5110688b05ecbb7fa9ece11df9654b1342fbf82fb2b304225851713b117498] ++
  hex 32 [0x609b9c7157cdf0c0e8541c76f73962989b647a7627487ce39cd1ea5df44c0849]
def valsManifest3 : Bytes :=
  hex 48 [0x7160d4c62337f59c50a906df6459aa73abb75458c5f2e175ff86e047db9fe1025b6ba1e3e10c968ca16131dae71dcca8,
    0x270ecc3735691805cf48c9d6a427cc81a3912d18ed880d80025d5a7332906fc44e8e4ee72a1859f194074a237e7afc4d,
    0xe245d6b44882f053326471ca3a16f0fd2c57e61bf0131df75dd453d82c7856a05514d944da5f2fcc8e988ef0127642b3,
    0x391995954dec28b8a941d5525cd97051d10060139eb2557f6a04914d080423baa127725d00ed60b8ef3f1d49de53ff38,
    0x31a41429e3ac4be07d65f8176a6029a419b058262a262e5447b3390200d2c8b54a762e00f63409e28ff27210b7db955e,
    0x60c19c1f93443362fca52a9238ee55ff902d6c921f4be7eb939555ee0101b9070d622f7640549d541031553c46e55c5e,
    0x8ff9a9190faf9e9c26176ad4feaccee8186c2fbfc4f70781830701726a90615777aaa27ab256a71ce291fc3bb3190dfa,
    0x5d7a84b6bd1d5b0f832a370143ea327a33342841bef794d262af28ea4faa62be8d9319be5d1a0f64adc9a21d19e5cf77] ++
  hex 32 [0x5dbed1fb2f37244730308a1d54528179e2cbd966444d9c778e333aac1f92e1ee]
def valsManifest4 : Bytes :=
  hex 48 [0xdf4fbb0acb5b881774e8b792ad0065273c9d59188d6e69b6464b40fd87ddf6d47242478d25be18855aebf6235f12a597,
    0x204ab2af06ada406ca6831026529e2db8ac0c0f4a4510d6f2d4d1df4f5438c66548f565e1925a0fd327bdaecedfed22d,
    0x02b7532d7ccab8c7c3fe960dccbb1fb5b1533e1535dbc3002d1cde91236e33670e3f3276364ff6f8bdba583e9d6d6f5b,
    0xb3eaeb7b39397c697e237988b5b3d2066f1cecd2818ca9110258479cf392bda0ccf207eb7a1a8b124dd2f084e7f08eb7,
    0xdf87d202d0e4165615383457207f2e59149c951b40e3723f347f53d31a12fbc8e1460600e5f6c1670101589fa04eb9b4,
    0x167d41b7b6accd0181f4f526a536a3efdc823c47d1e2b62c11801506996c1206a24e4e1f0eacbf0dc892eed90cab026f,
    0xa23825452b4744ea247c0517d9bbe2d1104a9ffbe421385bfa9e41568f66811a00c0031d482c5bf1ebf3eeae52a81d56,
    0x3a59404247ce4d8a55fb0b3c0e84713208366021f9049f8bf482f69af26a6457a704f5e69e3745474651f45d7819f37d] ++
  hex 32 [0x287d9fb7bc8ec6068500292da247d874fc274bf9a39c18d3656a2571a0d695c7]
def tailManifest : Bytes :=
  hex 48 [0x00000006e599c71d9067090569acc117d93215b48f39aff7d5493efbbdb4ddcef033a39eb465b8c7270827e21764d7bd,
    0x5945b6413e5568ba4c92413fff2fb90f33786eea6aedac665d70af0fc4c772d21a40242a0d277cc85bc3ff6fe189184c,
    0xcae3e282c07afbc0eaded855f334f9085ffd39bd02c5c997dbe2b3bb5e026f1b2550b79e2860615c50749137d18c2ce2,
    0x086b1ea5c15971cdcfc6a77ceccda8b1c2bf6e89ff609fb4f7cdc39167e734caa9c2fa6145d3091b2c1625562c83f33b,
    0x6fddca6f0125c9306de3609c7778dafbc834c8e43bf53fd51e2600af1cb5e35121ab0eb21787b2ac3d8e33da0b37b317,
    0x57c0812bf9d222b5d7f239a0d2b4b604dd595130436787e1c6c2a5848c9fa3c9dc1dc370977e6634ca3a8438b8ccf132] ++
  hex 36 [0xe4c7e6c9dc273c907ce846a761fb64f036c16bfb2b90792f79470a7f1cebdc5055d2d731]
def sigManifest : Bytes :=
  headManifest ++ (valsManifest0 ++ (valsManifest1 ++ (valsManifest2 ++ (valsManifest3 ++ (valsManifest4 ++ tailManifest)))))

/-- A signature by that key of the lane policy: its head, the values of its chains and its tail. -/
def headPolicy : Bytes := hex 44 [0x0000000000000001000000032719f1d9a38abbdc8cc1e1456e810db9dae4bd9896d94c541563c1ae5ab45b38]
def valsPolicy0 : Bytes :=
  hex 48 [0x6d14fce4a1cae2576c4fa460598f1238840c6745887d37f322275ebc3b94fde94cd0e450586ca95a967746868e899676,
    0x548a354cd60612ff08e33c09f462bda0d374498fb05eb5dae90acf787117e6c7588e7c7667c9628aa86d9367477eeeca,
    0x080658721f4d2cf39e0f6bc0d9163667f130e8648313b5768967ccebf3f0974a5dd26266ad7f7dfc6dc1e4f844719676,
    0x9501e6f250c79468e87c172afeded16cc08838166b37326d0acb28895fcc71242ada18d064f6ea4849ad598fce5b91d9,
    0x4ca29331134413236edd765c6f1bc877237ab31c39ebc0b0d81cc960dd3fb80343539baac9d67b517a242b55f4b0c9b2,
    0x446f13b7951056268770a4ddac1647dd8ece12ba4d4324837c2542712e9bc492608050efb5ea22dfdd05ac61d4d56565,
    0x33215c803a4b58a777e9ed875d71859f6205e6b05c459e3c5e94e5166116bedc2df8f70440dbd01f7760023ce0fb03a0,
    0x58b6cb87971e0afe49db2b75e81104d38de89a07429224f2b11b35f4a58e62ba907b3de726f6b9f50116359063ecdea6,
    0x4019577ea87f679759a910d561fe2944d31ae837c6136dd25a65ceaedaf5cbc209e1313fe644f76a03612128124b62dc] ++
  hex 16 [0x2ecfd857fb9a402d95206da246d178ca]
def valsPolicy1 : Bytes :=
  hex 48 [0x2b29330613bd8377e4631054855f5d06b25950851eba2bfedee3c5af57cbda1e5ef7890463423e5683e357c3fb085cc7,
    0x6f786943a381ff2106e363114218b4e50a0f0d9c5e479eb664985b57c4cf64a0a9dc3024cbe85305c9735307ca4d4475,
    0xc48f006fefff1652c69b44776dfb419c260c0678233b34db67f1096c1611b6b84bbde0e8bc12852293449251e64bca96,
    0x7a61406cd30fc9e899479dc32bf0f82037b4ccc0f91a94adee14b85012515c9ca59050af02fe985bfbe67c4beb5db70c,
    0x9096d2b7110a1694234477aafd42069331db16721bed12af93338c051edb3195d38ba03ed2e168b502ea7102aba1b62f,
    0xf0efb48d7330056f29d3aca980e27280db8924ac7b2699befd6775dee802f744c95d5fc54e4314095f3966e1322df29c,
    0x569fa16b45011a2fda46f424ad0cd72fbc380911a7921567fcc0c6b0af93200ef419c066ef8347503e43c3a70bdd09c5,
    0x36e489c01a3a476b0a89533959154d7a75e4d3e0d8819aa4c992f370c4400bfc47db87dab3ed6ef4081c5c8b50778527,
    0x335adb60601c3c90e82321037320deace17f332b939d5e9e8a2f424e39b3c4c7e7da4ae3b3124b0f39bc21c1e9e07681] ++
  hex 16 [0xb7a1f8e31d57bb7dda3866b4879e8fdc]
def valsPolicy2 : Bytes :=
  hex 48 [0x274e97ba2935de2fc3eb5cf49cb497cf4a3ff3aebca3dc743a91bfbc4194eb6cc5d7c0b9ef43f9a40f07e7c127afd893,
    0xc48b1b7bb5be439f80f1732c348168880d6bd5eb1f728a4e1320279bc49355ecd41d6d5c3f8a6ce0cc55fc468e44006d,
    0x16f59f301776377f8516e113fdfd8e4786fa87e76188872429866005156e0cde60055162d5212e263b3ae46719ad2e9f,
    0x4be3ba050a4606138712e1cc37779cd27f1138b2258277cc797afface9daff511ac4acc1789bdfddfa033d5063d33838,
    0x461f9c804c53bc8667c38ae90a56c19d8457ec125f4718f357e8346ef0c38fc2aec2b6f42bb832d8e90bda9e177da8b7,
    0x0e3429aafa7c95eac4520bf5f69ae8cc907141da8643c2c21920fa679fc20643f2f418b5447766eb88200f8103573a6b,
    0xb20406aac9a68718da7c61e70a6748e439aefebb9e1069e716842b87faf6c676ce12010b3075f825fa17cd78ae2d6eca,
    0xebfa3216c1c7762930e23f54a7cca7d087ce15d14a4d73fc0a2a21b1847258f13b2cbde3dee4c3d4f54c74c9ded72719] ++
  hex 32 [0xde6f235566f3e7c0b4cc3e236e79027f3d551389c6afeddfa26ef08a73acd1b9]
def valsPolicy3 : Bytes :=
  hex 48 [0x695b99856d3dba625c277b084f5a776f8bff86ffa425d38219310aff44d3b1f5790360567d524c8aed9d4b7cc25db2d8,
    0xf635104fca82b9d249e181bbeceb1224ca7e3968f21e53cfcfe81ab47d696c54eee25ff408bf23615fd4df641cbf2f4c,
    0x832d395eaa27a756756c9a8934af58ee61bbec00335b9884e92aacedf1f9ae40fe3206a29d813d03ab31ec578d067164,
    0xec4b363e5b771e0dacb70a95e9ea1deb2521a706e99b927a64bbd6dd9df43bbcfb9000bca408461ea4e75ca1648edf0f,
    0x5b240c5cca1fedac3c054566b41fe7d3bc5f1eda8a0d3380966df572d5c6a2de142aa4a02ded7cdce1cdb82dc62f2bc8,
    0xe0fd6113bd822eb7369d48ca7751c4560feaf90aacc8eb0ed1548f220ad02e6fce1e0acf3e8c3c334d99933fd73f3fd4,
    0xfd71e0044c5d09523ea01e3f8be7327ac1b0f5acd7b4b5184f8986687c9946d8f5f26d881a2111bd8784e4b24c0d8604,
    0x01322805a6b81f68e8b69bda12ffca39088fa65be12307174f869c2f97e2097c4c2b675b287fdc78fecbca2656317e14] ++
  hex 32 [0x5f54267a26e5af03fb9774e94ac87ab6443c83a02e8304a5fbd4a2bbb616184c]
def valsPolicy4 : Bytes :=
  hex 48 [0x49d5eff071e83cd50f224b035f97d4c1e13bec0823db51eda50715333420e2361fe34154293c44ccf75d12904edb61c9,
    0xd931aa38757427cc195bf0acf74556a8118a092f6838f2c118bdca3ee5570f33866f30fc994a3d425b45665a24f5f18a,
    0x6f5ffe4ecd8b6242a2afd33c1550837df26b5921bd216e68cfffb131b8da2a35aa67583e21a848e40ad11033c93e779d,
    0x4f4c5b8f787ca6ff9810a5e0984865d9e645fe7dbc504c907b496aa6b87d2fd2f13b5160698c24d2c3629296bd068b19,
    0xaa07c6ad7a8f8cf5f246734b93c11592fff80f98fbbb86d2faf74fc54502a8dec20b62b5714ca0ecc033d91e4d6e824f,
    0x5625fa037e4193331a6f1a4a6a7d6a934f680a8ab35b4aef322b7575ecaf08a0f4e058419bbc221ab99aa5566901ed06,
    0xbc7332231437961ccff74643c42bd04f02b05602406966a4ddd794f3fb2382ca5229efc68078f6c7c4cefe82585063f8,
    0x9541f24d39f5d664af56bdac000a99bd4b11642335ab515acc468e61a2cb9aea3936575b17855c116019bd0829c1ed5b] ++
  hex 32 [0x87472bc562f43b894e48a7419c605e97c0293f0b64b1176a70301e5ea8445aba]
def tailPolicy : Bytes :=
  hex 48 [0x0000000609bb996573960ae34bfa6d7cf19956beff4f831c5457e5f7c0cde51532e7f022b465b8c7270827e21764d7bd,
    0x5945b6413e5568ba4c92413fff2fb90f33786eea6aedac665d70af0fc4c772d21a40242a0d277cc85bc3ff6fe189184c,
    0xcae3e282c07afbc0eaded855f334f9085ffd39bd02c5c997dbe2b3bb5e026f1b2550b79e2860615c50749137d18c2ce2,
    0x086b1ea5c15971cdcfc6a77ceccda8b1c2bf6e89ff609fb4f7cdc39167e734caa9c2fa6145d3091b2c1625562c83f33b,
    0x6fddca6f0125c9306de3609c7778dafbc834c8e43bf53fd51e2600af1cb5e35121ab0eb21787b2ac3d8e33da0b37b317,
    0x57c0812bf9d222b5d7f239a0d2b4b604dd595130436787e1c6c2a5848c9fa3c9dc1dc370977e6634ca3a8438b8ccf132] ++
  hex 36 [0xe4c7e6c9dc273c907ce846a761fb64f036c16bfb2b90792f79470a7f1cebdc5055d2d731]
def sigPolicy : Bytes :=
  headPolicy ++ (valsPolicy0 ++ (valsPolicy1 ++ (valsPolicy2 ++ (valsPolicy3 ++ (valsPolicy4 ++ tailPolicy)))))

/-- A signature by that key of a TAKE_OWNERSHIP record: its head, the values of its chains and its tail. -/
def headOwnership : Bytes := hex 44 [0x000000000000000200000003523e918e98ca667c5552ccc17343c096a90527efc43a10590f2b869a99bfabb9]
def valsOwnership0 : Bytes :=
  hex 48 [0x16e714c0a80a23a2ca627dedabb85039eeae736eeec53f13de0791af8b31e71bb585072c51544a276c83d7de62e246f0,
    0x3ddba17eb5978048447eb0f58e8592f6535f19c9c82e13df17c14bfea276113f12c74b0eb6080fb1b4f7debcb806d8ed,
    0xc830deb8c958319b4f60a37d7f08ec326b646b7092f3049a983bf1f462f0a33893b53aca66451219cf4db37918ef99c7,
    0xa5dcf7d953757a41033a787fda81b6195b96cd9300359574ead601ba6e65d6bb50790ce6776d85461e9b3ba405fcf958,
    0xca51ee9c5253a81134a46589e448ec5146e2a8aac19ef900d85af402d6ac7df84f0f39b43d93eaad96b4f59c8b60c52c,
    0x0e14d087ec18de473e1f6139005f8e0fd85242c1824aa6421de635898ecc2ef0f0e4f7b4e4641061d86a90edb0535c64,
    0x2a66870435fe6153132b3f245d36f28e64f69208753e1110a841595082c1d7a66b5fdab9168badbc75d9861ad757d81c,
    0x5f5a78627163c7853d46c028dc4aed365b0a023dade87079d4f47643f70bf60f91f16b54da48598973bd9e8215f2ec93,
    0x6035a12cef747bf1d98eeda02144bab6fd8e3e43def100ddd56211bf6999695d330d7a279b9cecb06b30f0441d1ef71e] ++
  hex 16 [0x65cee939069087099ddbedc9f419ae8b]
def valsOwnership1 : Bytes :=
  hex 48 [0x05b3d7838065f7a9c686ead3177ee4b8081df3b98e445861d91c620f7e2aca0a0a4b1f0bff91294e2458b0e3d0f7c117,
    0xbf54bffc350f748fbc9bfdbf587e40bc676482074aefa0a48227d9679d4c1a75a969b3ccf85aed332b45cd16824e7f13,
    0xdaa40f69c7d29ccf8f10322c09b2008f07fe143cb5dc77ffc2995d8efe092af363fac891aebf223cc8fcf9d590ea9d0f,
    0x0fbf60849d5c11de6548226611d55ef2ea8534890f70cd1303d12a9c635fa2ca15eee7c5290438a0487812db5631afae,
    0xf3b7d6f85dc118048eb377fe4dc47032e7f1507bfc1cc73f2435f477bbfa9ca819df19489405d78806fa0a8d2a0c4e89,
    0x67320f2b1d3457f60961a56c18545e02467dd0ca5b456677c5f3d94c99062cc37bcf4fa8dff0d40f9e834426b0dc6a95,
    0x341343be6b95962246836deab895d3f5186e51614c99d4b645ec2599ce8e121bbc581bb92542e5b6a88a678a86365c15,
    0xc2e80df216a054a02994bbd8078cf99ea75efcca6dde3773972753195f229792c97412cc2da579de2712de1e449cb807,
    0x353c6236968784cbe14aaec4580f27484e795d0d100efff01134bdf8c6e04d23247479a2c887bebf40ad267e5ccda5cc] ++
  hex 16 [0x6e06255c5413bc72a7224732008f899e]
def valsOwnership2 : Bytes :=
  hex 48 [0x9549dfede80f9d25f8326ee42087efebbe2c3d4addedaad2c197932d3fee71472e3af740b34609d325debeb68f53521f,
    0xb06963c94bf77bd8904d9d158c55bda1fb65a9ab0f97b5d2e94fe71e7eff9888f0a518df736fd17c6d1dacc3c869d304,
    0xfaf5fe3ba51573bd2941d25f3f2000cb8846ec792da8c22cf96422812bdab0df9bdb8bbf016cce3bd66d9defb00bf354,
    0xb5b9c20e3ec71feba6d3e7c5c2dcf0ef1e5be8d35874e744b0ae771d2f26968847c60359e66f9c95ccf3f358daf70502,
    0x8638920fc08ea9e84d95423ba96504ccf22e0e43c5fcd4a9d4d2f05b283d13922903db82291f2704e2c497fe41089cff,
    0xa60f0c341719fb4fd9eb79b13c623203ec5d6ecbd0d599d184eab10d2a21e0c47e65f69fc733997e9b93bf353da99b60,
    0x8bf4bc38a57ab091f3eb58602dba866105902221d1e84e0a09a50afe74c68c6103c62af4ffa89fbc30da2d8507f8e329,
    0x84cb91d29c3f168df5d73f67ff193043aba191d46dcb5d48c6d9f3e0d7e544d46a209b2de6bdc875cb693fb66700003c] ++
  hex 32 [0x9df5f74984adb23f5ff9e6ef7ed5701d95a6d5eaacb8d8915494c45446ced3c2]
def valsOwnership3 : Bytes :=
  hex 48 [0xb18a2597850a4740d5299dfe4d3040c98094ef5e8ea522d2db25aa8bca5c2eb91d38315570d19ca0997f51cc000e4fb3,
    0x3cad274922f321ee58e10def7d9edd18b84e4dfad1537de65ad52967abd50f8d363fde0f2547c103acd192ad88e60ebe,
    0x254f1a7cc7ecd8a0edc6d5d94936613abc8ed4dc05d1275e2958aa4f82051d69a70aad7e041de8c90ed492058ef2eab7,
    0x333348feefa911874c35ac789a367795467a964dc3663d893a4921f8cc45dcde5087e3d4cfae50fb6bc3b0db892305c2,
    0x2dc9bdc6e815ca38a74b16c20bab41c590b37d2ff8db6bc0ad108ea52b193d13ed9f22b9004cd325a11cb82c25f12341,
    0xb96458dc5fb81628f44229aa720caaf8e51d58d184518d0794257cd46854986642353189284af83fc1b118cc3c748287,
    0x16e0697e544211be0a9dd5563c2f1b06ca69c63b9d7539fe7c647d916bda20d2b30724c29fcf16696301c1286ee4f02c,
    0x6e55977dab2f96c91211ed9306f86cc074d1526759d8bb3dc7c999c1adb9c5cd699e1344eacb01ef0ec228be02574174] ++
  hex 32 [0x3b2ae385f62631206061b222f9788160df3f3565d9ccb981c8142c0b8b4709f8]
def valsOwnership4 : Bytes :=
  hex 48 [0x63f20f354b3ccff0c7ee62a2f5b0ae8b1e650893ab280b7c213c587a4fbae9829939d632392c8650374dd2715cdd9c98,
    0x597d6afc0e55e1eea1def42bad96f26d56000c0bcffd5d947e880b08f84714f02a2f8ca484ffaf39324215dd47e4d664,
    0xe5b49a6003fd6d85619ae06eade7a1c431809fc944e0ba827a1aa321e2cd6917bd8beb064cbde15a3030aeb1f8eab397,
    0x2532c270ab1899fdce3c06546b08e4c7c5807df58098ec62efc1c7df1923039911886d145ebba06199d079dd016c7da1,
    0xab332ddfe4949711972d992bbc07f3bfd721ef62c1887160e2932fc89ca179fd5b33114d5275a74eb7c8bedccf6d1386,
    0x92bef6d936171a3f643f46034b21fffb91fe70536f0f45dea04a8765b0ff665e6849d318e170ebc12272964732ec5ddc,
    0x59a1baa79d4209fd25f178de1060f0b43d6baf9444efe2d30d58acd56f064fbb020e4698042458d5a20dfef0223171f7,
    0x6d18e2bd42cb761901f7f604b874fc78e8dd6d26d867ee0eafda630a341614a49deeebcf2e49c4e30c37831f6cb042bb] ++
  hex 32 [0xe2c7c73de59ed6180b094aca951e7dd473c7b991c334156251e011bb38cbfa41]
def tailOwnership : Bytes :=
  hex 48 [0x0000000629c64a2be966e6120f3a50997a79eb0c195513a0ba61a5e8e4280ecfee9176ea6562be4244366f20d4afcfd3,
    0x8ed97089c233dbe65e920c76e77034dd39b851636aedac665d70af0fc4c772d21a40242a0d277cc85bc3ff6fe189184c,
    0xcae3e282c07afbc0eaded855f334f9085ffd39bd02c5c997dbe2b3bb5e026f1b2550b79e2860615c50749137d18c2ce2,
    0x086b1ea5c15971cdcfc6a77ceccda8b1c2bf6e89ff609fb4f7cdc39167e734caa9c2fa6145d3091b2c1625562c83f33b,
    0x6fddca6f0125c9306de3609c7778dafbc834c8e43bf53fd51e2600af1cb5e35121ab0eb21787b2ac3d8e33da0b37b317,
    0x57c0812bf9d222b5d7f239a0d2b4b604dd595130436787e1c6c2a5848c9fa3c9dc1dc370977e6634ca3a8438b8ccf132] ++
  hex 36 [0xe4c7e6c9dc273c907ce846a761fb64f036c16bfb2b90792f79470a7f1cebdc5055d2d731]
def sigOwnership : Bytes :=
  headOwnership ++ (valsOwnership0 ++ (valsOwnership1 ++ (valsOwnership2 ++ (valsOwnership3 ++ (valsOwnership4 ++ tailOwnership)))))

/-- A signature by that key of a LIFECYCLE record: its head, the values of its chains and its tail. -/
def headLife : Bytes := hex 44 [0x000000000000000300000003ef69921ab23e3de6c3bcbccbdffb8115d305ae83051806560e9f7f7536d58735]
def valsLife0 : Bytes :=
  hex 48 [0x91bfe3c7726c42e7cfcae12bae8542a99347980b14639a366aa8f7cd79efa0cfdb4bbfae4629212d29732ace90cd2bf8,
    0xf5b1286f097257067854d8d81880bacc3b2f764eaddb9237edda0271b7c06f924612362fa1ec2c3a3a15c41e05f8de7e,
    0x4a60cac5e57fc1cd22fddb8ae49428c5d62210da8f84c87aff423d64311c740f87ed2eb970ccfc968e67eb34772e17f2,
    0x566f51ee31c0cbcfdb9e72e58e87dd0cf9debf48b434101c99d53e4ac2e5d9e59766eb0ece11d5c4ee149d7476948a37,
    0x02d778890216508e25020e54cfd3034116d094b71297bd968584ab16f7c3bd95872839a13835b1c863007e8d4b108716,
    0x7d6e49f15eadd73b45823c5c22d8e410c952b63d3a59cccda5d75eaa4bd635d98759e1ac7ca60bc7dbd3468e7d53971b,
    0x9845d2c0d5960e33a3e99a6bf4e1be5f8e826c94c8f0b5ea1b04964a1d3141f1d8370c8159809e86ae35356fb36b5e15,
    0x265755d9665e28f90af748753e5b85525f214de27d50ba4ea7391d94aaaa5c37576171f1fdd1310aeb59b5fbb55581b1,
    0x94b0aa53eb73e0040e21441b6aa1046a177c674b70a948fe27bc5451aa099fcfb2e20ac434dab353424df0f67b4a7caa] ++
  hex 16 [0x1c5d99421f426ed6fae374b8c6264327]
def valsLife1 : Bytes :=
  hex 48 [0xc0cfa9949649be99564183ef43ed741cf761aa21f1794d9347b814b8701fb01dc3d2c3fb5500407c4215b0d75693bcd4,
    0x430537d79b9d558668dfab21e289eecabf67001414dae9290f9dd9e9e39ccd784ce2a30b7d8b73cfdbc28083bdb2c6a1,
    0x8d3301bf32ec4e41cc7acd4d4efba9bc5cae920083dccab1cd84b9da6a1b755720fcbd3f0d8764f12b64409cf1d744f3,
    0x238db6d74db840644184a3419d5ccac4c1756a6b9b027d2ba2c18ab86cf227efd0467b07144fcd3175b3077dd805b655,
    0xc911a405bdd06756fe6ff71f6ac1dfe4d5fe385de67f9620d6fb8c815798d19cb580a567a2cafb3b1b8fe84394eb9395,
    0x320a62085668c950b1bafa5246d3fc3d854b7fc90fbe74afd32981b5f3fda34a3030bed9e6e548c7e665884a4d994d9c,
    0xbfe2e95ed63dffc9aea99f5e5ff095a42abff57c88b91e57a27838ddba10f92b3d9ba68aa9ca6868b4ffd4776decfb7f,
    0x3e942094c4d6f826dc6736b98df9ce85584b020241f26091494e2d153b7d1e260b748ef457b729a4aad0ab082482b112,
    0x094967e78423fb2c9182b58c7ad8e73b869d39893df0bae01a936483429b1ae953fb9683a5909c4ae646ac8e4921f7bf] ++
  hex 16 [0x196d5dd7b7ac192101c60ab752e5c37d]
def valsLife2 : Bytes :=
  hex 48 [0x3098b746c0d1ec7a4ea827c4a3dbbfe8463ce2f120be6d476a2cb98ed100720fff7e5d573aa61596412dfe5e739f1c5f,
    0x49e631179763c27888408b24b992a2d833cc9c6c28917e171fe08784215395d132adb5cad4fe85a9db431591aa990e32,
    0x6f619257ed72b7494c072acebf46ec4fabaeaf407db2d59d8d339dd5b7636a6c0d5d88c3e02a4b58536960f28f66f76e,
    0xe9566e4220a7762e13be2737ddc56cee3491e6a8af710a314f2699e7ade32764e2fdf529edbbb061f00851c3ccf814a6,
    0x86acf2bf7f8d30061c338075a529c26bfdd202440747106bec8936e1fdc017c8dd3978fdb051aa3ece89fa6d1958f086,
    0x2f342f9afa489548e25185b39eb101a4ca1bee3c886d22bf52a007ebae6c696f57d35e97ccf27b6b922481b7ba84d254,
    0x0a7a39b1b5f15943abf130b41ece3cc62a6c84cca29584f1ba20faf01a12a823266ec782cca6a16f0bddf3f71db3928a,
    0xc726bd198ff451b4a0a33168de1ec8409fb5141bbbb0862068237bec12a924f599160f11f321e6bf34164060da575f98] ++
  hex 32 [0x59cb638308ebe2a2b60709a4c41cec12ede33700d511f301c6c3578ae4dfd7e4]
def valsLife3 : Bytes :=
  hex 48 [0xb843d66a3669e7bdedce91d444963957ddeb8d5c30adb020c877510078c92d22ff7bd6e40f777b5be6fe1970782b2a37,
    0x7eea515904199c2f0ee3a8fe8688adacfed80b9afd86e0ee4e2c668e236ddfb0326a8e4e108648403bce4c4257b9f2bc,
    0x94c9661e9af3911e45fdd8864f7166191eb50a31f681b8a191b0b2d7bb0597cc80ccefe9c23c88b85096dac191635813,
    0xdb13672e49046aae15c0715e43da34fdc93e78c0722fdb59c1b879621604b89fed9346c70fe3b053355afb4f1803c102,
    0xd94a136fd317062ce745d6c768d98df30d8c608ed84cb7afe17aca0e754c9e3bfc650e4c3656105a728bf76faff64c60,
    0x27c052a7e1ed7f3c1cd71bf6a98e55b380d3348dc11a2f99351020a591efa5f077156d0d0528e80a665a7d2ed9fe0a70,
    0x96c3b53fcec89a0f362577c5b898b835333ed1555de935dc34f6b09f9f2a4570bc22b3bb9eb3c77ef27b4127c04f65ef,
    0x0653ea311a8297eca57b06b7c6df713139562106f41409669f72f5c32090804249d86863be8cc28b4549bf42723ba415] ++
  hex 32 [0x86413f42078873ca567f66a52aa54bbe7ade50ffb89ba868713e25deab367c47]
def valsLife4 : Bytes :=
  hex 48 [0x1c74886ed62f6bbff14af7e85f35eab151a1a818c423c030fbf636030338e6c34cf9377853b66a3bb7bad4d732bbb4cc,
    0x744fc38e5d67a59c2469a68697f9c7ee4a0d50741c5933f5e0c4c8f60ae0f0b36552a15ff2f1863abed401198d5644c2,
    0x484cb4744a4d28546f68570ac052a6949794e2544b8b69a5069a020e610669d6d9849a407692371bf6e137e36599b6d4,
    0x5b4892fe6c18fbc605ffdc687ee296f196c92e568f8f4120d881b7252be1c5f5d1c12ba95f60d907d0445f7cfa462478,
    0xb2907ad4b2bfec3fe4e70cb39f3dd89025a3c8f067bd4336d6c2ba537c15929b67f166e51e1d246d422507965ef54c60,
    0x7d12c43af9b94688c989ab90017aaa3dc38bdc04e9d809da17654f1706e4d1262eb943d544ebb2403186c0644fecbcbf,
    0x53723125188e7066e5cd0473c9c0d95121be250f16e8045e7796827bb5a6b55d2bd7d3a532e08758d525e3814332501b,
    0xa28fa94d02c5f19a931b05f235944208ca61fffd668bf02f5184491178713c5488260e5093e48eda1996efc2111fa5eb] ++
  hex 32 [0x12c9dac209d797cfc8797b4f5d40ad2b495b058e4b246f34e12dacadc7543288]
def tailLife : Bytes :=
  hex 48 [0x00000006346890086c1952c407e875b03999688910d9244c8d16377781651509531e60fc6562be4244366f20d4afcfd3,
    0x8ed97089c233dbe65e920c76e77034dd39b851636aedac665d70af0fc4c772d21a40242a0d277cc85bc3ff6fe189184c,
    0xcae3e282c07afbc0eaded855f334f9085ffd39bd02c5c997dbe2b3bb5e026f1b2550b79e2860615c50749137d18c2ce2,
    0x086b1ea5c15971cdcfc6a77ceccda8b1c2bf6e89ff609fb4f7cdc39167e734caa9c2fa6145d3091b2c1625562c83f33b,
    0x6fddca6f0125c9306de3609c7778dafbc834c8e43bf53fd51e2600af1cb5e35121ab0eb21787b2ac3d8e33da0b37b317,
    0x57c0812bf9d222b5d7f239a0d2b4b604dd595130436787e1c6c2a5848c9fa3c9dc1dc370977e6634ca3a8438b8ccf132] ++
  hex 36 [0xe4c7e6c9dc273c907ce846a761fb64f036c16bfb2b90792f79470a7f1cebdc5055d2d731]
def sigLife : Bytes :=
  headLife ++ (valsLife0 ++ (valsLife1 ++ (valsLife2 ++ (valsLife3 ++ (valsLife4 ++ tailLife)))))

/-- A signature by that key of a PLATFORM_POWER record: its head, the values of its chains and its tail. -/
def headPower : Bytes := hex 44 [0x00000000000000040000000330760144bd08428f9352cf89fca8848b76108120a29e150691810bdb1e4d0a4e]
def valsPower0 : Bytes :=
  hex 48 [0xe7460b0220ed1625f5dd653a8c93ba9b03962f8d16913e66098cbe7fc215a7dcc29da5e0fcae5e9bd1be42ea9c8efd4f,
    0xea0a3bc8c7e0ded30ab3c4fb1e82d07a3bbbf53f583a0e93304e7724b82a834df9a33616cc53b5a3810a3bbebe752a50,
    0x8ba8c9c962deb759eac0a127280ae07f9cf591b23cb88a56b0f752ff9f15c57af47f18efcc3b882fd77c9db9f4cb59af,
    0xfcb201595944c7b98566b4376c5b4086a027088a986610f712596388b2f9be1472df43c766c3fbdb5bf7cf0e215460a0,
    0x7d37f4977f895fd382da998764a00ab6f97df2af85a04821e907fba8a0bf6da7bc075308bbc517dcd9f4713bbc0848da,
    0x1f4a8abf19aead4347e84a422b3cb5930052f486dab84b58d104867d3ab3694713ac314ad5bc4bb99e7a13b17816707d,
    0xd346498fe1dc1882f3abcafd79d8b5308b4707859265dfc2c59e9b39a6c4128c04ec88d7e9c6775ccb695a6cc86ac8bf,
    0x99be1cdc493565187e5df3c1e2da95158df3ca226a576455c5d110daefd4d7ada665308b030aa85832fadf7eb214b802,
    0x3fedcd0ecfedd5c8b665ee06fee0aa366741ddf6381a6165e5018bb030b53f28b3c37d1a8d13e8313154612d66d0e9a2] ++
  hex 16 [0x26d3ed6d21cf127cae713ab3f3879526]
def valsPower1 : Bytes :=
  hex 48 [0xfc787894e1bfb239d3a597269d8e583b9a8fd9e8490d0894261f3333f9b6f3b859cf858f0fd965a2322ed102f0db06b9,
    0xc9dd20b9b7392169c9a2f414ad959aa70a2c19775354c86a12bb06c6b0789b2511188ad72fc89436481c8b6de1067c96,
    0xe1e643871a58e4e2f1d841f6ac110d56b46304f71589eb70e38d6187b24fe9c2958492ddc48956bdf25afcfff39dacd2,
    0xc41ee8016dcecb36691ce720f0557947a4250f1155c87d9981a5321f6d4b6047bce9f9072bf74c75e067bc6ebcc2c437,
    0xbfc0a59367fffe804ae7ffbefe261497692406884f2b46fe86fd233e4d21a768f920501789de7bcda23f66afa770c03e,
    0x0a573c88a2ceeab863a62c19c19c678a7dc7ccbf70e75dc4cce0b81ef28ba3dc12f7251cd9d47dcfddb741db572e6769,
    0xcb2258d65df0996e00252db24bd223cf25d5992ce1ad653733c7a43e2811528ffd53ac76a61ef5a880f5a9b72c2e0159,
    0x8dd664c92c62282c56ccbeda8dcad1eeb9fe917d05c2db7cbd398f9ab4b6e269453c289b07f63f100de90fec564b28be,
    0xc056f9e7d674da1b23421af5ca27945a00b3e85fa1fcae0b63b7bc6413c8c15bf0a7c4965b094be36027863b4c36322f] ++
  hex 16 [0x448f663982b03a6edf39343e38d861ac]
def valsPower2 : Bytes :=
  hex 48 [0xed0f2f8615e7b724448494e544ec7702f8d1b8a8a9c21f4d23bee70c9ed96eac12dc6f05254d8c8a558c84ebf2a16ae9,
    0xc2cf76edd993a1f0641ef3dc6e878373b01f83075f3d7a40e1012971a3712809388f107979fc5416bea6627a532a046e,
    0x520771b3d3a4afbd49aaebf4b4a0159147aa33613a6759436bda1cb5b7a0994a164c145bcdf4cf103f0f4fab36cc4729,
    0xbf261a00be8c1a3ea01d0193574a23ae2472684e4a8c58e6e0c7bd6a461272e09973653b036d67dc9bee10e7855f7c3d,
    0xc7dc92765e11dd89ddf2ee8ed6725237a4fb441929d5a9958ebab346819028f4eb8329b81233c09a76c0ada35e024188,
    0x1456131a3007716e3be6a7be0076f457cc68861e9fa8789a4d73030fd01210aca94dbacdac90ec6a5764eedf45caa80c,
    0x2f01513d7cd7775698c1a179dd5e109fcdffc7e00f2c2af60392cbc4954adf494a276a505d504e0dab705f7e7e7da21a,
    0x33e153fc2699cb01c10c33e1d3005d54c497f1ec9bd5dcc63f973f23f3f3274d8f30df098db38ea3ad692b2efd62a3cc] ++
  hex 32 [0x394e5abdefa1ccab18bb94e682809d447bb8749c12b1bd084efff5d8aea69cd1]
def valsPower3 : Bytes :=
  hex 48 [0x112b21cd458f4fd55c847db431d5fd7683107282a27399e765ac1b74124a48d0694e0a7347bc6bc3299efc7d6b6c031e,
    0x33b5c907c9a6b7c572cb63dfbd9a25833008d1f06c1b891fc6a46d2ca781ea9db3203fd3f44d90267454ce22fe6084e8,
    0xc8fde7635b991109cd3f1df6dd68b86acf453f73a534065f7d1f62d2afbd85ecbbecb0c6e0d0fbfd2c19ba9c1e28fd3f,
    0xe4c93e7830999f58b1131defa71ecc38457f516ae78bd6402b5e6a5be2ec4e1807db543d4fd6c279865450ee3e2ad771,
    0x339df139e0bb920b160c84ad251e06ade4377b86a74a4ad7dba57f5017f9f102a0312c63d82acc2a16a7976da358b612,
    0x15f7df5c37968e03bc4e09c2b746843a0f5b7bde5b2850965802382c7938054e6456f313cf2987172082a3d34e611073,
    0x6db267dee38fce454e771e7807e67c90c364b224cde3234ef97c9475565f9b0e5c1cce619267e32c25de595f12bef577,
    0x64058315122febf9fc057b6b60e5850cc212a196e239ac7713afff21c489ea88a881ff8c69d54d63ef945924accbbbef] ++
  hex 32 [0xc6fccb2d0e0f2d0501bae82f895d5b840fd054aeed1170cd10db6b1ba7501eea]
def valsPower4 : Bytes :=
  hex 48 [0xa72d2eceae1368113858997078b897408ed174ec59df56187f0b1400b314253b53c90c779dde5af9ec7cdb490fb3139c,
    0xe012b0c399f7df93416dd277bd5d27e19fae4773e60f4aa413cd618c0273b2a44eafaa0d9329c67c7d0961e10cd929e9,
    0xbe24cb2c9c36c6701cdd11511f3abbffe6aa480fa479f47c73edfd6b2121493d096d6506abf610534bde8f54ec462ac1,
    0xec1f7dc92c2a9d8b386d5061d043bc6e2c355bb2ba09127f115fc8c5a709b4d95f895798beb3e512783462e9f99daa54,
    0xda8d5130e7064ea02de18753d9ea7cd459555893df730c8c5d98f0a74fb4b2a2e0e3d60cd70753ff65f46e9da8f794b2,
    0x200b5cb987bc499d6e7cab76215aefde58d4f48224fd43cb4352d7ccda00c1f2f55a67ee686902c922dbd79bcef7e852,
    0xaab71780df675ca09ead6c2c32a9a2879c24f182e8e8c4c0984f74a45b254cf08f62d0abee2ab8749cad28b197e3d328,
    0x5be6da3e13404cfa2fc601d631cc7b8f5e7e5929786bdd895aff1b575d8cf7b418c7fba429a6f348bcb7dea30a5ec0d9] ++
  hex 32 [0x74e19a823c7ee96319cd3af3817fdbabf6fbbd8334bddc1f808fbbc68adfc66d]
def tailPower : Bytes :=
  hex 48 [0x00000006481a34ef04ca698b828ef29575f633b275677051ec376c477c2fbc56a0369afa84b92688c1739203472b324e,
    0x70c84558bb17bd49321a3784c7f03f87caf7f7ccc813e8599c6840b3635d08dd2a026cb02072b37536939f9a0bb0dc37,
    0x48ee7937c07afbc0eaded855f334f9085ffd39bd02c5c997dbe2b3bb5e026f1b2550b79e2860615c50749137d18c2ce2,
    0x086b1ea5c15971cdcfc6a77ceccda8b1c2bf6e89ff609fb4f7cdc39167e734caa9c2fa6145d3091b2c1625562c83f33b,
    0x6fddca6f0125c9306de3609c7778dafbc834c8e43bf53fd51e2600af1cb5e35121ab0eb21787b2ac3d8e33da0b37b317,
    0x57c0812bf9d222b5d7f239a0d2b4b604dd595130436787e1c6c2a5848c9fa3c9dc1dc370977e6634ca3a8438b8ccf132] ++
  hex 36 [0xe4c7e6c9dc273c907ce846a761fb64f036c16bfb2b90792f79470a7f1cebdc5055d2d731]
def sigPower : Bytes :=
  headPower ++ (valsPower0 ++ (valsPower1 ++ (valsPower2 ++ (valsPower3 ++ (valsPower4 ++ tailPower)))))

/-- A signature by that key of a DEBUG_UNLOCK record: its head, the values of its chains and its tail. -/
def headUnlock : Bytes := hex 44 [0x000000000000000500000003bc733eeb6d4dfd0d739bc8d886ca51d21dae4488a2f7c6c8d4640c1cfca785f7]
def valsUnlock0 : Bytes :=
  hex 48 [0x050dbb4f510e7cd6dd50ceab8e623af0452e6f57d3aafad527a71a8789137c71d4da4e1cf13470726abc1ab1468f4654,
    0x3743aed5bb7ddcf31d1c785f51ca8ae91c9d3e04326775be78ecf23a0d416cca4ad10f18341a35dba403cd512a34f5b1,
    0xbe50129f814b6a1d89a8bd080fd47327dddccfd4ad4541debcb7388b02f857c311a3f5c2c77baddbea2e7a3cebf51dbb,
    0x9fafcd3060c444bbe59199274164ceeff2e8c5974728b970643327aeaf8b4210d9c080fe8af5a797ed9ba59f565ac808,
    0xc75edef027aa59f8b839b976905f408fec139ef388c988cc3cd001db3fbd506a6d2756d4ef339dafe16d2e9d91c84007,
    0x9cc535807bed0461e445368dabda79f99eaa6d617ee4f51b40fd0a4c212941ff64cfa6f8b92152baab974b33da48eb1c,
    0x1c1115b129d4bc19c1bf16cbe0ff81d80edd66019fe468628f650fd024ccfafcf92fefb44b6c4c05188d45570aa383c3,
    0x58b037e0e29f1e43b51ef2e11fa301378f831af7bc5bcb89f1b64bcda96ebf8f862ca7ead40cf1575118ba70e21fd115,
    0x80ea55d2abe4aff683f9e2ab461d285e748e01f9e9ed0403bd758226e094d58f262d612dbaeb9a4e2b68029c1c015339] ++
  hex 16 [0x3e273c8039ea4e198d4262a6065f62dd]
def valsUnlock1 : Bytes :=
  hex 48 [0x615c7b5278ecb738c80aa4f01cc60b8c683b945c141250e47e41dc7f602bb33db2fcee23e88eb41fe2aa828df255cabd,
    0xecf48cdd871a0bf86d354cc88369e5d4a95defc0391c6edac088884aa2844e9925e9939308fb84b2aab124ebc15e34a1,
    0x652361b0c185737eb0a35e57b41726082ae5f50956e987f69c4b6eeb898e6c5e5f2432deabb8ecc5a520d108e7dcc581,
    0xc1e94c924045d458363fb91d55178e4506eef29f2050b9b087aea86c4aece19f98208073ca8be37c7dcd3aa0b1ebdcb5,
    0xd864d9bb6fd8c2ba509cdafa329cd9b0f43ba7550afb7c8b42f7875d9ae23531970ab714392801274471790ecdfa308c,
    0x87455fb9ca24c9e658beeb81763855625a018120e3b3a3575013315cf6cc91090abca0a5be552d1a085d6c2740c9d103,
    0xbfee668bd07079cd71bea8960301a47e7204bf799db044634e573f05d27e059b0d017e62af70f09c3c1e77338493cb9b,
    0x3823e8880f3b3c9f200fd44a2575024fadd0c45ed90e95a53343d99984d43331e1961cf2c02095e534b03cae65e3fc47,
    0x65decf8928e6dc693d08efe105b30ca8f66133a7811aba34afa633b3924cca8ad86e2965920a3ddceda9281ffbaec23d] ++
  hex 16 [0x67b3052d8bcfd6e8a525d723618b0282]
def valsUnlock2 : Bytes :=
  hex 48 [0xb8de6fd8da997cfc545c41262c5bae03c9991e271f1c08db396bc69fdd2cd106f40b9b66a2b9a48f57ee0abb6d907968,
    0x90779e8c6d068a2624478650cee6491ceafee85bc1dc027d0eaec531dc41c151488126c5400e7cf16f5ec376a9d00cf5,
    0xeb6c9286bc0cae8cc63d93e61bf6444bda4e2672a33563e0ac401c7304955866917a52fb0387ba6c5114e5b9ef6b80b9,
    0xd2ab5920d67bd7d414775d972d9377a0086c72e5ed7fd177ecb291722f42ca96d02d1b806fc69bae6d2c3a25d1fea139,
    0x3095c41ac0dd942c1a9595f08de0d097ad827e31bb5c765177b83cf47b38b17f5c5e904807f6db8ca10c8cd3eca43305,
    0x3b762832fbd242daf26f5ea9e6573fd340516b8e513324bc8432180a50c9d9ce8e9e01b97cb4e4a20005d78bc2485fbe,
    0x4153acb73ab2840b00199719d49704b4e7436f34d2ddb8800247f2a2af4a10269910a5ae81f9d44895624755cb01ccfb,
    0x0bb36cae2f4b3a61f642ff34877a069350c564858d406b226be5f4bf6da4068bafff33ce9d33c7b9e70d44ba8623e367] ++
  hex 32 [0xef04e992413683216e9597d9481efda7e3a761c0f53596787eaa6e66ec212dc6]
def valsUnlock3 : Bytes :=
  hex 48 [0x6f90d45f66c34f4e46e11a2704ec765f538be7a8ba2b17c6add083393de31b249efc0da5ce0e3f782a261ac924db6983,
    0x13ed06b787ccaad742bb3fab789c78f4e6c8f3a0ffb41e06216a63c678851fda01484f82787c87f7fdc2bc1d1e5c794e,
    0x956b883c38e5b05f63ae467e68cb6ea8277087961ff0920c5c0b72191421eabc7894aae97dbd59b36f3b542292011f7a,
    0x169ec3255f5cef67b79dd99295eec11f085a1d00198714b68bb753910143f0f9b1852c2597f9fef892251d7189b5b404,
    0xcfb9e8ca6638ccb647006cd36fd4a1e4af4a0160c62aeb133a9247acaf0f0e91c9d75d73397e7bb21b757876779e1f75,
    0xb203aa29b095543ca0e0244948266369df82b354d8f7ff4644fa5bd571359d6a5b7f18ef17bae1fa600cd71731d47e92,
    0xf9a8fae4290c40b4d4cd559b42dd7e120045ddd7cca856fae5761eaec864b9ad72f7ada798fde45fa39c9ef94c784972,
    0x9d82c30a760aa43b0b98333a84705a22ad9598d1793893360a55b211e358023eaf877bf6a10a60c605a48f26602d1949] ++
  hex 32 [0xe556e757e5a131bc9741773c61fdde9b7b2a9a2842c709e5fcae48b4d08eaf30]
def valsUnlock4 : Bytes :=
  hex 48 [0x1669bc14ac75e966505bb39fb0a91a95c230b5a448288e16ddb2965eccfd2df63f4f0e873076213600f28e2410fd6da0,
    0xc68155444f8bf30686a59af694f621200a502b0916bc3c7dccd6d91a75c7169f466c6aa447a457aecb9a03430206ff40,
    0xa72d261e933a590fa7beac16bdd4d33d8c83006679dd0274ea3366b761d2ac74adea0bed5e837d55be59eba80b12de8b,
    0x4b64b8766bd7aa4bc54ed5de5e7a9d6e48239294c2f3552b1d84af29575bba761c45c2d6f8d5002de2ca85d17876bac3,
    0x1e2542811eba1f530b6c5f0ae07bcad9afe7a08bf0baf6cc7a0d94d80501cb92e2156c5bb2fa3d265f7e42c59decd7d8,
    0xe6323371f269cbcfe2e344420ad783164d944a538b383c695911df6374ae5bc2c86f33aa6f8fadee411ad782df54f7e2,
    0xd226229f7128e6a8b7e093243d69b0a8d8de3e5986e53a73a867964505608d9c836d2adab62d06ee7f51a2cebfff1cfb,
    0x0fe56845462ad18de8f1af8ed515138d2e3148ca55e29273e0b06cf9c119d2fa13b7b29676e00f9340f1ee6958b3d2b9] ++
  hex 32 [0xa699e76a218f129c249047b868111c525d85eaf58ff8f57c67acd3b24b416bd8]
def tailUnlock : Bytes :=
  hex 48 [0x00000006621d561b93e1af0721e292de233a18ce7bc71a21ea01f1af15e1d5447ca66b5284b92688c1739203472b324e,
    0x70c84558bb17bd49321a3784c7f03f87caf7f7ccc813e8599c6840b3635d08dd2a026cb02072b37536939f9a0bb0dc37,
    0x48ee7937c07afbc0eaded855f334f9085ffd39bd02c5c997dbe2b3bb5e026f1b2550b79e2860615c50749137d18c2ce2,
    0x086b1ea5c15971cdcfc6a77ceccda8b1c2bf6e89ff609fb4f7cdc39167e734caa9c2fa6145d3091b2c1625562c83f33b,
    0x6fddca6f0125c9306de3609c7778dafbc834c8e43bf53fd51e2600af1cb5e35121ab0eb21787b2ac3d8e33da0b37b317,
    0x57c0812bf9d222b5d7f239a0d2b4b604dd595130436787e1c6c2a5848c9fa3c9dc1dc370977e6634ca3a8438b8ccf132] ++
  hex 36 [0xe4c7e6c9dc273c907ce846a761fb64f036c16bfb2b90792f79470a7f1cebdc5055d2d731]
def sigUnlock : Bytes :=
  headUnlock ++ (valsUnlock0 ++ (valsUnlock1 ++ (valsUnlock2 ++ (valsUnlock3 ++ (valsUnlock4 ++ tailUnlock)))))

/-- The leaf digest of 4,096 zero bytes (R157). -/
def pageDigest : Bytes :=
  hex 32 [0x9e57a40c2f3a158b040ef193884c78d404b781debb46ff94b3fa56f1e5212cd0]

/-- The root of a region of that one leaf (R157). -/
def pageRoot : Bytes :=
  hex 32 [0x741ffa433ef6e753589366aff2a33f35f3dd678201a7836bc65e3ec2262841f3]


/-- A signature block of the owner with a key block and a signature (R164). -/
def ownerBlk (sig : Bytes) : Bytes :=
  [2, 0, 0, 0] ++ leBytes 4 (84 + sig.length) ++ leBytes 4 68 ++ zeros 4 ++ ownerKey ++ sig

/-- A manifest of lane 0 with one region of one 4 KiB leaf of zeros (R151, R153). -/
def manifestBytes : Bytes :=
  [0x47, 0x52, 0x4E, 0x31, 1, 0, 1, 1] ++ leBytes 4 2708 ++ leBytes 4 0x70 ++ leBytes 4 1 ++ [17, 0, 1, 0] ++ leBytes 8 5
    ++ leBytes 4 256 ++ zeros 28 ++ leBytes 4 0 ++ leBytes 4 1 ++ [1, 0, 0, 0] ++ leBytes 4 1 ++ pageRoot ++ ownerBlk sigManifest

/-- The region of that manifest, and the manifest read. -/
def region0 : Region := ⟨0, 1, 1, 1, pageRoot⟩
def manifest0 : HostManifest := ⟨1, 17, 0, 5, 256, [region0]⟩

/-- A policy of lane 0 that denies its first unit (R34, R84, R112, R410). -/
def policyBytes : Bytes :=
  [0x47, 0x4C, 0x50, 0x31, 1, 0, 0, 0] ++ leBytes 4 2868 ++ leBytes 4 0x110 ++ leBytes 4 1 ++ [17, 0, 1, 0] ++ zeros 8
    ++ ([9, 0, 1, 0, 50, 0, 0xF1, 0xF2, 0xF3, 1, 2, 3] ++ leBytes 4 256 ++ zeros 4 ++ leBytes 4 256 ++ zeros 40)
    ++ (leBytes 4 60 ++ [1, 0, 0, 0] ++ zeros 24) ++ zeros 128 ++ (leBytes 4 0 ++ leBytes 4 1 ++ [0, 1, 0, 0] ++ zeros 4)
    ++ ownerBlk sigPolicy

/-- The policy read. -/
def policy0 : LanePolicy :=
  { lane := 0, secVersion := 1, counter := 17
    cfg := { LaneCfg.default with jedec := [1, 2, 3], flash0 := 256 }
    verify := .default, remap := Vector.replicate 8 .unused, rules := [⟨0, 1, .deny, .log, 1, 0, false, false, 0⟩] }

/-- An OWNED part under that key. -/
def owned (s : State) : State :=
  { s with lc := .owned, nvm := { s.nvm with ownedWord := true, anchors := vmod s.nvm.anchors 0 fun _ => ⟨hH ownerKey, 0x7F, .active⟩ } }

/-- Lane 0 of `open0` verifying the one leaf of `manifest0`, then changed by f. -/
def verif (f : Lane → Lane) : State :=
  lane0 f (lane0 (fun l => { l with
    manifest := some manifest0, leaves := [[⟨.unverified, false⟩]], digests := [[some pageDigest]], level1 := [[pageRoot]]
    verify := ⟨60, 33, true, false, .a⟩ }) (open0 .readVerified))

/-- That leaf mirrored, and the lane with a command of its flash that begins 8D-8D-8D. -/
def mirrored0 : State :=
  { lane0 (fun l => { l with rules := [{ rule .mirrored .log with len := 1 }], leaves := [[⟨.good, true⟩]] }) (verif id) with
    mirror := [⟨0, ⟨0, 0⟩, 0, 0, 4096, zeros 4096⟩] }
def octal0 : State :=
  lane0 (fun l => { l with
    cfg := { l.cfg with modeMask := 0xFF }
    flash := vmod l.flash 0 fun x => { x with octalIn := [[0x72, 2]] } }) (open0 .openFlash)

/-- A leaf of zeros hashes to `pageDigest`. -/
theorem leaf_digest : leafDigest (zeros 4096) = pageDigest := by decide +kernel

/-- What hashes to `pageDigest` because it is that leaf. -/
theorem leaf_digest_of {b : Bytes} (h : b = zeros 4096) : leafDigest b = pageDigest := h ▸ leaf_digest

/-- A first capture of a whole leaf covers it. -/
theorem cover_new {m : List Host.Cell} {d : Bytes} (h : m = []) : (coverNew m 0 d).length = d.length := by
  subst h
  rw [coverNew_length d (by simp)]
  simp

/-- A tracker of the leaf. -/
def track (st : TrackState) : Tracker := { Tracker.free with st := st }

/-- A pending rule-set replacement by `policy0`. -/
def pending0 : PendingSet := ⟨policy0, policyBytes, none, none, none, false, true⟩

/-- Reservoir A with a complete lane entry of lane 0. -/
def served0 (s : State) : State :=
  { s with resA := { s.resA with
    present := true, dir := [⟨false, 0, .complete, 1, manifestBytes, [pageRoot], 0, 0, 0, 0, [], 0, []⟩] } }

/-- The leaf BAD in a region of action REDIRECT whose claim of Reservoir A is in effect. -/
def redirected0 : State :=
  (served0 (lane0 (fun l => { l with rules := [{ rule .readVerified .redirect with len := 1 }], leaves := [[⟨.bad, false⟩]] })
    (verif id))).modRes .a fun r => { r with claim := some ⟨0, true⟩ }

/-- A platform policy of one host, that of lane 0, with the steps given: SEQ_OUT 0 is that host's enable with good input 0,
SEQ_OUT 1 its reset, input 1 a start input and input 2 a presence input. -/
def plat (steps : List SeqStep) : PlatPolicy :=
  { secVersion := 1, counter := 17, follow := false, autoRetain := false, downGap := 1000, offTime := 500, deepAfter := 0
    hostCount := 1
    outs := ((Vector.replicate 64 ⟨1, false, 0, false, .log, none, none⟩).set 0
      ⟨1, false, 0, false, .host, some (.input 0), some 0⟩).set 1 ⟨1, false, 1, true, .log, none, some 0⟩
    ins := (((Vector.replicate 64 ⟨0, false, false, 0, false⟩).set 0 ⟨1, false, false, 0, false⟩).set 1
      ⟨3, false, false, 0, false⟩).set 2 ⟨2, false, false, 0, false⟩
    mons := Vector.replicate 32 ⟨0, false, 0, .log, false, 0, 0⟩
    hosts := (Vector.replicate 16 ⟨0, 0⟩).set 0 ⟨1, 1⟩
    steps := steps }

/-- That policy with one step of PLAT_SYNC, and its bytes in form (R222 to R227). -/
def plat0 : PlatPolicy := plat [⟨0, [⟨.platSync, 0, none, 60000⟩]⟩]
def platBytes : Bytes :=
  [0x47, 0x50, 0x50, 0x31, 1, 0, 1, 1] ++ leBytes 4 3476 ++ leBytes 4 0x370 ++ leBytes 4 1 ++ [17, 0, 1, 0] ++ leBytes 2 1000
    ++ leBytes 2 500 ++ zeros 4
    ++ leBytes 4 0x81 ++ leBytes 4 0xFF29 ++ (List.replicate 62 (leBytes 4 0xFFFF01)).flatten
    ++ leBytes 4 1 ++ leBytes 4 3 ++ leBytes 4 2 ++ zeros 244 ++ zeros 256 ++ [1, 1, 0, 0] ++ zeros 60
    ++ [0, 1, 0, 0, 0, 0, 0, 0] ++ [9, 0, 0xFF, 0] ++ leBytes 4 60000 ++ ownerBlk sigPolicy

/-- That policy with monitor channel 31 watched. -/
def watched : PlatPolicy := { plat0 with mons := plat0.mons.set 31 ⟨0, true, 1, .log, false, 5, 9⟩ }

/-- Firmware with that policy loaded, its program at the one operation given. -/
def prog (op : SeqOp) (waiting : Bool) : State :=
  run.modChuck fun c => { c with
    policy := some (plat [⟨0, [op]⟩]), main := .running ⟨0, 0, true, waiting, 0, []⟩, hardBy := [], vin := true, platDrive := false }

/-- A state whose link 0 is up in the fabric. -/
def link0 (s : State) : State := s.modLink 0 fun l => { l with st := .up, member := some .fabric }

/-- Headwater with the Alias certificates ready. -/
def water : State := { run.modKeys (fun k => { k with aliasReady := true, cdiAlias := some [] }) with mode := .headwater }

/-- A component manifest in form, of an image of 8 bytes with the digest d, with a vendor signature of zeros (R159, R164). -/
def compOf (t : Byte) (d : Bytes) : Bytes :=
  [0x47, 0x52, 0x4E, 0x31, 1, 0, 2, 1] ++ leBytes 4 7531 ++ leBytes 4 0x60 ++ leBytes 4 1 ++ [t - 1, t, 0, 0] ++ leBytes 8 7
    ++ leBytes 4 8 ++ zeros 28 ++ d ++ [1, 0, 1, 0] ++ leBytes 4 7435 ++ leBytes 4 2696 ++ zeros 4
    ++ [1, 0, 0, 0] ++ leBytes 4 2696 ++ zeros 2688 ++ zeros 4723

/-- That manifest with a digest that its image does not have, and with the digest of eight zeros (R161). -/
def compBytes (t : Byte) : Bytes := compOf t (zeros 32)
def compZeros (t : Byte) : Bytes := compOf t (hex 32 [0xafa8ac1533e519017208ca0c72fc56c7fa2d9fadf0801b43c6bd28b0232a42c7])

/-- Reservoir A with one complete set of one component. -/
def set0 : DirEntry := ⟨true, 0, .complete, 1, [], [], 0, 0, 0, 0, [], 0, [(compBytes 2, zeros 8)]⟩
def sets0 (s : State) : State := { s with resA := { s.resA with present := true, dir := [set0] } }

/-- A state with the update target given, window 0 of lane 0 remapping the one unit of `manifest0`. -/
def target (t : Target) (s : State) : State :=
  (lane0 (fun l => { l with remap := l.remap.set 0 ⟨0, 1, 0, 1⟩ }) s).modStolik fun k => { k with targets := [t] }

/-- A transfer of a manifest to a target, in the phase given. -/
def xfer (code : Byte) (ph : XferPhase) (man data : Bytes) : Target :=
  { Target.idle code with xfer := ph, manifests := [man], data := data, holder := some (.mb 0) }

/-- An activation of window 0 of lane 0 that waits for a step, and a state that holds it with its incoming manifest. -/
def act (now reseq : Bool) (k : Nat) : Activation := ⟨0, 0, now, reseq, false, k, 9, zeros 4096⟩
def activating (a : Activation) (s : State) : State :=
  let t :=
    (s.modStolik fun k => { k with activations := [a] }).modNvm fun v => { v with manifest1 := vmod v.manifest1 0 fun _ => some manifestBytes }
  lane0 (fun l => { l with remap := l.remap.set 0 ⟨0, 1, 0, 1⟩ }) t

/-- An entry of lane 0 that holds nothing yet, and a part that refreshes it in Reservoir A. -/
def entry0 : DirEntry := ⟨false, 0, .empty, 1, [], [], 0, 0, 0, 0, [], 0, []⟩
def due : State :=
  let s := (lane0 (fun l => { l with outcome := some .verified, manifest := some manifest0 }) run).modNvm fun v =>
    { v with manifest0 := vmod v.manifest0 0 fun _ => some manifestBytes }
  { s with resA := { s.resA with present := true, refreshing := some 0, dir := [entry0] } }

/-- A request of lane 0's host. -/
def askHp (payload : Bytes) : Req := ⟨.hp 0, 0, 1, payload⟩

/-- A state whose lane 0 serves its mailbox. -/
def host0 (s : State) : State :=
  lane0 (fun l => { l with cfg := { l.cfg with mailbox := true }, mb := { l.mb with paused := false } }) s

/-- An OWNED part with a landed image in window 0 of lane 0. -/
def landed0 : State :=
  let s := (owned (host0 (open0 .deny))).modNvm fun v => { v with manifest1 := vmod v.manifest1 0 fun _ => some manifestBytes }
  (s.modWin 0 0 fun x => { x with inactive := .landed }).modCommit fun c =>
    { c with lanes := vmod c.lanes 0 fun x => { x with pendingValid := true } }

/-- Copies A of the four components in form, under a vendor key that the fuses name. -/
def parts : State :=
  let s := run.modNvm fun v => { v with copyA := #v[⟨zeros 8, compBytes 1, true⟩, ⟨zeros 8, compBytes 2, false⟩, ⟨zeros 8, compBytes 3, false⟩, ⟨zeros 8, compBytes 4, false⟩] }
  let t := s.modCommit fun c => { c with comps := vmod c.comps 0 fun e => { e with stateA := .valid } }
  { t with fuses := { t.fuses with vendor := vmod t.fuses.vendor 0 fun _ => hH ([1, 0, 0, 0] ++ leBytes 4 2696 ++ zeros 2688) } }

/-- A part whose set entry in Reservoir A is being written. -/
def refreshing : State :=
  let s := parts.modCommit fun c => { c with comps := vmapI c.comps fun _ e => { e with stateA := .valid } }
  { s with resA := { s.resA with present := true, refreshing := some 0, dir := [{ set0 with state := .writing }] } }

/-- An admission policy of one slot on bus 0 with one entry and one root, and a part that controls that bus. -/
def allow0 (quota : Nat) : AllowCfg := ⟨7, quota, 1, zeros 32, hH [4]⟩
def adm0 : AdmPolicy := ⟨1, 17, false, 3600, 7200, 600, [sha384 [0xAA]], [⟨0, 0x10, 7, none, 0⟩], [allow0 0], [5]⟩
def cfg0 : SlotCfg := ⟨0, 0x10, 7, none, 0⟩
def slotted (f : Slot → Slot) : State :=
  { run.modBus 0 (fun b => { b with role := 0b10 }) with adm := some adm0, node := 3 }.modSlot 0 fun x => f { x with present := true }
def judging (st : AdmState) : State := slotted fun x => { x with phase := .judging, state := st, chainBytes := [0xAA] }
def cert0 : ChainCert := ⟨[0xAA], [], [], false, [1], true⟩

/-- A lease of node 4's slot 2, the state of its coordinator, and a request of node 4 about it. -/
def lease9 : Lease := ⟨9, zeros 32, 0, 4, 2, zeros 32, 0⟩
def coordinator : State := link0 ({ slotted id with node := 5 }.modNvm fun v => { v with leases := [lease9] })
def askPl (b : Bytes) : Req := ⟨.pl 0 4, 0, 1, zeros 32 ++ b⟩

/-- A request on management bus 1, which a host controls, and a slot on bus 0. -/
def askMb1 (b : Bytes) : Req := ⟨.mb 1, 0, 1, b⟩
def targeted (f : Slot → Slot) : State := (slotted f).modBus 1 fun b => { b with role := 0b01 }

/-- The SPDM responder of bus 0 at a stage of version 1.3, and the same with the Alias certificates ready. -/
def spdm (k : Nat) (s : State) : State := s.modBus 0 fun b => { b with spdm := { b.spdm with stage := k, version := 0x13 } }
def certs (s : State) : State := s.modKeys fun k => { k with aliasReady := true }

/-- A digest context, a job of class 3 of bus 0, and a state with an engine at work or a session. -/
def ctx0 : Ctx := ⟨2, [], 0, [], some 1, false⟩
def job0 (w : JobWork) (runs : Nat) : Job := ⟨1, 3, some (.mb 0), 7, 0x0501, w, runs, 0, false⟩
def riffle8 (j : Job) : State := run.modRiffle 8 fun x => { x with job := some j }
def mandrel0 (f : Mandrel → Mandrel) : State := run.modMandrel 0 f
def session0 : Session := ⟨5, .mb 0, ctx0, 0⟩
def sessioned : State := run.modConf fun c => { c with sessions := [session0] }

/-- A sealed digest state of bus 0 under a K_SEAL of zeros. -/
def sealedBody : Bytes := [0x47, 0x53, 0x43, 0x31, 1, 0, 2, 0] ++ zeros 8 ++ [32, 0, 0, 0] ++ zeros 428
def sealed_ : Bytes := sealedBody ++ sealTag (zeros 96) sealedBody

/-- The owner's keys of the Alias stage with a CDI of nothing. -/
def alias0 : KeyPair := ⟨[], ascii "VRND-ALIAS-EC", ascii "VRND-ALIAS-ML"⟩
def aliased : State := (certs run).modKeys fun k => { k with cdiAlias := some [] }

/-- A route to a node over link 0, and a state of the fabric with it. -/
def route (node : BitVec 12) (root : Bool) : Route := ⟨node, 99, 1, root, #v[some 1, none, none, none], #v[0, 0, 0, 0]⟩
def routed (root : Bool) : State := (link0 run).modFabric fun f => { f with routes := [route 9 root] }

/-- A link 0 in a state of its training. -/
def linked (st : LinkState) (f : Link → Link) : State := run.modLink 0 fun l => f { l with st := st }
def authKey0 : AuthKey := ⟨zeros 96, 7, zeros 32, false, 3, 9, true⟩

/-- A part whose Levee holds it. -/
def holding (low : Bool) : State := { run.modChuck (fun c => { c with rstLow := low }) with levee := { run.levee with holding := true } }

/-- A platform policy in force. -/
def planned : State := run.modChuck fun c => { c with policy := some plat0 }

/-- An authorisation record of an opcode with the challenge of 32 sevens under the signature blocks (R168), and a part that holds that
challenge open. -/
def record (op : Nat) (cmd : Bytes) (count : Byte) (blks : Bytes) : Bytes :=
  [0x47, 0x43, 0x41, 0x31, 1, 0, count, 0] ++ leBytes 4 (0x60 + blks.length) ++ leBytes 4 0x60 ++ leBytes 2 op ++ zeros 14
    ++ List.replicate 32 7 ++ hH (5 :: leBytes 2 op ++ cmd) ++ blks
def signed (op : Nat) (cmd sig : Bytes) : Req := ⟨.mb 0, 1, 1, record op cmd 1 (ownerBlk sig) ++ cmd⟩
def challenged (s : State) : State := s.modStolik fun k => { k with challenges := [⟨List.replicate 32 7, 1⟩] }

/-- The anchor of a TAKE_OWNERSHIP. -/
def ownership : Bytes := [1, 0, 0, 0] ++ hH ownerKey ++ [0x7F, 0, 0, 0] ++ zeros 4

/-- An UPDATE_BEGIN of window 0 of lane 0 with an image of the source given, and a part that takes it. -/
def begin_ (src : Byte) : Req := ask ([0x10, src, 0, 0] ++ zeros 4 ++ leBytes 4 4096 ++ leBytes 4 2708 ++ manifestBytes)
def accepting : State := lane0 (fun l => { l with remap := l.remap.set 0 ⟨0, 1, 0, 1⟩ }) landed0

/-- Lane 0 in a platform verification of the stored policy and manifest. -/
def starting : State :=
  lane0 (fun l => { l with pv := { PvState.none with active := true }, cfg := { LaneCfg.default with jedec := [1, 2, 3], flash0 := 256 } })
    ((owned run).modNvm fun v =>
      { v with manifest0 := vmod v.manifest0 0 fun _ => some manifestBytes, lanePolicy := vmod v.lanePolicy 0 fun _ => some policyBytes })

/-- The same without a stored manifest. -/
def startingBare : State := starting.modNvm fun v => { v with manifest0 := vmod v.manifest0 0 fun _ => none }

/-- A pending rule set ready for its swap. -/
def swapping (drained : Bool) : State :=
  owned (lane0 (fun l => { l with manifest := some manifest0, pending := some { pending0 with drained := drained } }) run)

/-- A link whose peer's point is the base point of P-384. -/
def base384 : Bytes := beBytes 48 (curveParams .p384).gx ++ beBytes 48 (curveParams .p384).gy
def authKeyB : AuthKey := { authKey0 with ephPub := base384 }
def authed : State := linked .auth fun l => { l with peer := some authKeyB }
def keys384 : Bytes × Bytes := (linkKeys authed (authed.link 0) authKeyB).getD ([], [])

/-- A vendor key block, and its block of an ECDSA signature value and of an ML-DSA one whose z is zero and which has no hint. -/
def vendorKey : Bytes := [1, 0, 0, 0] ++ leBytes 4 2696 ++ hex 48
  [0x0cc9cf17b8d4858da68a8f1f0ba2abc51cda69730a603e851c5e4cc35f5879036117e7bda9b6578e7f382ed210c5e38f,
  0x7ad9da22f3bee630910a211a47c95d9d6687ecdc8cb3fa33f8d6b3628620f1e86aee1452209b601a182b87161cf481e7] ++ zeros 2592
def vendorBlk (sig : Bytes) : Bytes := [1, 0, 1, 0] ++ leBytes 4 7435 ++ leBytes 4 2696 ++ zeros 4 ++ vendorKey ++ sig
    ++ zeros 64 ++ (List.replicate 896 [0, 0, 8, 0, 0x80]).flatten ++ zeros 83

/-- A DEBUG_UNLOCK under owner and vendor, and a RETURNED part that takes it. -/
def unlock : Req :=
  ⟨.mb 0, 1, 1, record 0x0905 [0, 0, 0, 0] 2 (ownerBlk sigUnlock ++ vendorBlk (hex 48
    [0xf277b18750e36e43484f1c1288281896cfd6f505424e6eba63bc77a90363fc0c95f55156ca5e3f6159beda816de5aeaf,
    0xf277b18750e36e43484f1c1288281896cfd6f505424e6eba63bc77a90363fc0c95f55156ca5e3f6159beda816de5aeaf])) ++ [0, 0, 0, 0]⟩
def returned : State :=
  let s := challenged (owned run)
  { s with lc := .returned, fuses := { s.fuses with vendor := vmod s.fuses.vendor 0 fun _ => hH vendorKey } }

/-- Commands under a record of the owner, and parts that take them. -/
def takeIt : Req := signed 0x0901 ownership sigOwnership
def giveUp : Req := signed 0x0904 [2, 0, 0, 0] sigLife
def powerUp : Req := signed 0x0801 [0, 0, 0, 0] sigPower
def unowned : State := challenged { run with lc := .unowned }
def ownedPart : State := challenged (owned run)
def poweredOff : State :=
  challenged ((owned (run.modChuck fun c => { c with hardBy := [] })).modNvm fun v => { v with platform := some platBytes })

/-- That leaf read back proves the one region of `manifest0`. -/
theorem read_back : readBackProves manifestBytes [zeros 4096] = true := by decide +kernel

/-! ### Hypotheses of the statements, met -/

theorem hyp_identityAndTimeCommands_0 :
    let r : Req := ask []
    let s : State := run
    let ch : Option Bytes := none
    Admitted cmdIdentity r s ch := by
  dsimp only
  exact admitted_of (by decide +kernel)

theorem hyp_identityAndTimeCommands_1 :
    let r : Req := ask []
    let s : State := run
    let ch : Option Bytes := none
    Admitted cmdStatus r s ch := by
  dsimp only
  exact admitted_of (by decide +kernel)

theorem hyp_identityAndTimeCommands_2 :
    let r : Req := ask [0x01, 0x02, 0, 0, 0, 0, 0, 0, 8, 0, 0, 0]
    let s : State := run
    let ch : Option Bytes := none
    Admitted cmdDiagRead r s ch := by
  dsimp only
  exact admitted_of (by decide +kernel)

theorem hyp_identityAndTimeCommands_3 :
    let r : Req := ask []
    let s : State := run
    let ch : Option Bytes := none
    Admitted cmdGetTime r s ch := by
  dsimp only
  exact admitted_of (by decide +kernel)

theorem hyp_identityAndTimeCommands_4 :
    let r : Req := ask [9, 0, 0, 0, 0, 0, 0, 0]
    let s : State := run
    let ch : Option Bytes := none
    Admitted cmdSetTime r s ch ∧
      setTimeRefused s (u64 (callOf r).cmd 0) = false := by
  dsimp only
  exact ⟨admitted_of (by decide +kernel), by decide +kernel⟩

theorem hyp_identityAndTimeCommands_5 :
    let r : Req := ask [9, 0, 0, 0, 0, 0, 0, 0]
    let s : State := { run with time := 10 }
    let ch : Option Bytes := none
    Admitted cmdSetTime r s ch ∧
      setTimeRefused s (u64 (callOf r).cmd 0) = true := by
  dsimp only
  exact ⟨admitted_of (by decide +kernel), by decide +kernel⟩

theorem hyp_challengesAndOperations_0 :
    let r : Req := ask []
    let s : State := run
    let ch : Option Bytes := none
    Admitted cmdChallenge r s ch := by
  dsimp only
  exact admitted_of (by decide +kernel)

theorem hyp_challengesAndOperations_2 :
    let r : Req := ask [5, 0, 0, 0]
    let s : State := run.modStolik fun k => { k with ops := [⟨5, true, .done, 7, 100, 0⟩] }
    let ch : Option Bytes := none
    Admitted cmdOpStatus r s ch := by
  dsimp only
  exact admitted_of (by decide +kernel)

theorem hyp_putStructureCollectsChunks_0 :
    let r : Req := ask [3, 0, 0, 0, 16, 0, 0, 0, 32, 0, 0, 0, 1]
    let c : Instr := .putStructurePlatformPolicy (ask [3, 0, 0, 0, 16, 0, 0, 0, 32, 0, 0, 0, 1])
    let s : State := run
    let ch : Option Bytes := none
    let cmd := (callOf r).cmd
    let u := begun cmdPutAny r ch s
    let i : Option Instr := match putKind cmd with
      | 1 => some (.putStructureHostManifest r)
      | 2 => some (.putStructureLanePolicy r)
      | 3 => some (.putStructurePlatformPolicy r)
      | 4 => some (.putStructureAdmissionPolicy r)
      | _ => none
    i = some c ∧
      putKnown cmd = true ∧
      Admitted cmdPutAny r s ch ∧
      u.continues r.port cmd = none := by
  dsimp only
  exact ⟨(by decide +kernel), (by decide +kernel), admitted_of (by decide +kernel), by decide +kernel⟩

theorem hyp_putStructureCollectsChunks_1 :
    let r : Req := ask [1, 0, 0, 0, 0, 0, 0, 0, 32, 0, 0, 0, 1]
    let c : Instr := .putStructureHostManifest (ask [1, 0, 0, 0, 0, 0, 0, 0, 32, 0, 0, 0, 1])
    let d : Bytes := []
    let s : State := run
    let ch : Option Bytes := none
    let cmd := (callOf r).cmd
    let u := begun cmdPutAny r ch s
    let i : Option Instr := match putKind cmd with
      | 1 => some (.putStructureHostManifest r)
      | 2 => some (.putStructureLanePolicy r)
      | 3 => some (.putStructurePlatformPolicy r)
      | 4 => some (.putStructureAdmissionPolicy r)
      | _ => none
    i = some c ∧
      putKnown cmd = true ∧
      Admitted cmdPutAny r s ch ∧
      u.continues r.port cmd = some d ∧
      putLast cmd = false := by
  dsimp only
  exact ⟨(by decide +kernel), (by decide +kernel), admitted_of (by decide +kernel), by decide +kernel⟩

theorem hyp_storedStructuresAreRead_0 :
    let r : Req := ask [3, 0, 0, 0, 0, 0, 0, 0]
    let s : State := run
    let ch : Option Bytes := none
    Admitted cmdGetStructure r s ch := by
  dsimp only
  exact admitted_of (by decide +kernel)

theorem hyp_storedStructuresAreRead_1 :
    let r : Req := ask [2, 0, 0, 0]
    let s : State := run
    let ch : Option Bytes := none
    Admitted cmdGetConfig r s ch := by
  dsimp only
  exact admitted_of (by decide +kernel)

theorem hyp_setConfigStoresRecord_0 :
    let i : Fin 4 := 1
    let r : Req := ask ([2, 0, 2, 0, 16, 0, 0, 0, 0, 0, 0, 2] ++ zeros 12)
    let s : State := run
    let ch : Option Bytes := none
    let cmd := (callOf r).cmd
    Admitted cmdSetConfig r s ch ∧
      recordIx cmd = some i ∧
      u16 cmd 2 ≠ schemaCur := by
  dsimp only
  exact ⟨admitted_of (by decide +kernel), by decide +kernel⟩

theorem hyp_setConfigStoresRecord_1 :
    let i : Fin 4 := 1
    let r : Req := ask ([2, 0, 1, 0, 16, 0, 0, 0, 0, 0, 0, 0] ++ zeros 12)
    let s : State := run
    let ch : Option Bytes := none
    let cmd := (callOf r).cmd
    let d := cmd.drop 8
    Admitted cmdSetConfig r s ch ∧
      recordIx cmd = some i ∧
      u16 cmd 2 = schemaCur ∧
      (4096 < d.length ∨ recordOk s i d = false) := by
  dsimp only
  exact ⟨admitted_of (by decide +kernel), by decide +kernel⟩

theorem hyp_setConfigStoresRecord_2 :
    let i : Fin 4 := 1
    let r : Req := ask ([2, 0, 1, 0, 16, 0, 0, 0, 0, 0, 0, 2] ++ zeros 12)
    let s : State := run
    let ch : Option Bytes := none
    let cmd := (callOf r).cmd
    let d := cmd.drop 8
    Admitted cmdSetConfig r s ch ∧
      recordIx cmd = some i ∧
      u16 cmd 2 = schemaCur ∧
      d.length ≤ 4096 ∧
      recordOk s i d = true := by
  dsimp only
  exact ⟨admitted_of (by decide +kernel), by decide +kernel⟩

theorem hyp_chipAndWarmResets_0 :
    let s : State := run.modLevee fun l => { l with holding := true }
    s.powered = true ∧
      s.resetHeld = true := by
  decide +kernel

theorem hyp_chipAndWarmResets_1 :
    let s : State := run
    s.powered = true ∧
      s.resetHeld = false ∧
      s.nvm.pendingTarget = none := by
  decide +kernel

theorem hyp_chipAndWarmResets_2 :
    let s : State := run
    s.powered = true ∧
      s.mode = .firmware := by
  decide +kernel

theorem hyp_chipAndWarmResets_3 :
    let s : State := run
    s.powered = true ∧
      s.chuck.rstLow = false := by
  decide +kernel

theorem hyp_chipAndWarmResets_4 :
    let s : State := run.modChuck fun c => { c with rstLow := true }
    s.powered = true ∧
      s.chuck.rstLow = true ∧
      s.mode ≠ .held := by
  decide +kernel

theorem hyp_chipAndWarmResets_5 :
    let s : State := { run.modChuck (fun c => { c with rstLow := true }) with mode := .held }
    s.powered = true ∧
      s.chuck.rstLow = true ∧
      s.heldByPin = true := by
  decide +kernel

theorem hyp_firmwareStartEvents_0 :
    let s : State := { run with mode := .rom }
    s.mode = .rom ∧
      s.planned = false := by
  decide +kernel

theorem hyp_firmwareStartEvents_1 :
    let s : State := { run with time := 2000000000 }
    s.mode = .firmware ∧
      s.nvm.commit.fwStarted = false ∧
      s.t1 + 2 * nsPerSec ≤ s.time ∧
      s.nvm.pendingTarget = none := by
  decide +kernel

theorem hyp_firmwareStartEvents_2 :
    let s : State := { run.modCommit (fun c => { c with fwStarted := true }) with mode := .paused }
    s.mode = .paused ∧
      s.nvm.commit.fwStarted = true := by
  decide +kernel

theorem hyp_firmwareStartEvents_3 :
    let s : State := run.modKeys fun k => { k with batchOpen := true, cdiDev := some [], cdiAlias := some [] }
    s.mode = .firmware ∧
      s.keys.batchOpen = true ∧
      s.keys.cdiDev.isSome = true ∧
      s.keys.cdiAlias.isSome = true := by
  decide +kernel

theorem hyp_firmwareStartEvents_4 :
    let s : State := { run with mode := .rom, romextRan := true }
    s.mode = .rom ∧
      s.warm = false ∧
      s.romextRan = true := by
  decide +kernel

theorem hyp_weirEventIsRecorded_0 :
    let e : WeirEv := ⟨10, .ce, 0x22, 0, 0⟩
    let s : State := run
    s.chuck.power = .run ∧
      s.mode ≠ .fault ∧
      entersSafe s e = false ∧
      (s.reactionsOf e).getLsbD 2 = false ∧
      (s.reactionsOf e).getLsbD 3 = false := by
  decide +kernel

theorem hyp_fatalBeforeFirmwareEntersSafeState_0 :
    let e : WeirEv := ⟨10, .fatal, 0x20, 0, 0⟩
    let s : State := { run with mode := .headwater }
    ((s.mode = .rom ∧ s.warm = false) ∨ s.mode = .headwater ∨ s.mode = .scrapped) ∧
      s.chuck.power = .run ∧
      e.cls = .fatal := by
  decide +kernel

theorem hyp_fatalBeforeFirmwareEntersSafeState_0b :
    let e : WeirEv := ⟨63, .fatal, 0x7F, 0, 0⟩
    let s : State := { run with mode := .rom }
    ((s.mode = .rom ∧ s.warm = false) ∨ s.mode = .headwater ∨ s.mode = .scrapped) ∧
      s.chuck.power = .run ∧
      e.cls = .fatal := by
  decide +kernel

theorem hyp_weirInjection_0 :
    let w : Dword := 0x800000A9
    let e : WeirEv := ⟨41, .ucc, 0x8000, 0xFFFF, 0⟩
    let s : State := run
    s.injector = true ∧
      bit w.toNat 9 = false ∧
      bit w.toNat 8 = false ∧
      injectEvent w.toNat = some e := by
  decide +kernel

theorem hyp_weirInjection_1 :
    let w : Dword := 0x200
    let s : State := run
    s.injector = true ∧
      bit w.toNat 9 = true := by
  decide +kernel

theorem hyp_weirRegisters_0 :
    let s : State := run
    s.headstockRuns = true := by
  decide +kernel

theorem hyp_weirRegisters_1 :
    let v : Dword := 0x100
    let s : State := run
    s.headstockRuns = true ∧
      bit v.toNat 8 = true := by
  decide +kernel

theorem hyp_weirRegisters_2 :
    let s : State := run
    s.headstockRuns = true := by
  decide +kernel

theorem hyp_weirRegisters_3 :
    let s : State := run
    s.headstockRuns = true ∧
      s.mode = .firmware ∧
      s.weirEntriesWait = false := by
  decide +kernel

theorem hyp_weirRegisters_5 :
    let s : State := run.modWeir fun x => { x with irq := true }
    s.mode = .firmware ∧
      s.powered = true ∧
      s.weir.irq = true := by
  decide +kernel

theorem hyp_lockedRegisters_0 :
    let s : State := run
    s.headstockRuns = true := by
  decide +kernel

theorem hyp_lockedRegisters_1 :
    let s : State := run
    s.headstockRuns = true := by
  decide +kernel

theorem hyp_lockedRegisters_2 :
    let s : State := run
    s.headstockRuns = true := by
  decide +kernel

theorem hyp_returnsToService_0 :
    let src : Fin 64 := 39
    let m : Fin 8 := 7
    let b : Fin 64 × Nat × Bool := (39, 0, false)
    let s : State := run.modWeir fun x => { x with blocks := [(39, 0, false)] }
    (s.weir.blocks.find? fun x => x.1 == src && x.2.1 == 0 && !x.2.2) = some b ∧
      src.val = 32 + m.val := by
  decide +kernel

theorem hyp_returnsToService_1 :
    let src : Fin 64 := 8
    let k : Fin 10 := 8
    let b : Fin 64 × Nat × Bool := (8, 0, false)
    let s : State := run.modWeir fun x => { x with blocks := [(8, 0, false)] }
    (s.weir.blocks.find? fun x => x.1 == src && x.2.1 == 0 && !x.2.2) = some b ∧
      src.val = k.val ∧
      8 ≤ k.val := by
  decide +kernel

theorem hyp_returnsToService_2 :
    let bus : Fin 16 := 15
    let s : State := run
    (s.buses[bus]).role ≠ 0b00 ∧
      (s.buses[bus]).i3c = false ∧
      s.powered = true := by
  decide +kernel

theorem hyp_leasesAndSlotCommands_0 :
    let id : Word := 9
    let s : State := slotted fun x => { x with state := .attested, claimOut := true }
    let i : Fin 1024 := 0
    let x := s.slot i
    x.state = .attested ∧
      x.claimOut = true ∧
      id ≠ 0 := by
  decide +kernel

theorem hyp_leasesAndSlotCommands_1 :
    let s : State := slotted fun x => { x with state := .attested, claimOut := true }
    let i : Fin 1024 := 0
    let x := s.slot i
    x.state = .attested ∧
      x.claimOut = true := by
  decide +kernel

theorem hyp_leasesAndSlotCommands_2 :
    let s : State := slotted fun x => { x with state := .attested, claimOut := true, claimTries := 3 }
    let i : Fin 1024 := 0
    let x := s.slot i
    s.mode = .firmware ∧
      x.state = .attested ∧
      x.claimAt ≤ s.time ∧
      x.claimOut = true ∧
      3 ≤ x.claimTries := by
  decide +kernel

theorem hyp_leasesAndSlotCommands_3 :
    let c : SlotCfg := cfg0
    let p : AdmPolicy := adm0
    let n : BitVec 12 := 5
    let s : State := slotted fun x => { x with state := .attested }
    let i : Fin 1024 := 0
    let x := s.slot i
    s.mode = .firmware ∧
      x.state = .attested ∧
      x.claimAt ≤ s.time ∧
      x.claimOut = false ∧
      s.slotCfg i = some c ∧
      s.adm = some p ∧
      s.coordinatorOf i = some n ∧
      n ≠ s.node := by
  decide +kernel

theorem hyp_leasesAndSlotCommands_4 :
    let l : HeldLease := ⟨9, 100, 0, 0⟩
    let n : BitVec 12 := 5
    let s : State := slotted fun x => { x with state := .admitted, lease := some ⟨9, 100, 0, 0⟩ }
    let i : Fin 1024 := 0
    let x := s.slot i
    x.lease = some l ∧
      s.coordinatorOf i = some n ∧
      n ≠ s.node ∧
      s.mode = .firmware ∧
      x.state = .admitted ∧
      s.time < l.endsAt ∧
      l.renewedAt + l.leaseTime * nsPerSec / 4 ≤ s.time := by
  decide +kernel

theorem hyp_leasesAndSlotCommands_5 :
    let l : HeldLease := ⟨9, 0, 600, 0⟩
    let n : BitVec 12 := 5
    let s : State := slotted fun x => { x with state := .admitted, lease := some ⟨9, 0, 600, 0⟩, probation := true }
    let i : Fin 1024 := 0
    let x := s.slot i
    x.lease = some l ∧
      l.endsAt ≤ s.time ∧
      x.state = .admitted ∧
      x.probation = true ∧
      s.coordinatorOf i = some n ∧
      n ≠ s.node := by
  decide +kernel

theorem hyp_leasesAndSlotCommands_7 :
    let q : Lease := lease9
    let r : Req := askPl ([0, 0, 4, 0, 2, 0, 0, 0] ++ zeros 32)
    let s : State := coordinator
    let ch : Option Bytes := none
    let cmd := (callOf r).cmd
    Admitted cmdQuotaClaim r s ch ∧
      s.coordinates (u16 cmd 0x20) = true ∧
      s.nvm.leases.find? (Claiming.same ⟨slice cmd 0 32, u16 cmd 0x20, holderAt cmd 0x22, u16 cmd 0x24, slice cmd 0x28 32⟩) = some q := by
  dsimp only
  exact ⟨admitted_of (by decide +kernel), by decide +kernel⟩

theorem hyp_leasesAndSlotCommands_8 :
    let r : Req := askPl ([7, 0, 4, 0, 2, 0, 0, 0] ++ zeros 32)
    let s : State := coordinator
    let ch : Option Bytes := none
    let cmd := (callOf r).cmd
    Admitted cmdQuotaClaim r s ch ∧
      s.coordinates (u16 cmd 0x20) = false := by
  dsimp only
  exact ⟨admitted_of (by decide +kernel), by decide +kernel⟩

theorem hyp_leasesAndSlotCommands_9 :
    let q : Lease := lease9
    let r : Req := ⟨.pl 0 4, 0, 1, [9, 0, 0, 0, 4, 0, 0, 0]⟩
    let s : State := coordinator
    let ch : Option Bytes := none
    let cmd := (callOf r).cmd
    Admitted cmdQuotaRenew r s ch ∧
      s.nvm.leases.find? (fun y => y.id == BitVec.ofNat 32 (u32 cmd 0) && y.holder == holderAt cmd 4) = some q ∧
      s.coordinates q.fgroup = true := by
  dsimp only
  exact ⟨admitted_of (by decide +kernel), by decide +kernel⟩

theorem hyp_leasesAndSlotCommands_10 :
    let r : Req := ⟨.pl 0 4, 0, 1, [9, 0, 0, 0, 4, 0, 0, 0]⟩
    let s : State := coordinator
    let ch : Option Bytes := none
    let cmd := (callOf r).cmd
    Admitted cmdQuotaRelease r s ch ∧
      (∀ y ∈ s.nvm.leases, y.id = BitVec.ofNat 32 (u32 cmd 0) → y.holder = holderAt cmd 4 → s.coordinates y.fgroup = true) := by
  dsimp only
  exact ⟨admitted_of (by decide +kernel), by decide +kernel⟩

theorem hyp_leasesAndSlotCommands_11 :
    let r : Req := askMb1 [0, 0, 0, 0]
    let s : State := targeted (fun x => { x with token := [1] })
    let i : Fin 1024 := 0
    let ch : Option Bytes := none
    let cmd := (callOf r).cmd
    Admitted (cmdSlotAny 0x0405) r s ch ∧
      slotOf s cmd = some i := by
  dsimp only
  exact ⟨admitted_of (by decide +kernel), by decide +kernel⟩

theorem hyp_leasesAndSlotCommands_12 :
    let r : Req := askMb1 [0, 0, 0, 0]
    let s : State := targeted fun x => { x with state := .quarantined }
    let i : Fin 1024 := 0
    let ch : Option Bytes := none
    let x := s.slot i
    let cmd := (callOf r).cmd
    Admitted (cmdSlotAny 0x0406) r s ch ∧
      slotOf s cmd = some i ∧
      x.state = .quarantined := by
  dsimp only
  exact ⟨admitted_of (by decide +kernel), by decide +kernel⟩

theorem hyp_leasesAndSlotCommands_13 :
    let r : Req := askMb1 [0, 0, 0, 0]
    let s : State := targeted id
    let i : Fin 1024 := 0
    let ch : Option Bytes := none
    let x := s.slot i
    let cmd := (callOf r).cmd
    Admitted (cmdSlotAny 0x0407) r s ch ∧
      slotOf s cmd = some i ∧
      x.present = true ∧
      x.phase = .idle := by
  dsimp only
  exact ⟨admitted_of (by decide +kernel), by decide +kernel⟩

theorem hyp_spdmResponds_0 :
    let r : SpdmReq := ⟨0, [0x10, 0x84, 0, 0]⟩
    let s : State := run
    s.spdmServes r.bus = true ∧
      r.msg.getD 1 0 = 0x84 ∧
      r.msg.headD 0 = 0x10 := by
  decide +kernel

theorem hyp_spdmResponds_1 :
    let r : SpdmReq := ⟨0, [0x13, 0xE1] ++ zeros 18⟩
    let v : Byte := 0x13
    let s : State := spdm 1 run
    spdmGate 0xE1 1 20 r s = .pass v := by
  decide +kernel

theorem hyp_spdmResponds_2 :
    let r : SpdmReq := ⟨0, [0x13, 0xE3, 0, 0, 32, 0, 1, 0, 0x80, 0, 0, 0, 2, 0, 0, 0] ++ zeros 16⟩
    let v : Byte := 0x13
    let s : State := spdm 2 run
    spdmGate 0xE3 2 32 r s = .pass v ∧
      bit (u32 r.msg 8) 7 = true ∧
      bit (u32 r.msg 12) 1 = true ∧
      r.msg.getD 6 0 = 1 := by
  decide +kernel

theorem hyp_spdmResponds_3 :
    let r : SpdmReq := ⟨0, [0x13, 0x81, 0, 0]⟩
    let v : Byte := 0x13
    let s : State := certs (spdm 3 run)
    spdmGate 0x81 3 4 r s = .pass v ∧
      s.certsReady = true := by
  decide +kernel

theorem hyp_spdmResponds_4 :
    let r : SpdmReq := ⟨0, [0x13, 0x81, 0, 0]⟩
    let v : Byte := 0x13
    let s : State := spdm 3 run
    spdmGate 0x81 3 4 r s = .pass v ∧
      s.certsReady = false := by
  decide +kernel

theorem hyp_spdmResponds_5 :
    let r : SpdmReq := ⟨0, [0x13, 0x82, 0, 0, 51, 0, 0, 4]⟩
    let v : Byte := 0x13
    let s : State := certs (spdm 3 run)
    spdmGate 0x82 3 8 r s = .pass v ∧
      s.certsReady = true ∧
      r.msg.getD 2 0 &&& 0x0F = 0 ∧
      u16 r.msg 4 < (spdmChain s).length := by
  decide +kernel

theorem hyp_spdmResponds_6 :
    let r : SpdmReq := ⟨0, [0x13, 0x83, 0, 0] ++ zeros 32⟩
    let v : Byte := 0x13
    let s : State := certs (spdm 3 run)
    spdmGate 0x83 3 36 r s = .pass v ∧
      s.certsReady = true ∧
      r.msg.getD 2 0 = 0 ∧
      r.msg.getD 3 0 = 0 := by
  decide +kernel

theorem hyp_spdmResponds_7 :
    let r : SpdmReq := ⟨0, [0x13, 0xE0, 0, 0xFF]⟩
    let v : Byte := 0x13
    let bs : List MeasBlock := [⟨1, [1, 1, 0, 0]⟩]
    let s : State := { certs (spdm 3 run) with snap := ⟨[⟨1, [1, 1, 0, 0]⟩]⟩ }
    bit (r.msg.getD 2 0).toNat 0 = false ∧
      spdmGate 0xE0 3 4 r s = .pass v ∧
      measWanted s.snap.blocks (r.msg.getD 3 0).toNat = some bs ∧
      s.certsReady = true := by
  decide +kernel

theorem hyp_engineCommandsSubmit_0 :
    let r : Req := ask [2, 0, 0, 0, 0, 0, 0, 0, 1, 0, 0, 0, 0, 0, 0, 0, 9]
    let s : State := run
    let ch : Option Bytes := none
    Admitted cmdDigest r s ch ∧
      noEngine s false = false := by
  dsimp only
  exact ⟨admitted_of (by decide +kernel), by decide +kernel⟩

theorem hyp_engineCommandsSubmit_1 :
    let r : Req := ask [2, 0, 0, 0, 0, 0, 0, 0, 255, 255, 255, 255, 255, 255, 255, 255]
    let s : State := run
    let ch : Option Bytes := none
    Admitted cmdDigestStart r s ch := by
  dsimp only
  exact admitted_of (by decide +kernel)

theorem hyp_engineCommandsSubmit_2 :
    let r : Req := ask [5, 0, 0, 0, 0, 0, 0, 0]
    let x : Session := session0
    let s : State := sessioned
    let ch : Option Bytes := none
    let cmd := (callOf r).cmd
    let id : Word := BitVec.ofNat 32 (u32 cmd 0)
    let up := cmdSession 0x0503 (fun c => max 8 c.cmd.length) .update
    Admitted up r s ch ∧
      s.session id = some x ∧
      noEngine s false = false := by
  dsimp only
  exact ⟨admitted_of (by decide +kernel), by decide +kernel⟩

theorem hyp_engineCommandsSubmit_4 :
    let r : Req := ask [5, 0, 0, 0, 0, 0, 0, 0]
    let x : Session := session0
    let s : State := sessioned
    let ch : Option Bytes := none
    let cmd := (callOf r).cmd
    let id : Word := BitVec.ofNat 32 (u32 cmd 0)
    let fin_ := cmdSession 0x0504 (fun c => max 8 c.cmd.length) .finish
    Admitted fin_ r s ch ∧
      s.session id = some x ∧
      noEngine s false = false := by
  dsimp only
  exact ⟨admitted_of (by decide +kernel), by decide +kernel⟩

theorem hyp_engineCommandsSubmit_5 :
    let r : Req := ask [5, 0, 0, 0, 0, 0, 0, 0]
    let x : Session := session0
    let s : State := sessioned
    let ch : Option Bytes := none
    let cmd := (callOf r).cmd
    let id : Word := BitVec.ofNat 32 (u32 cmd 0)
    let sus := cmdSession 0x0505 (fun _ => 8) fun id _ => .suspend id
    Admitted sus r s ch ∧
      s.session id = some x ∧
      noEngine s false = false := by
  dsimp only
  exact ⟨admitted_of (by decide +kernel), by decide +kernel⟩

theorem hyp_engineCommandsSubmit_3 :
    let r : Req := ask [6, 0, 0, 0, 0, 0, 0, 0, 1]
    let s : State := sessioned
    let ch : Option Bytes := none
    let cmd := (callOf r).cmd
    let id : Word := BitVec.ofNat 32 (u32 cmd 0)
    let up := cmdSession 0x0503 (fun c => max 8 c.cmd.length) .update
    Admitted up r s ch ∧
      s.session id = none := by
  dsimp only
  exact ⟨admitted_of (by decide +kernel), by decide +kernel⟩

theorem hyp_engineCommandsSubmit_6 :
    let r : Req := ask sealed_
    let kSeal : Bytes := zeros 96
    let s : State := run.modKeys fun k => { k with kSeal := some (zeros 96) }
    let ch : Option Bytes := none
    let cmd := (callOf r).cmd
    Admitted cmdDigestResume r s ch ∧
      s.keys.kSeal = some kSeal ∧
      sealTag kSeal (cmd.take 0x1C0) = cmd.drop 0x1C0 ∧
      (u8 cmd 0x10, u16 cmd 0x12) = sealPort r.port ∧
      noSession s = false := by
  dsimp only
  exact ⟨admitted_of (by decide +kernel), by decide +kernel⟩

theorem hyp_engineCommandsSubmit_7 :
    let cv : Curve := .p256
    let r : Req := ask ([1, 0, 32, 0] ++ zeros 172)
    let s : State := run
    let ch : Option Bytes := none
    let cmd := (callOf r).cmd
    Admitted cmdEcdsaVerify r s ch ∧
      curveOf (u8 cmd 0) = some cv ∧
      noEngine s true = false := by
  dsimp only
  exact ⟨admitted_of (by decide +kernel), by decide +kernel⟩

theorem hyp_engineCommandsSubmit_8 :
    let l : Nat := 256
    let r : Req := ask (zeros 516)
    let s : State := run
    let ch : Option Bytes := none
    let cmd := (callOf r).cmd
    Admitted cmdRsaVerify r s ch ∧
      rsaBytes (u8 cmd 0) = some l ∧
      noEngine s true = false := by
  dsimp only
  exact ⟨admitted_of (by decide +kernel), by decide +kernel⟩

theorem hyp_engineCommandsSubmit_9 :
    let z : Nat × Nat := (1952, 3309)
    let r : Req := ask (1 :: zeros 5328)
    let s : State := run
    let ch : Option Bytes := none
    let cmd := (callOf r).cmd
    Admitted cmdMldsaVerify r s ch ∧
      mldsaSizes (u8 cmd 0) = some z ∧
      noEngine s true = false := by
  dsimp only
  exact ⟨admitted_of (by decide +kernel), by decide +kernel⟩

theorem hyp_objectsAndFrames_0 :
    let w : Waiting := ⟨.mb 0, [1]⟩
    let s : State := run.modStolik fun k => { k with parked := [⟨.mb 0, [1]⟩] }
    let bus : Fin 16 := 0
    (s.stolik.parked.find? fun y => y.port == .mb bus) = some w ∧
      s.deviceLoad < 1024 := by
  decide +kernel

theorem hyp_objectsAndFrames_1 :
    let f : Bytes := []
    let ic : Bool := true
    let res : Res := .badFrame
    let o : Nat := noOffset
    let s : State := run
    let bus : Fin 16 := 0
    s.mode = .firmware ∧
      s.lanesPowered = true ∧
      portServed s (.mb bus) = true ∧
      frameFault f ic = some (res, o) := by
  decide +kernel

theorem hyp_objectsAndFrames_4 :
    let r : Req := ask [1, 0, 0, 0, 0, 0, 0, 0]
    let s : State := aliased
    let ch : Option Bytes := none
    let cmd := (callOf r).cmd
    Admitted cmdGetCertificates r s ch ∧
      u8 cmd 0 = 1 := by
  dsimp only
  exact ⟨admitted_of (by decide +kernel), by decide +kernel⟩

theorem hyp_objectsAndFrames_5 :
    let r : Req := ask [0, 0, 1, 0]
    let s : State := run
    let ch : Option Bytes := none
    let cmd := (callOf r).cmd
    Admitted cmdGetAdmission r s ch ∧
      1 ≤ u16 cmd 2 ∧
      u16 cmd 2 ≤ 512 := by
  dsimp only
  exact ⟨admitted_of (by decide +kernel), by decide +kernel⟩

theorem hyp_objectsAndFrames_6 :
    let r : Req := askMb1 [0, 0, 0, 0]
    let s : State := certs (targeted fun x => { x with token := [1] })
    let ch : Option Bytes := none
    let i : Fin 1024 := 0
    let cmd := (callOf r).cmd
    Admitted cmdGetToken r s ch ∧
      u16 cmd 0 = i.val ∧
      (s.slot i).token ≠ [] := by
  dsimp only
  exact ⟨admitted_of (by decide +kernel), by decide +kernel⟩

theorem hyp_objectsAndFrames_7 :
    let r : Req := ask (zeros 32 ++ [4, 0, 0, 0, 0, 0, 0, 0])
    let x : HeldObj := ⟨4, false, [1], 0, 0⟩
    let s : State := aliased.modStolik fun k => { k with held := [⟨4, false, [1], 0, 0⟩] }
    let ch : Option Bytes := none
    let cmd := (callOf r).cmd
    Admitted cmdGetEvidence r s ch ∧
      u32 cmd 0x20 ≠ 0 ∧
      s.heldObj false (u32 cmd 0x20) = some x := by
  dsimp only
  exact ⟨admitted_of (by decide +kernel), by decide +kernel⟩

theorem hyp_objectsAndFrames_8 :
    let r : Req := ask (zeros 40)
    let kp : KeyPair := alias0
    let s : State := aliased
    let ch : Option Bytes := none
    let cmd := (callOf r).cmd
    Admitted cmdGetEvidence r s ch ∧
      u32 cmd 0x20 = 0 ∧
      s.aliasPair = some kp := by
  dsimp only
  exact ⟨admitted_of (by decide +kernel), by decide +kernel⟩

theorem hyp_objectsAndFrames_9 :
    let r : Req := ask [0x10, 0, 0, 0]
    let s : State := run
    let ch : Option Bytes := none
    Admitted cmdUpdateStatus r s ch := by
  dsimp only
  exact admitted_of (by decide +kernel)

theorem hyp_objectsAndFrames_10 :
    let r : Req := ask []
    let s : State := run
    let ch : Option Bytes := none
    Admitted cmdStageStatus r s ch := by
  dsimp only
  exact admitted_of (by decide +kernel)

theorem hyp_objectsAndFrames_11 :
    let r : Req := askHp [0, 0, 0, 0]
    let s : State := host0 run
    let ch : Option Bytes := none
    let n : Fin 8 := 0
    let win : Fin 8 := 0
    let cmd := (callOf r).cmd
    Admitted cmdStageDigest r s ch ∧
      laneWindow cmd = some (n, win) := by
  dsimp only
  exact ⟨admitted_of (by decide +kernel), by decide +kernel⟩

theorem hyp_snapshotsAndLog_0 :
    let r : Req := ask (zeros 16)
    let s : State := run
    let ch : Option Bytes := none
    let cmd := (callOf r).cmd
    Admitted cmdSnapshotAny r s ch ∧
      snapScope cmd = 0 ∧
      atRefused s (snapAt cmd) = false ∧
      captureRoom s = true := by
  dsimp only
  exact ⟨admitted_of (by decide +kernel), by decide +kernel⟩

theorem hyp_snapshotsAndLog_1 :
    let r : Req := ask (1 :: zeros 15)
    let s : State := run.modFabric fun f => { f with synced := true }
    let ch : Option Bytes := none
    let cmd := (callOf r).cmd
    Admitted cmdSnapshotAny r s ch ∧
      snapScope cmd = 1 ∧
      atRefused s (snapAt cmd) = false ∧
      captureRoom s = true ∧
      s.sourceNow = 2 := by
  dsimp only
  exact ⟨admitted_of (by decide +kernel), by decide +kernel⟩

theorem hyp_snapshotsAndLog_2 :
    let c : Capture := ⟨1, 0, false, none, false, []⟩
    let s : State := run.modStolik fun k => { k with captures := [⟨1, 0, false, none, false, []⟩] }
    firstCapture s.stolik.captures = some c ∧
      c.at_ ≤ s.time ∧
      s.lanesPowered = true ∧
      s.stolik.shadows.length < 2 := by
  decide +kernel

theorem hyp_snapshotsAndLog_3 :
    let x : Shadow := ⟨⟨1, 0, false, none, false, []⟩, [1]⟩
    let xs : List Shadow := []
    let s : State := run.modStolik fun k => { k with shadows := [⟨⟨1, 0, false, none, false, []⟩, [1]⟩] }
    s.stolik.shadows = x :: xs ∧
      s.mode = .firmware := by
  decide +kernel

theorem hyp_snapshotsAndLog_4 :
    let r : Req := ask (4 :: zeros 11)
    let y : Snapshot := ⟨4, none, [1], false, 0, []⟩
    let s : State := run.modStolik fun k => { k with snapshots := [⟨4, none, [1], false, 0, []⟩] }
    let ch : Option Bytes := none
    let cmd := (callOf r).cmd
    Admitted cmdGetSnapshot r s ch ∧
      s.ownSnapshot (u32 cmd 0) = some y ∧
      u16 cmd 4 = s.node.toNat := by
  dsimp only
  exact ⟨admitted_of (by decide +kernel), by decide +kernel⟩

theorem hyp_snapshotsAndLog_5 :
    let r : Req := ask (zeros 8 ++ [255, 3] ++ zeros 6)
    let s : State := run
    let ch : Option Bytes := none
    let cmd := (callOf r).cmd
    Admitted cmdLogRead r s ch ∧
      1 ≤ u16 cmd 8 ∧
      u16 cmd 8 ≤ 1023 := by
  dsimp only
  exact ⟨admitted_of (by decide +kernel), by decide +kernel⟩

theorem hyp_snapshotsAndLog_6 :
    let r : Req := ask (zeros 0x38)
    let kp : KeyPair := alias0
    let s : State := aliased
    let ch : Option Bytes := none
    let cmd := (callOf r).cmd
    Admitted cmdLogExport r s ch ∧
      u32 cmd 0x2C = 0 ∧
      s.aliasPair = some kp := by
  dsimp only
  exact ⟨admitted_of (by decide +kernel), by decide +kernel⟩

theorem hyp_fabricSnapshots_0 :
    let src : BitVec 12 := 9
    let s : State := link0 run
    let k : Fin 4 := 0
    s.fabricRuns = true ∧
      s.fabricLink k = true ∧
      src ≠ s.node ∧
      captureRoom s = true := by
  decide +kernel

theorem hyp_fabricSnapshots_1 :
    let opId : Word := 4
    let node : BitVec 12 := 9
    let c : Capture := ⟨4, 0, true, none, false, []⟩
    let s : State := (link0 run).modStolik fun k => { k with captures := [⟨4, 0, true, none, false, []⟩] }
    s.fabricRuns = true ∧
      s.inFabric = true ∧
      c ∈ s.stolik.captures ∧
      c.fabric = true ∧
      c.initiator = none ∧
      c.opId = opId ∧
      c.acks.contains node = false ∧
      s.time ≤ c.at_ + nsPerSec := by
  decide +kernel

theorem hyp_fabricSnapshots_2 :
    let src : BitVec 12 := 9
    let j : Fin 4 := 0
    let s : State := routed false
    let node : BitVec 12 := 0
    let opId : Word := 0
    s.fabricRuns = true ∧
      s.inFabric = true ∧
      node = s.node ∧
      s.fabric.duplicate = false ∧
      s.routeTo src = some j ∧
      (s.stolik.snapshots.find? fun y => y.initiator == some src && y.opId == opId) = none := by
  decide +kernel

theorem hyp_fabricSnapshots_3 :
    let msgId : Word := 5
    let x : Req × Word × Nat := (ask [], 5, 0)
    let s : State := (link0 run).modStolik fun k => { k with fetches := [(ask [], 5, 0)] }
    s.fabricRuns = true ∧
      s.inFabric = true ∧
      (s.stolik.fetches.find? fun y => y.2.1 == msgId) = some x := by
  decide +kernel

theorem hyp_fabricSnapshots_5 :
    let s : State := link0 run
    s.fabricRuns = true ∧
      s.inFabric = true ∧
      LogRoom s := by
  dsimp only
  exact ⟨(by decide +kernel), (by decide +kernel), (by unfold LogRoom; decide +kernel)⟩

theorem hyp_platformCommands_1 :
    let r : Req := ask [1, 0, 0, 0]
    let s : State := planned
    let ch : Option Bytes := none
    let cmd := (callOf r).cmd
    Admitted cmdPowerAny r s ch ∧
      u8 cmd 0 = 1 := by
  dsimp only
  exact ⟨admitted_of (by decide +kernel), by decide +kernel⟩

theorem hyp_platformCommands_2 :
    let r : Req := ask [2, 0, 0, 0]
    let s : State := planned
    let ch : Option Bytes := none
    let cmd := (callOf r).cmd
    Admitted cmdPowerAny r s ch ∧
      u8 cmd 0 = 2 := by
  dsimp only
  exact ⟨admitted_of (by decide +kernel), by decide +kernel⟩

theorem hyp_platformCommands_3 :
    let h : Fin 16 := 0
    let r : Req := ask [0, 0, 0, 0]
    let s : State := planned
    let ch : Option Bytes := none
    let cmd := (callOf r).cmd
    Admitted cmdHostHold r s ch ∧
      s.namedHost cmd = some h := by
  dsimp only
  exact ⟨admitted_of (by decide +kernel), by decide +kernel⟩

theorem hyp_platformCommands_4 :
    let h : Fin 16 := 0
    let r : Req := ask [0, 7, 0, 0]
    let s : State := planned
    let ch : Option Bytes := none
    let cmd := (callOf r).cmd
    Admitted cmdHostRelease r s ch ∧
      s.namedHost cmd = some h := by
  dsimp only
  exact ⟨admitted_of (by decide +kernel), by decide +kernel⟩

theorem hyp_platformCommands_5 :
    let n : Fin 8 := 7
    let r : Req := ask [7, 1, 0, 0]
    let s : State := run
    let ch : Option Bytes := none
    let cmd := (callOf r).cmd
    Admitted cmdLaneDeny r s ch ∧
      u8 cmd 0 = n.val ∧
      u8 cmd 1 = 1 := by
  dsimp only
  exact ⟨admitted_of (by decide +kernel), by decide +kernel⟩

theorem hyp_platformCommands_6 :
    let n : Fin 8 := 7
    let r : Req := ask [7, 0, 0, 0]
    let s : State := run
    let ch : Option Bytes := none
    let cmd := (callOf r).cmd
    Admitted cmdLaneDeny r s ch ∧
      u8 cmd 0 = n.val ∧
      u8 cmd 1 = 0 := by
  dsimp only
  exact ⟨admitted_of (by decide +kernel), by decide +kernel⟩

theorem hyp_platformCommands_7 :
    let r : Req := ask [0, 0, 0, 0]
    let s : State := run
    let ch : Option Bytes := none
    let n : Fin 8 := 0
    let cmd := (callOf r).cmd
    Admitted cmdLaneReset r s ch ∧
      u8 cmd 0 = n.val := by
  dsimp only
  exact ⟨admitted_of (by decide +kernel), by decide +kernel⟩

theorem hyp_platformCommands_8 :
    let r : Req := ask [2, 0, 0, 0, 5, 0, 0, 0]
    let s : State := run
    let ch : Option Bytes := none
    let cmd := (callOf r).cmd
    Admitted cmdPowerState r s ch ∧
      u8 cmd 0 = 2 ∧
      (begun cmdPowerState r ch s).maySleep = true := by
  dsimp only
  exact ⟨admitted_of (by decide +kernel), by decide +kernel⟩

theorem hyp_platformCommands_9 :
    let r : Req := ask [3, 0, 0, 0, 0, 0, 0, 0]
    let s : State := run
    let ch : Option Bytes := none
    let cmd := (callOf r).cmd
    Admitted cmdPowerState r s ch ∧
      u8 cmd 0 = 3 ∧
      (begun cmdPowerState r ch s).maySleep = true := by
  dsimp only
  exact ⟨admitted_of (by decide +kernel), by decide +kernel⟩

theorem hyp_ownershipAndDebug_1 :
    let i : Fin 4 := 1
    let a : Anchor := ⟨zeros 32, 0x7F, .active⟩
    let r : Req := ask ([1, 1, 0, 0, 0x7F, 0, 0, 0] ++ zeros 32)
    let s : State := run
    let ch : Option Bytes := none
    let cmd := (callOf r).cmd
    Admitted cmdSetAnchor r s ch ∧
      u8 cmd 1 = 1 ∧
      newAnchor s cmd = some (i, a) := by
  dsimp only
  exact ⟨admitted_of (by decide +kernel), by decide +kernel⟩

theorem hyp_ownershipAndDebug_2 :
    let i : Fin 4 := 0
    let a : Anchor := ⟨zeros 32, 0x7F, .revoked⟩
    let r : Req := ask ([0, 2, 0, 0] ++ zeros 36)
    let s : State := run.modNvm fun v => { v with anchors := vmod v.anchors 0 fun _ => ⟨zeros 32, 0x7F, .active⟩ }
    let ch : Option Bytes := none
    let cmd := (callOf r).cmd
    Admitted cmdSetAnchor r s ch ∧
      u8 cmd 1 = 2 ∧
      newAnchor s cmd = some (i, a) := by
  dsimp only
  exact ⟨admitted_of (by decide +kernel), by decide +kernel⟩

theorem hyp_ownershipAndDebug_3 :
    let k : Fin 256 := 255
    let r : Req := ask [255, 0, 0, 0, 9, 0, 0, 0]
    let s : State := run
    let ch : Option Bytes := none
    let cmd := (callOf r).cmd
    Admitted cmdRaiseCounter r s ch ∧
      u8 cmd 0 = k.val ∧
      16 ≤ k.val := by
  dsimp only
  exact ⟨admitted_of (by decide +kernel), by decide +kernel⟩

theorem hyp_ownershipAndDebug_6 :
    let s : State := linked .auth id
    let lk : Fin 4 := 0
    (s.link lk).st = .auth := by
  decide +kernel

theorem hyp_ownershipAndDebug_7 :
    let ti : TapInstr := .coreHaltStep
    let s : State := run
    s.chuck.power = .run ∧
      tapAdmits s ti = false ∧
      NoChipReset 60 .ucc s := by
  dsimp only
  exact ⟨(by decide +kernel), (by decide +kernel), (by unfold NoChipReset; decide +kernel)⟩

theorem hyp_ownershipAndDebug_8 :
    let ti : TapInstr := .extest
    let s : State := run
    s.chuck.power = .run ∧
      tapAdmits s ti = true ∧
      ti ≠ .manufacturingTest ∧
      ti ≠ .coreHaltStep ∧
      ti ≠ .memoryAccess := by
  decide +kernel

theorem hyp_ownershipAndDebug_9 :
    let s : State := run
    s.chuck.power = .run ∧
      tapAdmits s .manufacturingTest = true := by
  decide +kernel

theorem hyp_ownershipAndDebug_10 :
    let s : State := { run.modKeys (fun k => { k with debugUnlocked := true }) with lc := .returned }
    s.chuck.power = .run ∧
      tapAdmits s .coreHaltStep = true := by
  decide +kernel

theorem hyp_routesAndRelay_0 :
    let m : AnnounceMsg := ⟨7, 1, 2, false, 99⟩
    let s : State := link0 run
    let k : Fin 4 := 0
    s.fabricRuns = true ∧
      s.fabricLink k = true ∧
      m.node ≠ s.node ∧
      (s.fabric.routes.find? fun r => r.node == m.node && r.serial == m.serial) = none := by
  decide +kernel

theorem hyp_routesAndRelay_1 :
    let s : State := link0 run
    s.fabricRuns = true ∧
      s.inFabric = true := by
  decide +kernel

theorem hyp_routesAndRelay_3 :
    let h : RoutedHdr := ⟨9, false, 2, 5, 0, 0, true, 1⟩
    let j : Fin 4 := 0
    let s : State := routed false
    let k : Fin 4 := 0
    let d : Bytes := []
    s.fabricRuns = true ∧
      s.fabricLink k = true ∧
      d.length ≤ fragBytes ∧
      h.flood = false ∧
      h.dst ≠ s.node ∧
      h.hopsLeft ≠ 0 ∧
      s.routeTo h.dst = some j := by
  decide +kernel

theorem hyp_routesAndRelay_4 :
    let h : RoutedHdr := ⟨0, false, 2, 5, 0, 0, false, 1⟩
    let s : State := link0 run
    let k : Fin 4 := 0
    let d : Bytes := []
    s.fabricRuns = true ∧
      s.fabricLink k = true ∧
      d.length ≤ fragBytes ∧
      h.flood = false ∧
      h.dst = s.node ∧
      h.frag = 0 ∧
      h.last = false ∧
      (s.fabric.reasm.find? fun x => x.src == h.src && x.msgId == h.msgId) = none ∧
      s.fabric.reasm.length < reasmRoom := by
  decide +kernel

theorem hyp_routesAndRelay_6 :
    let s : State := link0 run
    let k : Fin 4 := 0
    s.fabricRuns = true ∧
      s.fabricLink k = true ∧
      s.deviceLoad < 1024 := by
  decide +kernel

theorem hyp_routesAndRelay_7 :
    let src : BitVec 12 := 9
    let msgId : Word := 5
    let b : Bridged := ⟨0, 1, 0x20, 5, 0⟩
    let s : State :=
      ({ routed false with eidBase := 0x20, bridge := [9] }).modFabric fun f => { f with bridged := [⟨0, 1, 0x20, 5, 0⟩] }
    let k : Fin 4 := 0
    s.fabricRuns = true ∧
      s.fabricLink k = true ∧
      (s.fabric.bridged.find? fun x => x.msgId == msgId && s.bridgeNode x.eid == some src) = some b := by
  decide +kernel

theorem hyp_routesAndRelay_8 :
    let n : BitVec 12 := 9
    let eid : Byte := 0x20
    let s : State := { routed false with eidBase := 0x20, bridge := [9] }
    let bus : Fin 16 := 0
    s.mode = .firmware ∧
      s.lanesPowered = true ∧
      (s.buses[bus]).role = 0b01 ∧
      s.bridgeNode eid = some n := by
  decide +kernel

theorem hyp_fabricTime_0 :
    let root : BitVec 12 := 9
    let s : State := routed true
    let k : Fin 4 := 0
    s.fabricRuns = true ∧
      s.parent = some (root, k) := by
  decide +kernel

theorem hyp_fabricTime_1 :
    let m : TimeMsg := ⟨false, false, 0, 0, 0, 0, 0⟩
    let rn : Nat := 9
    let s : State := routed true
    let k : Fin 4 := 0
    s.fabricRuns = true ∧
      s.fabricLink k = true ∧
      m.response = false ∧
      s.timeRootNode = some rn := by
  decide +kernel

theorem hyp_fabricTime_2 :
    let m : TimeMsg := ⟨true, true, 9, 0, 0, 32000, 0⟩
    let root : BitVec 12 := 9
    let s : State := routed true
    let k : Fin 4 := 0
    let arr : Dword := 0
    let off := timeOffset m arr
    s.fabricRuns = true ∧
      s.fabricLink k = true ∧
      m.response = true ∧
      s.parent = some (root, k) ∧
      m.synced = true ∧
      m.root = root ∧
      m.syncId = s.fabric.syncId ∧
      off ≤ 16000 := by
  decide +kernel

theorem hyp_fabricTime_3 :
    let m : TimeMsg := ⟨true, true, 9, 0, 0, 32002, 0⟩
    let root : BitVec 12 := 9
    let s : State := routed true
    let k : Fin 4 := 0
    let arr : Dword := 0
    let off := timeOffset m arr
    s.fabricRuns = true ∧
      s.fabricLink k = true ∧
      m.response = true ∧
      s.parent = some (root, k) ∧
      m.synced = true ∧
      m.root = root ∧
      m.syncId = s.fabric.syncId ∧
      16000 < off := by
  decide +kernel

theorem hyp_deviceTimeNeverDecreases_1 :
    let k : Fin 4 := 0
    let m : TimeMsg := ⟨true, true, 9, 0, 2, 0, 0⟩
    let root : BitVec 12 := 9
    let arr : Dword := 0
    let s : State := routed true
    s.fabricRuns = true ∧
      s.fabricLink k = true ∧
      m.response = true ∧
      s.parent = some (root, k) ∧
      m.synced = true ∧
      m.root = root ∧
      m.syncId = s.fabric.syncId ∧
      timeOffset m arr < 0 := by
  decide +kernel

theorem hyp_stepRunsTheFrontCommand_1 :
    let s : State := run
    s.pending = [] := by
  decide +kernel

theorem hyp_deviceTimeResumes_0 :
    let s : State := { run with backup := { run.backup with marker := bootMarker } }
    s.backup.marker = bootMarker := by
  decide +kernel

theorem hyp_deviceTimeResumes_1 :
    let s : State := run
    s.mode = .firmware ∧
      s.powered = true ∧
      s.tick % 65536 = 0 := by
  decide +kernel

theorem hyp_deviceTimeResumes_2 :
    let s : State := { run with tick := 1 }
    s.mode = .firmware ∧
      s.powered = true ∧
      s.tick % 65536 ≠ 0 := by
  decide +kernel

theorem hyp_readServesOneUnit_0 :
    let len : Nat := 2
    let e : ReadEnv := env [7, 8]
    let s : State := open0 .openFlash
    let t : Txn := txn 0x03
    let addr : Word := 0
    let l := s.lane t.lane
    let h := hostAddr l t addr
    let u := mergeUnit l.cfg t.cs (h / 4096)
    Passed .read t s ∧
      0 < len ∧
      h % 4096 + len ≤ 4096 ∧
      h / 4096 < reachUnits l t ∧
      l.drives = true ∧
      s.chuck.power = .run ∧
      (l.chips[(s.flashOf t.lane u).1]).st = .host ∧
      l.trackersFree = true ∧
      e.disagreeUnit = none ∧
      e.tableErrUnit = none ∧
      e.frontEndUnit = none ∧
      e.mirrorUceByte = none ∧
      e.strobeFaultByte = none ∧
      s.unitSource t.lane u = .flash := by
  dsimp only
  exact ⟨passed_of (by decide +kernel), by decide +kernel⟩

theorem hyp_readServesOneUnit_1 :
    let len : Nat := 2
    let e : ReadEnv := env []
    let s : State := mirrored0
    let t : Txn := txn 0x03
    let addr : Word := 0
    let l := s.lane t.lane
    let h := hostAddr l t addr
    let u := mergeUnit l.cfg t.cs (h / 4096)
    Passed .read t s ∧
      0 < len ∧
      h % 4096 + len ≤ 4096 ∧
      h / 4096 < reachUnits l t ∧
      l.drives = true ∧
      s.chuck.power = .run ∧
      (l.chips[(s.flashOf t.lane u).1]).st = .host ∧
      l.trackersFree = true ∧
      e.disagreeUnit = none ∧
      e.tableErrUnit = none ∧
      e.frontEndUnit = none ∧
      e.mirrorUceByte = none ∧
      e.strobeFaultByte = none ∧
      s.unitSource t.lane u = .mirror := by
  dsimp only
  exact ⟨passed_of (by decide +kernel), by decide +kernel⟩

theorem hyp_readServesOneUnit_2 :
    let len : Nat := 2
    let e : ReadEnv := { env [] with reservoir := [7, 8] }
    let y : Sel := .a
    let s : State := redirected0
    let t : Txn := txn 0x03
    let addr : Word := 0
    let l := s.lane t.lane
    let h := hostAddr l t addr
    let u := mergeUnit l.cfg t.cs (h / 4096)
    Passed .read t s ∧
      0 < len ∧
      h % 4096 + len ≤ 4096 ∧
      h / 4096 < reachUnits l t ∧
      l.drives = true ∧
      s.chuck.power = .run ∧
      (l.chips[(s.flashOf t.lane u).1]).st = .host ∧
      l.trackersFree = true ∧
      e.disagreeUnit = none ∧
      e.tableErrUnit = none ∧
      e.frontEndUnit = none ∧
      e.mirrorUceByte = none ∧
      e.strobeFaultByte = none ∧
      s.unitSource t.lane u = .reservoir y := by
  dsimp only
  exact ⟨passed_of (by decide +kernel), by decide +kernel⟩

theorem hyp_readServesOneUnit_3 :
    let len : Nat := 2
    let e : ReadEnv := env []
    let s : State := open0 .deny
    let r : Nat := 0x01
    let t : Txn := txn 0x03
    let addr : Word := 0
    let l := s.lane t.lane
    let h := hostAddr l t addr
    let u := mergeUnit l.cfg t.cs (h / 4096)
    Passed .read t s ∧
      0 < len ∧
      h % 4096 + len ≤ 4096 ∧
      h / 4096 < reachUnits l t ∧
      l.drives = true ∧
      s.chuck.power = .run ∧
      (l.chips[(s.flashOf t.lane u).1]).st = .host ∧
      l.trackersFree = true ∧
      e.disagreeUnit = none ∧
      e.tableErrUnit = none ∧
      e.frontEndUnit = none ∧
      e.mirrorUceByte = none ∧
      e.strobeFaultByte = none ∧
      s.unitSource t.lane u = .poison r := by
  dsimp only
  exact ⟨passed_of (by decide +kernel), by decide +kernel⟩

theorem hyp_readServesOneUnit_4 :
    let len : Nat := 2
    let e : ReadEnv := env [7, 8]
    let s : State := verif fun l => { l with leaves := [[⟨.good, false⟩]] }
    let r : LeafRef := ⟨0, 0⟩
    let m : HostManifest := manifest0
    let t : Txn := txn 0x03
    let addr : Word := 0
    let l := s.lane t.lane
    let h := hostAddr l t addr
    let u := mergeUnit l.cfg t.cs (h / 4096)
    Passed .read t s ∧
      0 < len ∧
      h % 4096 + len ≤ 4096 ∧
      h / 4096 < reachUnits l t ∧
      l.drives = true ∧
      s.chuck.power = .run ∧
      (l.chips[(s.flashOf t.lane u).1]).st = .host ∧
      l.trackersFree = true ∧
      e.disagreeUnit = none ∧
      e.tableErrUnit = none ∧
      e.frontEndUnit = none ∧
      e.mirrorUceByte = none ∧
      e.strobeFaultByte = none ∧
      s.unitSource t.lane u = .flash ∧
      s.unitLeaf t.lane u = some r ∧
      l.manifest = some m ∧
      l.hashing = true := by
  dsimp only
  exact ⟨passed_of (by decide +kernel), by decide +kernel⟩

theorem hyp_readingHostCommands_0 :
    let t : Txn := txn 0x5A
    let s : State :=
      lane0 (fun l => { l with sfdp := true, flash := vmod l.flash 0 fun x => { x with sfdp := [0x53, 0x46, 0x44, 0x50] } }) (open0 .read)
    let l := s.lane t.lane
    Passed .sfdp t s ∧
      l.hasImage t.cs = true := by
  dsimp only
  exact ⟨passed_of (by decide +kernel), by decide +kernel⟩

theorem hyp_readingHostCommands_1 :
    let t : Txn := txn 0x5A
    let s : State := open0 .read
    let l := s.lane t.lane
    Passed .sfdp t s ∧
      l.hasImage t.cs = false := by
  dsimp only
  exact ⟨passed_of (by decide +kernel), by decide +kernel⟩

theorem hyp_readingHostCommands_2 :
    let t : Txn := txn 0x9F
    let s : State := open0 .read
    let l := s.lane t.lane
    Passed .ident t s ∧
      allZero l.cfg.jedec = false := by
  dsimp only
  exact ⟨passed_of (by decide +kernel), by decide +kernel⟩

theorem hyp_readingHostCommands_3 :
    let t : Txn := txn 0x9F
    let s : State := lane0 (fun l => { l with cfg := { l.cfg with jedec := [0, 0, 0] } }) (open0 .read)
    let l := s.lane t.lane
    Passed .ident t s ∧
      allZero l.cfg.jedec = true ∧
      0 < l.cfg.flash0 := by
  dsimp only
  exact ⟨passed_of (by decide +kernel), by decide +kernel⟩

theorem hyp_readingHostCommands_4 :
    let t : Txn := txn 0x05
    let s : State := open0 .read
    let l := s.lane t.lane
    let p := primaryFlash l.cfg t.cs
    Passed .status t s ∧
      (l.chips[p]).st ≠ .virund := by
  dsimp only
  exact ⟨passed_of (by decide +kernel), by decide +kernel⟩

theorem hyp_readingHostCommands_5 :
    let t : Txn := txn 0x05
    let s : State := chip0 (fun c => { c with st := .virund }) (open0 .read)
    let l := s.lane t.lane
    let p := primaryFlash l.cfg t.cs
    Passed .status t s ∧
      (l.chips[p]).st = .virund := by
  dsimp only
  exact ⟨passed_of (by decide +kernel), by decide +kernel⟩

theorem hyp_configuringHostCommands_0 :
    let t : Txn := txn 0x06
    let s : State := open0 .openFlash
    Passed .writeEnable t s ∧
      s.reachIn t.lane t.cs .hostBusy = [] := by
  dsimp only
  exact ⟨passed_of (by decide +kernel), by decide +kernel⟩

theorem hyp_configuringHostCommands_1 :
    let t : Txn := txn 0xB7
    let s : State := open0 .openFlash
    Passed .addrMode t s ∧
      allHost t s = true := by
  dsimp only
  exact ⟨passed_of (by decide +kernel), by decide +kernel⟩

theorem hyp_configuringHostCommands_2 :
    let t : Txn := txn 0x99
    let s : State := open0 .openFlash
    Passed .reset t s ∧
      allHost t s = true := by
  dsimp only
  exact ⟨passed_of (by decide +kernel), by decide +kernel⟩

theorem hyp_configuringHostCommands_4 :
    let t : Txn := txn 0x72
    let s : State := octal0
    let data : Bytes := [2]
    let q : List Bytes := [[0x72, 2]]
    let m : Proto := .d888
    let l := s.lane t.lane
    let cmd := t.op :: data
    Passed .config t s ∧
      allHost t s = true ∧
      configMatch l t.cs cmd = some (q, m) := by
  dsimp only
  exact ⟨passed_of (by decide +kernel), by decide +kernel⟩

theorem hyp_configuringHostCommands_5 :
    let t : Txn := txn 0x01
    let s : State := open0 .openFlash
    let data : Bytes := [2]
    let l := s.lane t.lane
    let cmd := t.op :: data
    Passed .config t s ∧
      allHost t s = true ∧
      configMatch l t.cs cmd = none := by
  dsimp only
  exact ⟨passed_of (by decide +kernel), by decide +kernel⟩

theorem hyp_programAndErase_0 :
    let t : Txn := txn 0x02
    let s : State := open0 .openFlash
    let addr : Word := 0x100
    let l := s.lane t.lane
    let h := hostAddr l t addr
    let u := mergeUnit l.cfg t.cs (h / 4096)
    let f := s.flashOf t.lane u
    let c := l.chips[f.1]
    h / 4096 < reachUnits l t ∧
      Passed .program t s ∧
      accessOf l.rules u = .openFlash ∧
      c.st = .host := by
  dsimp only
  exact ⟨(by decide +kernel), passed_of (by decide +kernel), by decide +kernel⟩

theorem hyp_programAndErase_1 :
    let t : Txn := txn 0x02
    let s : State := chip0 (fun c => { c with wel := true }) (open0 .stageWrite)
    let i : Nat := 0
    let w : RuleEntry := rule .stageWrite .log
    let addr : Word := 0
    let l := s.lane t.lane
    let h := hostAddr l t addr
    let u := mergeUnit l.cfg t.cs (h / 4096)
    let f := s.flashOf t.lane u
    let c := l.chips[f.1]
    h / 4096 < reachUnits l t ∧
      Passed .program t s ∧
      winner l.rules u = some (i, w) ∧
      w.access = .stageWrite ∧
      c.st ≠ .hostBusy ∧
      c.wel = true ∧
      s.lockedAway t.lane w.window = false ∧
      ((s.staged t.lane w.window (u - w.base)).isSome || s.stagingFree) = true := by
  dsimp only
  exact ⟨(by decide +kernel), passed_of (by decide +kernel), by decide +kernel⟩

theorem hyp_programAndErase_2 :
    let t : Txn := txn 0x02
    let s : State := lane0 (fun l => { l with rules := [] }) (open0 .deny)
    let addr : Word := 0
    let l := s.lane t.lane
    let h := hostAddr l t addr
    let u := mergeUnit l.cfg t.cs (h / 4096)
    h / 4096 < reachUnits l t ∧
      Passed .program t s ∧
      accessOf l.rules u ≠ .openFlash ∧
      accessOf l.rules u ≠ .stageWrite := by
  dsimp only
  exact ⟨(by decide +kernel), passed_of (by decide +kernel), by decide +kernel⟩

theorem hyp_programAndErase_3 :
    let t : Txn := txn 0x20
    let s : State := open0 .openFlash
    let addr : Word := 0x1000
    let size : Nat := 1
    let l := s.lane t.lane
    let h := hostAddr l t addr
    let u := mergeUnit l.cfg t.cs (h / 4096)
    let f := s.flashOf t.lane u
    let c := l.chips[f.1]
    let units := (eraseUnits l f size).map (s.unitOfFlash t.lane t.cs)
    h / 4096 < reachUnits l t ∧
      Passed .erase t s ∧
      (units.all fun v => v.any fun y => accessOf l.rules y == .openFlash) = true ∧
      c.st = .host := by
  dsimp only
  exact ⟨(by decide +kernel), passed_of (by decide +kernel), by decide +kernel⟩

theorem hyp_programAndErase_4 :
    let t : Txn := txn 0x20
    let s : State :=
      chip0 (fun c => { c with wel := true }) (lane0 (fun l => { l with rules := [{ rule .stageWrite .log with stageErase := true }] }) (open0 .deny))
    let addr : Word := 0x1000
    let size : Nat := 1
    let w : RuleEntry := { rule .stageWrite .log with stageErase := true }
    let l := s.lane t.lane
    let h := hostAddr l t addr
    let u := mergeUnit l.cfg t.cs (h / 4096)
    let f := s.flashOf t.lane u
    let c := l.chips[f.1]
    let units := (eraseUnits l f size).map (s.unitOfFlash t.lane t.cs)
    h / 4096 < reachUnits l t ∧
      Passed .erase t s ∧
      eraseVerdict l units = .captured w ∧
      c.st ≠ .hostBusy ∧
      c.wel = true ∧
      s.lockedAway t.lane w.window = false := by
  dsimp only
  exact ⟨(by decide +kernel), passed_of (by decide +kernel), by decide +kernel⟩

theorem hyp_programAndErase_5 :
    let t : Txn := txn 0x20
    let s : State := open0 .deny
    let addr : Word := 0x1000
    let size : Nat := 1
    let vs : List Nat := [1]
    let l := s.lane t.lane
    let h := hostAddr l t addr
    let u := mergeUnit l.cfg t.cs (h / 4096)
    let f := s.flashOf t.lane u
    let units := (eraseUnits l f size).map (s.unitOfFlash t.lane t.cs)
    h / 4096 < reachUnits l t ∧
      Passed .erase t s ∧
      eraseVerdict l units = .refused vs := by
  dsimp only
  exact ⟨(by decide +kernel), passed_of (by decide +kernel), by decide +kernel⟩

theorem hyp_suspendResumeAndRefused_0 :
    let t : Txn := txn 0x75
    let s : State := chip0 (fun c => { c with st := .hostBusy }) (open0 .openFlash)
    let l := s.lane t.lane
    let busy := s.reachIn t.lane t.cs .hostBusy
    Passed .suspend t s ∧
      busy ≠ [] ∧
      (busy.any fun f => (l.chips[f]).restorePending) = false := by
  dsimp only
  exact ⟨passed_of (by decide +kernel), by decide +kernel⟩

theorem hyp_suspendResumeAndRefused_1 :
    let t : Txn := txn 0x7A
    let s : State := chip0 (fun c => { c with suspended := true }) (open0 .openFlash)
    let l := s.lane t.lane
    let sent := s.sendList t
    let held := sent.filter fun f => (l.chips[f]).suspended
    Passed .resume t s ∧
      held ≠ [] ∧
      (sent.any fun f => (l.chips[f]).restorePending) = false := by
  dsimp only
  exact ⟨passed_of (by decide +kernel), by decide +kernel⟩

theorem hyp_suspendResumeAndRefused_2 :
    let t : Txn := txn 0xC7
    let s : State := open0 .openFlash
    Passed .eraseChip t s := by
  dsimp only
  exact passed_of (by decide +kernel)

theorem hyp_suspendResumeAndRefused_3 :
    let t : Txn := txn 0xB9
    let s : State := open0 .openFlash
    Passed .power t s := by
  dsimp only
  exact passed_of (by decide +kernel)

theorem hyp_suspendResumeAndRefused_4 :
    let t : Txn := txn 0x48
    let s : State := open0 .openFlash
    Passed .security t s := by
  dsimp only
  exact passed_of (by decide +kernel)

theorem hyp_suspendResumeAndRefused_5 :
    let t : Txn := txn 0xFE
    let s : State := open0 .openFlash
    gate .unknown t s = (.refuse 0x02, s) := by
  dsimp only
  exact gated_of (by decide +kernel)

theorem hyp_mailboxPortsAndFrames_0 :
    let t : Txn := txn 0xF1
    let s : State := open0 .read
    let data : Bytes := [1, 2, 3]
    let l := s.lane t.lane
    Passed .mbWrite t s ∧
      l.mb.paused = true ∧
      l.mb.discard = false ∧
      l.mb.inBuf.length + data.length ≤ 4096 := by
  dsimp only
  exact ⟨passed_of (by decide +kernel), by decide +kernel⟩

theorem hyp_mailboxPortsAndFrames_1 :
    let t : Txn := txn 0xF2
    let s : State := open0 .read
    Passed .mbRead t s := by
  dsimp only
  exact passed_of (by decide +kernel)

theorem hyp_mailboxPortsAndFrames_2 :
    let t : Txn := txn 0xF3
    let s : State := open0 .read
    Passed .mbStatus t s := by
  dsimp only
  exact passed_of (by decide +kernel)

theorem hyp_mailboxPortsAndFrames_3 :
    let f : Bytes := frameBytes 0x0101 0 1 []
    let s : State := lane0 (fun l => { l with mb := { l.mb with paused := false, inBuf := frameBytes 0x0101 0 1 [] } }) run
    let n : Fin 8 := 0
    let mb := (s.lane n).mb
    mb.paused = false ∧
      mb.discard = false ∧
      mb.inBuf = f ∧
      f.head? ≠ some 0 ∧
      16 ≤ f.length ∧
      f.length = 16 + u32 f 8 ∧
      mb.lost = false ∧
      headerBad f = false ∧
      crcOk f = true ∧
      s.portRoom (.hp n) = true := by
  decide +kernel

theorem hyp_mailboxPortsAndFrames_4 :
    let f : Bytes := (frameBytes 0x0101 0 1 [9, 9]).take 17
    let s : State :=
      lane0 (fun l => { l with mb := { l.mb with paused := false, inBuf := (frameBytes 0x0101 0 1 [9, 9]).take 17 } }) run
    let n : Fin 8 := 0
    let mb := (s.lane n).mb
    mb.paused = false ∧
      mb.discard = false ∧
      mb.inBuf = f ∧
      f.head? ≠ some 0 ∧
      16 ≤ f.length ∧
      f.length < 16 + u32 f 8 := by
  decide +kernel

theorem hyp_silentTransactions_0 :
    let t : Txn := { txn 0x03 with cs := 1 }
    let c : Instr := .read { txn 0x03 with cs := 1 } 0 0 (env [])
    let addr : Word := 0
    let len : Nat := 0
    let k : Nat := 0
    let data : Bytes := []
    let e : ReadEnv := env []
    let b0 : Byte := 0
    let b1 : Byte := 0
    let s : State := run
    (s.lanesPowered = false ∨ csAnswers (s.lane t.lane).cfg t.cs = false) ∧
      c ∈ [Instr.read t addr len e, .readSfdp t addr len, .readId t len, .readStatus t len b0 b1, .writeEnable t,
        .program t addr data, .erase t addr k, .eraseChip t, .writeConfig t data, .addressMode t, .reset t, .suspend t,
        .resume t, .power t len, .securityRegister t addr len, .unknown t len, .mbOpWrite t data, .mbOpRead t len,
        .mbOpStatus t len] := by
  decide +kernel

theorem hyp_chipOwnershipAndTakeover_0 :
    let s : State := lane0 (fun l => { l with wrdi := [0] }) run
    let n : Fin 8 := 0
    let l := s.lane n
    let sent := l.wrdi.filter fun k => (l.chips[k]).st != .virund
    s.spindlesRun = true ∧
      l.wrdi ≠ [] ∧
      sent ≠ [] := by
  decide +kernel

theorem hyp_chipOwnershipAndTakeover_1 :
    let s : State := chip0 (fun c => { c with st := .hostBusy }) run
    let n : Fin 8 := 0
    let f : Fin 2 := 0
    let l := s.lane n
    let c := l.chips[f]
    s.spindlesRun = true ∧
      c.st = .hostBusy := by
  decide +kernel

theorem hyp_chipOwnershipAndTakeover_2 :
    let s : State :=
      (lane0 (fun l => { l with remap := vmod l.remap 0 fun _ => ⟨0, 16, 0, 16⟩ }) (open0 .openFlash)).modWin 0 0 fun x => { x with phase := .landing }
    let n : Fin 8 := 0
    let f : Fin 2 := 0
    s.spindlesRun = true ∧
      s.mayEnter n f = true ∧
      s.writeWanted n f = true := by
  decide +kernel

theorem hyp_chipOwnershipAndTakeover_3 :
    let s : State := chip0 (fun c => { c with st := .virund }) run
    let n : Fin 8 := 0
    let f : Fin 2 := 0
    let l := s.lane n
    let c := l.chips[f]
    s.spindlesRun = true ∧
      c.st = .virund := by
  decide +kernel

theorem hyp_chipOwnershipAndTakeover_4 :
    let s : State := lane0 (fun l => { l with tableBad := true }) run
    let n : Fin 8 := 7
    s.spindleServes n = true := by
  decide +kernel

theorem hyp_chipOwnershipAndTakeover_5 :
    let k : Takeover := ⟨8, 0, false⟩
    let s : State := lane0 (fun l => { l with takeover := some ⟨8, 0, false⟩, riffle := none }) run
    let n : Fin 8 := 0
    s.spindlesRun = true ∧
      (s.lane n).takeover = some k ∧
      k.hashing = false ∧
      (s.riffle (n.castLE (by decide))).inService = true ∧
      recordNamesRiffle n s.weir = false ∧
      (∀ i, (s.riffle i).boundTo ≠ some n) := by
  decide +kernel

theorem hyp_chipOwnershipAndTakeover_6 :
    let k : Takeover := ⟨8, 0, true⟩
    let s : State := lane0 (fun l => { l with takeover := some ⟨8, 0, true⟩ }) run
    let n : Fin 8 := 0
    s.spindleServes n = true ∧
      (s.lane n).takeover = some k ∧
      k.hashing = true := by
  decide +kernel

theorem hyp_ruleSetSwaps_0 :
    let p : PendingSet := { pending0 with geometry := true }
    let s : State := { lane0 (fun l => { l with pending := some { pending0 with geometry := true } }) run with chuck := { Chuck.reset with policy := some (plat []), hosts := vmod Chuck.reset.hosts 0 fun h => { h with resetAsserted := false, hold := { h.hold with laneMask := 1 } } } }
    let n : Fin 8 := 0
    let l := s.lane n
    s.spindlesRun = true ∧
      l.pending = some p ∧
      p.manifest = none ∧
      s.swapReady n p = false := by
  decide +kernel

theorem hyp_leafHashCompares_0 :
    let k : Fin 64 := 0
    let m : HostManifest := manifest0
    let d : Bytes := pageDigest
    let s : State := verif fun l => l.modTracker 0 fun _ => track .hashing
    let n : Fin 8 := 0
    let l := s.lane n
    let t := l.trackers[k]
    let got := leafDigest (cellRead t.data 0 (leafSize m t.region))
    s.spindlesRun = true ∧
      l.nextHash = some k ∧
      l.manifest = some m ∧
      l.hashing = true ∧
      l.leafDigest? t.ref = some d ∧
      got = d := by
  dsimp only
  exact ⟨(by decide +kernel), (by decide +kernel), (by decide +kernel), (by decide +kernel), (by decide +kernel),
    leaf_digest_of (by decide +kernel)⟩

theorem hyp_leafHashCompares_1 :
    let k : Fin 64 := 0
    let m : HostManifest := manifest0
    let d : Bytes := pageRoot
    let s : State := verif fun l => { l.modTracker 0 fun _ => track .hashing with digests := [[some pageRoot]] }
    let n : Fin 8 := 0
    let l := s.lane n
    let t := l.trackers[k]
    let got := leafDigest (cellRead t.data 0 (leafSize m t.region))
    s.spindlesRun = true ∧
      l.nextHash = some k ∧
      l.manifest = some m ∧
      l.hashing = true ∧
      l.leafDigest? t.ref = some d ∧
      got ≠ d ∧
      t.res = none := by
  dsimp only
  exact ⟨(by decide +kernel), (by decide +kernel), (by decide +kernel), (by decide +kernel), (by decide +kernel),
    (by rw [leaf_digest_of (by decide +kernel)]; decide +kernel), by decide +kernel⟩

theorem hyp_leafHashCompares_2 :
    let k : Fin 64 := 0
    let m : HostManifest := manifest0
    let d : Bytes := pageRoot
    let y : Sel := .a
    let s : State :=
      verif fun l => { l.modTracker 0 fun _ => { track .hashing with res := some .a } with digests := [[some pageRoot]] }
    let n : Fin 8 := 0
    let l := s.lane n
    let t := l.trackers[k]
    let got := leafDigest (cellRead t.data 0 (leafSize m t.region))
    s.spindlesRun = true ∧
      l.nextHash = some k ∧
      l.manifest = some m ∧
      l.hashing = true ∧
      l.leafDigest? t.ref = some d ∧
      got ≠ d ∧
      t.res = some y ∧
      (s.res y).defects.length < 256 := by
  dsimp only
  exact ⟨(by decide +kernel), (by decide +kernel), (by decide +kernel), (by decide +kernel), (by decide +kernel),
    (by rw [leaf_digest_of (by decide +kernel)]; decide +kernel), by decide +kernel⟩

theorem hyp_leafHashCompares_3 :
    let k : Fin 64 := 0
    let m : HostManifest := manifest0
    let s : State := verif fun l => { l.modTracker 0 fun _ => track .hashing with digests := [[none]] }
    let n : Fin 8 := 0
    let l := s.lane n
    let t := l.trackers[k]
    s.spindlesRun = true ∧
      l.nextHash = some k ∧
      l.manifest = some m ∧
      l.hashing = true ∧
      l.leafDigest? t.ref = none := by
  decide +kernel

theorem hyp_pagesAndFills_0 :
    let m : HostManifest := manifest0
    let g : Region := region0
    let fileA : Bytes := pageDigest
    let s : State := served0 (verif fun l => { l with digests := [[none]], pageReqs := [(0, 0)] })
    let n : Fin 8 := 0
    let region : Fin 256 := 0
    let page : Nat := 0
    let l := s.lane n
    let count := min 16 (g.leafCount - 16 * page)
    let b := slice fileA (pageOffset m region.val page) (32 * count)
    s.spindlesRun = true ∧
      l.manifest = some m ∧
      m.regions[region.val]? = some g ∧
      16 * page < g.leafCount ∧
      l.pageReqs.contains (region.val, page) = true ∧
      s.fileReadable .a n = true ∧
      pageProves l region.val page count b = true ∧
      l.waitingFor region.val page = [] ∧
      (l.digests[region.val]?).map List.length = some g.leafCount ∧
      ((dropPage n region.val page s).freeSlot l.verify.pinPages).isSome = true := by
  decide +kernel

theorem hyp_pagesAndFills_1 :
    let k : Fin 64 := 0
    let s : State := { verif (fun l => l.modTracker 0 fun _ => track .capturing) with tick := 33 }
    let n : Fin 8 := 0
    let l := s.lane n
    let t := l.trackers[k]
    s.spindlesRun = true ∧
      t.st = .capturing ∧
      t.lastCapture + l.verify.partialTimeout ≤ s.tick := by
  decide +kernel

theorem hyp_pagesAndFills_2 :
    let k : Fin 64 := 0
    let m : HostManifest := manifest0
    let leafBytes : Bytes := zeros 4096
    let s : State := verif fun l => l.modTracker 0 fun _ => track .filling
    let n : Fin 8 := 0
    let l := s.lane n
    let t := l.trackers[k]
    s.spindleServes n = true ∧
      l.manifest = some m ∧
      t.st = .filling ∧
      leafBytes.length = leafSize m t.region ∧
      ((s.fillSource n t.region).isSome = true ∨ s.leafReadable n t.ref = true) ∧
      (coverNew t.data 0 leafBytes).length = leafBytes.length := by
  dsimp only
  exact ⟨(by decide +kernel), (by decide +kernel), (by decide +kernel), (by decide +kernel), (by decide +kernel),
    cover_new (by decide +kernel)⟩

theorem hyp_checksAndScrubs_0 :
    let r : LeafRef := ⟨0, 0⟩
    let d : Bytes := pageDigest
    let b : Bytes := zeros 4096
    let s : State := verif fun l => { l with flashChecks := [⟨0, 0⟩] }
    let rest : List LeafRef := []
    let n : Fin 8 := 0
    let l := s.lane n
    s.spindleServes n = true ∧
      l.flashChecks = r :: rest ∧
      l.leafDigest? r = some d ∧
      s.leafReadable n r = true ∧
      leafDigest b = d := by
  dsimp only
  exact ⟨(by decide +kernel), (by decide +kernel), (by decide +kernel), (by decide +kernel), leaf_digest_of rfl⟩

theorem hyp_checksAndScrubs_1 :
    let r : LeafRef := ⟨0, 0⟩
    let d : Bytes := pageRoot
    let b : Bytes := zeros 4096
    let s : State := verif fun l => { l with flashChecks := [⟨0, 0⟩], digests := [[some pageRoot]] }
    let rest : List LeafRef := []
    let n : Fin 8 := 0
    let l := s.lane n
    s.spindleServes n = true ∧
      l.flashChecks = r :: rest ∧
      l.leafDigest? r = some d ∧
      s.leafReadable n r = true ∧
      leafDigest b ≠ d := by
  dsimp only
  exact ⟨(by decide +kernel), (by decide +kernel), (by decide +kernel), (by decide +kernel),
    by rw [leaf_digest_of rfl]; decide +kernel⟩

theorem hyp_checksAndScrubs_2 :
    let c : Confirm := ⟨⟨0, 0⟩, 1, false, some [1], .log, true, true⟩
    let b : Bytes := [1]
    let b2 : Bytes := [1]
    let cs : List Confirm := []
    let s : State :=
      verif fun l => { l with confirms := [⟨⟨0, 0⟩, 1, false, some [1], .log, true, true⟩], leaves := [[⟨.bad, false⟩]] }
    let n : Fin 8 := 0
    let fault : Bool := false
    let l := s.lane n
    let verdict := classify (c.fault || fault) (c.firstRead.getD b) b2 (l.leafDigest? c.leaf)
    s.spindleServes n = true ∧
      l.confirms = c :: cs ∧
      s.leafReadable n c.leaf = true ∧
      (verdict.2 ≠ .bad ∨ (l.leafDigest? c.leaf).isSome = true) := by
  decide +kernel

theorem hyp_checksAndScrubs_3 :
    let m : HostManifest := manifest0
    let r : LeafRef := ⟨0, 0⟩
    let d : Bytes := pageDigest
    let b : Bytes := zeros 4096
    let q : Lane := (verif id).lane 0
    let s : State := verif id
    let n : Fin 8 := 0
    let l := s.lane n
    s.spindleServes n = true ∧
      l.manifest = some m ∧
      s.tick < l.scrubStart + l.scrubTicks ∧
      scrubPass s n (allLeaves m) ((allLeaves m).length + 1) l = (some r, q) ∧
      q.leafDigest? r = some d ∧
      leafDigest b = d := by
  dsimp only
  exact ⟨(by decide +kernel), (by decide +kernel), (by decide +kernel), (by decide +kernel), (by decide +kernel),
    leaf_digest_of rfl⟩

theorem hyp_checksAndScrubs_4 :
    let m : HostManifest := manifest0
    let i : Nat := 0
    let r : LeafRef := ⟨0, 0⟩
    let s : State := { verif id with tick := 117964800 }
    let n : Fin 8 := 0
    let l := s.lane n
    s.spindlesRun = true ∧
      l.manifest = some m ∧
      l.unscrubbed (allLeaves m) = some (i, r) ∧
      l.scrubStart + l.scrubTicks ≤ s.tick := by
  decide +kernel

theorem hyp_claimsFillsReleases_0 :
    let x : Sel := .a
    let cl : Claim := ⟨0, false⟩
    let s : State := run.modRes .a fun r => { r with claim := some ⟨0, false⟩ }
    s.spindlesRun = true ∧
      (s.res x).claim = some cl ∧
      cl.inEffect = false ∧
      s.resAt33 x cl.lane = false := by
  decide +kernel

theorem hyp_claimsFillsReleases_1 :
    let x : Sel := .a
    let cl : Claim := ⟨0, false⟩
    let s : State := run.modRes .a fun r => { r with claim := some ⟨0, false⟩ }
    s.spindlesRun = true ∧
      (s.res x).claim = some cl ∧
      cl.inEffect = false ∧
      (s.lane cl.lane).outcome ≠ some .verifiedReservoir := by
  decide +kernel

theorem hyp_claimsFillsReleases_2 :
    let x : Sel := .a
    let cl : Claim := ⟨0, true⟩
    let s : State := run.modRes .a fun r => { r with claim := some ⟨0, true⟩ }
    s.spindlesRun = true ∧
      (s.res x).claim = some cl ∧
      claimNeeded cl.lane s = false := by
  decide +kernel

theorem hyp_claimsFillsReleases_3 :
    let d : Bytes := pageDigest
    let b : Bytes := zeros 4096
    let s : State := verif fun l => { l with fills := [⟨0, 0⟩] }
    let n : Fin 8 := 0
    let region : Fin 256 := 0
    let leaf : Nat := 0
    let r : LeafRef := ⟨region.val, leaf⟩
    let l := s.lane n
    s.spindleServes n = true ∧
      s.nextFill n = some r ∧
      l.leafDigest? r = some d ∧
      l.leafBad r = false ∧
      s.leafReadable n r = true ∧
      leafDigest b = d := by
  dsimp only
  exact ⟨(by decide +kernel), (by decide +kernel), (by decide +kernel), (by decide +kernel), (by decide +kernel),
    leaf_digest_of rfl⟩

theorem hyp_claimsFillsReleases_4 :
    let y : Sel := .a
    let d : Bytes := pageDigest
    let b : Bytes := zeros 4096
    let s : State := served0 (verif fun l => { l with fills := [⟨0, 0⟩], leaves := [[⟨.bad, false⟩]] })
    let n : Fin 8 := 0
    let region : Fin 256 := 0
    let leaf : Nat := 0
    let r : LeafRef := ⟨region.val, leaf⟩
    let l := s.lane n
    s.spindleServes n = true ∧
      s.nextFill n = some r ∧
      l.leafDigest? r = some d ∧
      l.leafBad r = true ∧
      s.repairSource n r = some y ∧
      leafDigest b = d := by
  dsimp only
  exact ⟨(by decide +kernel), (by decide +kernel), (by decide +kernel), (by decide +kernel), (by decide +kernel),
    leaf_digest_of rfl⟩

theorem hyp_claimsFillsReleases_5 :
    let h : Fin 16 := 0
    let s : State := (verif fun l => { l with leaves := [[⟨.good, false⟩]] }).modHost 0 fun h => { h with hold := { h.hold with mismatch := true, power := true }, causes := [(0, ⟨0, 0⟩)] }
    s.spindlesRun = true ∧
      (s.host h).hold.mismatch = true ∧
      (s.host h).causes.all (fun c => (s.lane c.1).verify.autoRelease && s.leafServed c.1 c.2) = true ∧
      (s.host h).hold.power = true := by
  decide +kernel

theorem hyp_platformAcceptance_0 :
    let s : State := lane0 (fun l => { l with pv := { PvState.none with active := true } }) run
    let n : Fin 8 := 0
    let pv := (s.lane n).pv
    s.spindleServes n = true ∧
      pv.active = true ∧
      pv.accepted = false ∧
      pv.keepMirrored = false ∧
      s.acceptanceWaits n = false ∧
      s.lc ≠ .owned := by
  decide +kernel

theorem hyp_platformAcceptance_1 :
    let s : State := owned (lane0 (fun l => { l with pv := { PvState.none with active := true } }) run)
    let n : Fin 8 := 0
    let pv := (s.lane n).pv
    s.spindleServes n = true ∧
      pv.active = true ∧
      pv.accepted = false ∧
      pv.keepMirrored = false ∧
      s.acceptanceWaits n = false ∧
      s.lc = .owned ∧
      s.nvm.lanePolicy[n] = none := by
  decide +kernel

theorem hyp_platformVerification_0 :
    let g : Region := region0
    let m : HostManifest := manifest0
    let e : RegionEnv := ⟨zeros 4096, [], [], [], [], [], []⟩
    let s : State := verif fun l => { l with pv := { PvState.none with active := true, accepted := true } }
    let n : Fin 8 := 0
    let region : Fin 256 := 0
    let l := s.lane n
    s.spindleServes n = true ∧
      l.manifest = some m ∧
      m.regions[region.val]? = some g ∧
      l.pv.active = true ∧
      l.pv.accepted = true ∧
      l.pv.done.contains region.val = false ∧
      l.pv.keepMirrored = false ∧
      l.pv.unread = [] ∧
      e.faultLeaves = [] ∧
      (digestsOf g e.image).length = g.leafCount ∧
      treeRoot (digestsOf g e.image) = g.root ∧
      (∀ r ∈ regionLeaves region.val g, s.leafAbsent n r = false) ∧
      (∀ r ∈ regionLeaves region.val g, l.leafMirrored r = false) ∧
      (l.leaves[region.val]?).map List.length = some g.leafCount ∧
      region.val < l.level1.length := by
  decide +kernel

theorem hyp_platformVerification_1 :
    let m : HostManifest := manifest0
    let s : State := verif fun l => { l with pv := { PvState.none with active := true, accepted := true, done := [0] } }
    let n : Fin 8 := 0
    let l := s.lane n
    s.spindleServes n = true ∧
      l.manifest = some m ∧
      l.pv.active = true ∧
      l.pv.accepted = true ∧
      l.denyEngine = false ∧
      l.takeover = none ∧
      (List.range m.regions.length).all l.pv.done.contains = true ∧
      (l.fills.any fun r => s.fillable n r) = false := by
  decide +kernel

theorem hyp_platformVerification_2 :
    let s : State := { lane0 (fun l => { l with pv := { PvState.none with active := true } }) run with tick := 32768 }
    let n : Fin 8 := 0
    let l := s.lane n
    s.spindlesRun = true ∧
      l.pv.active = true ∧
      l.pv.startTick + verifyBound l ≤ s.tick := by
  decide +kernel

theorem hyp_leafRepairs_0 :
    let src : Bytes := zeros 4096
    let back : Bytes := zeros 4096
    let d : Bytes := pageDigest
    let x : Sel := .a
    let s : State :=
      served0 ((verif fun l => { l with leaves := [[⟨.bad, false⟩]] }) |> chip0 fun c => { c with st := .virund })
    let n : Fin 8 := 0
    let region : Fin 256 := 0
    let leaf : Nat := 0
    let back2 : Bytes := []
    let r : LeafRef := ⟨region.val, leaf⟩
    let l := s.lane n
    s.spindleServes n = true ∧
      l.leafBad r = true ∧
      ((s.leafChips n r).all fun f => (l.chips[f]).st == .virund) = true ∧
      s.repairSource n r = some x ∧
      l.leafDigest? r = some d ∧
      leafDigest src = d ∧
      l.outcome ≠ some .repairing ∧
      LogRoom s ∧
      (leafDigest back = d ∨ leafDigest back2 = d) := by
  dsimp only
  exact ⟨(by decide +kernel), (by decide +kernel), (by decide +kernel), (by decide +kernel), (by decide +kernel),
    leaf_digest_of rfl, (by decide +kernel), (by unfold LogRoom; decide +kernel), .inl (leaf_digest_of rfl)⟩

theorem hyp_leafRepairs_1 :
    let src : Bytes := zeros 4096
    let back : Bytes := []
    let d : Bytes := pageDigest
    let x : Sel := .a
    let s : State :=
      served0 ((verif fun l => { l with leaves := [[⟨.bad, false⟩]] }) |> chip0 fun c => { c with st := .virund })
    let n : Fin 8 := 0
    let region : Fin 256 := 0
    let leaf : Nat := 0
    let back2 : Bytes := []
    let r : LeafRef := ⟨region.val, leaf⟩
    let l := s.lane n
    s.spindleServes n = true ∧
      l.leafBad r = true ∧
      ((s.leafChips n r).all fun f => (l.chips[f]).st == .virund) = true ∧
      s.repairSource n r = some x ∧
      l.leafDigest? r = some d ∧
      leafDigest src = d ∧
      l.outcome ≠ some .repairing ∧
      LogRoom s ∧
      leafDigest back ≠ d ∧
      leafDigest back2 ≠ d := by
  dsimp only
  exact ⟨(by decide +kernel), (by decide +kernel), (by decide +kernel), (by decide +kernel), (by decide +kernel),
    leaf_digest_of rfl, (by decide +kernel), (by unfold LogRoom; decide +kernel), by decide +kernel⟩

theorem hyp_leafRepairs_2 :
    let src : Bytes := zeros 4096
    let d : Bytes := pageDigest
    let x : Sel := .a
    let s : State :=
      served0 ((verif fun l => { l with leaves := [[⟨.bad, false⟩]] }) |> chip0 fun c => { c with st := .virund })
    let n : Fin 8 := 0
    let region : Fin 256 := 0
    let leaf : Nat := 0
    let r : LeafRef := ⟨region.val, leaf⟩
    let l := s.lane n
    s.spindleServes n = true ∧
      l.leafBad r = true ∧
      ((s.leafChips n r).all fun f => (l.chips[f]).st == .virund) = true ∧
      s.repairSource n r = some x ∧
      l.leafDigest? r = some d ∧
      leafDigest src = d ∧
      l.outcome ≠ some .repairing ∧
      LogRoom s := by
  dsimp only
  exact ⟨(by decide +kernel), (by decide +kernel), (by decide +kernel), (by decide +kernel), (by decide +kernel),
    leaf_digest_of rfl, (by decide +kernel), (by unfold LogRoom; decide +kernel)⟩

theorem hyp_programOperations_0 :
    let c : SeqCtx := .main
    let pos : SeqPos := ⟨0, 0, false, false, 0, []⟩
    let st : SeqStep := ⟨1, []⟩
    let s : State :=
      run.modChuck fun c => { c with policy := some (plat [⟨1, []⟩]), main := .running ⟨0, 0, false, false, 0, []⟩ }
    s.stepAt c = some (pos, st) ∧
      s.lanesCompleted st.laneMask = false := by
  decide +kernel

theorem hyp_programOperations_1 :
    let c : SeqCtx := .main
    let pos : SeqPos := ⟨0, 0, false, false, 0, []⟩
    let st : SeqStep := ⟨0, [⟨.assert, 0, none, 0⟩]⟩
    let s : State :=
      run.modChuck fun c => { c with policy := some (plat [⟨0, [⟨.assert, 0, none, 0⟩]⟩]), main := .running ⟨0, 0, false, false, 0, []⟩ }
    s.stepAt c = some (pos, st) ∧
      s.lanesCompleted st.laneMask = true := by
  decide +kernel

theorem hyp_programOperations_2 :
    let c : SeqCtx := .main
    let pos : SeqPos := ⟨0, 0, true, false, 0, []⟩
    let o : SeqOp := ⟨.assert, 63, none, 0⟩
    let k : Fin 64 := 63
    let s : State := prog ⟨.assert, 63, none, 0⟩ false
    s.opIs c .assert false = some (pos, o) ∧
      o.pin = k.val := by
  decide +kernel

theorem hyp_programOperations_3 :
    let c : SeqCtx := .main
    let pos : SeqPos := ⟨0, 0, true, false, 0, []⟩
    let o : SeqOp := ⟨.deassert, 63, none, 0⟩
    let k : Fin 64 := 63
    let s : State := prog ⟨.deassert, 63, none, 0⟩ false
    s.opIs c .deassert false = some (pos, o) ∧
      o.pin = k.val := by
  decide +kernel

theorem hyp_programOperations_4 :
    let c : SeqCtx := .main
    let pos : SeqPos := ⟨0, 0, true, false, 0, []⟩
    let o : SeqOp := ⟨.pulse, 63, none, 0⟩
    let k : Fin 64 := 63
    let s : State := prog ⟨.pulse, 63, none, 0⟩ false
    s.opIs c .pulse false = some (pos, o) ∧
      o.pin = k.val := by
  decide +kernel

theorem hyp_programOperations_5 :
    let k : Fin 64 := 63
    let s : State := run.modChuck fun c => { c with pulsing := [63] }
    k ∈ s.chuck.pulsing := by
  decide +kernel

theorem hyp_programOperations_6 :
    let c : SeqCtx := .main
    let pos : SeqPos := ⟨0, 0, true, false, 0, []⟩
    let o : SeqOp := ⟨.delay, 0, none, 10⟩
    let s : State := prog ⟨.delay, 0, none, 10⟩ false
    Stands c .delay false pos o s := by
  dsimp only
  exact stands_of (by decide +kernel)

theorem hyp_programOperations_7 :
    let c : SeqCtx := .main
    let pos : SeqPos := ⟨0, 0, true, true, 0, []⟩
    let o : SeqOp := ⟨.delay, 0, none, 10⟩
    let s : State := prog ⟨.delay, 0, none, 10⟩ true
    s.opIs c .delay true = some (pos, o) := by
  decide +kernel

theorem hyp_programOperations_9 :
    let c : SeqCtx := .main
    let pos : SeqPos := ⟨0, 0, true, false, 0, []⟩
    let o : SeqOp := ⟨.releaseHost, 0, some 0, 0⟩
    let h : Fin 16 := 0
    let p : PlatPolicy := plat [⟨0, [⟨.releaseHost, 0, some 0, 0⟩]⟩]
    let s : State := prog ⟨.releaseHost, 0, some 0, 0⟩ false
    let good : List (PgSrc × PgSight) := []
    s.opIs c .releaseHost false = some (pos, o) ∧
      o.host = some h ∧
      s.chuck.policy = some p ∧
      s.lanesCompleted (s.host h).hold.laneMask = true ∧
      (notePgs good s).hostPgGood p h = true ∧
      (s.host h).repairs = [] := by
  decide +kernel

theorem hyp_programOperations_8 :
    let c : SeqCtx := .main
    let k : Fin 64 := 2
    let pos : SeqPos := ⟨0, 0, true, false, 0, []⟩
    let o : SeqOp := ⟨.ifPresent, 2, none, 1⟩
    let s : State := prog ⟨.ifPresent, 2, none, 1⟩ false
    s.opIs c .ifPresent false = some (pos, o) ∧
      o.pin = k.val ∧
      o.value ≤ 1000 := by
  decide +kernel

theorem hyp_programWaits_0 :
    let c : SeqCtx := .main
    let pos : SeqPos := ⟨0, 0, true, false, 0, []⟩
    let o : SeqOp := ⟨.waitPg, 0, none, 1000⟩
    let k : Fin 64 := 0
    let s : State := prog ⟨.waitPg, 0, none, 1000⟩ false
    Stands c .waitPg false pos o s ∧
      o.pin = k.val := by
  dsimp only
  exact ⟨stands_of (by decide +kernel), by decide +kernel⟩

theorem hyp_programWaits_1 :
    let c : SeqCtx := .main
    let pos : SeqPos := ⟨0, 0, true, true, 0, []⟩
    let o : SeqOp := ⟨.waitPg, 0, none, 1000⟩
    let k : Fin 64 := 0
    let seen : PgSight := .ticks 1
    let s : State := prog ⟨.waitPg, 0, none, 1000⟩ true
    s.opIs c .waitPg true = some (pos, o) ∧
      o.pin = k.val ∧
      s.pgMet k seen = true := by
  decide +kernel

theorem hyp_programWaits_2 :
    let c : SeqCtx := .main
    let pos : SeqPos := ⟨0, 0, true, true, 0, []⟩
    let o : SeqOp := ⟨.waitPg, 1, none, 1000⟩
    let k : Fin 64 := 1
    let p : PlatPolicy := plat [⟨0, [⟨.waitPg, 1, none, 1000⟩]⟩]
    let s : State := prog ⟨.waitPg, 1, none, 1000⟩ true
    s.opIs c .waitPg true = some (pos, o) ∧
      o.pin = k.val ∧
      s.chuck.policy = some p ∧
      (p.outs[k]).pgFail = .log ∧
      s.chuck.power = .run ∧
      NoChipReset 54 .ce s ∧
      LogRoom s := by
  dsimp only
  exact ⟨(by decide +kernel), (by decide +kernel), (by decide +kernel), (by decide +kernel), (by decide +kernel),
    (by unfold NoChipReset; decide +kernel), (by unfold LogRoom; decide +kernel)⟩

theorem hyp_programWaits_3 :
    let c : SeqCtx := .main
    let pos : SeqPos := ⟨0, 0, true, false, 0, []⟩
    let o : SeqOp := ⟨.waitIn, 63, some 0, 1000⟩
    let s : State := prog ⟨.waitIn, 63, some 0, 1000⟩ false
    Stands c .waitIn false pos o s := by
  dsimp only
  exact stands_of (by decide +kernel)

theorem hyp_programWaits_4 :
    let c : SeqCtx := .main
    let pos : SeqPos := ⟨0, 0, true, true, 0, []⟩
    let o : SeqOp := ⟨.waitIn, 63, some 0, 1000⟩
    let k : Fin 64 := 63
    let ticks : Nat := 1
    let s : State := prog ⟨.waitIn, 63, some 0, 1000⟩ true
    s.opIs c .waitIn true = some (pos, o) ∧
      o.pin = k.val ∧
      s.pgSeen true (.input k) (.ticks ticks) = true := by
  decide +kernel

theorem hyp_programWaits_5 :
    let c : SeqCtx := .main
    let pos : SeqPos := ⟨0, 0, true, true, 0, []⟩
    let o : SeqOp := ⟨.waitIn, 63, some 0, 1000⟩
    let h : Fin 16 := 0
    let s : State := (prog ⟨.waitIn, 63, some 0, 1000⟩ true).modHost 0 fun h => { h with run := .none }
    s.opIs c .waitIn true = some (pos, o) ∧
      o.host = some h ∧
      s.hostIsDown h = false ∧
      s.chuck.hardBy = [] ∧
      s.chuck.power = .run ∧
      NoChipReset 54 .ucc s := by
  dsimp only
  exact ⟨(by decide +kernel), (by decide +kernel), (by decide +kernel), (by decide +kernel), (by decide +kernel),
    (by unfold NoChipReset; decide +kernel)⟩

theorem hyp_programWaits_6 :
    let c : SeqCtx := .main
    let pos : SeqPos := ⟨0, 0, true, false, 0, []⟩
    let o : SeqOp := ⟨.platSync, 0, none, 60000⟩
    let s : State := prog ⟨.platSync, 0, none, 60000⟩ false
    Stands c .platSync false pos o s := by
  dsimp only
  exact stands_of (by decide +kernel)

theorem hyp_programWaits_7 :
    let c : SeqCtx := .main
    let pos : SeqPos := ⟨0, 0, true, true, 0, []⟩
    let o : SeqOp := ⟨.platSync, 0, none, 60000⟩
    let s : State := prog ⟨.platSync, 0, none, 60000⟩ true
    s.opIs c .platSync true = some (pos, o) := by
  decide +kernel

theorem hyp_programWaits_8 :
    let pos : SeqPos := ⟨0, 0, true, true, 0, []⟩
    let o : SeqOp := ⟨.platSync, 0, none, 60000⟩
    let s : State := prog ⟨.platSync, 0, none, 60000⟩ true
    s.opIs .main .platSync true = some (pos, o) ∧
      o.value ≠ 0 ∧
      LogRoom s := by
  dsimp only
  exact ⟨(by decide +kernel), (by decide +kernel), (by unfold LogRoom; decide +kernel)⟩

theorem hyp_supervisionActs_0 :
    let p : PlatPolicy := watched
    let ch : Fin 32 := 31
    let v : PgSight := .samples [4]
    let s : State := run.modChuck fun c => { c with policy := some watched, armed := [31] }
    s.chuck.policy = some p ∧
      s.pgSeen false (.chan ch) v = true ∧
      s.chuck.armed.contains ch = true ∧
      ((fins 64).all fun i => (p.outs[i]).pgSrc != some (.chan ch)) = true ∧
      (p.mons[ch]).monFail = .log ∧
      s.chuck.power = .run ∧
      s.mode ≠ .fault ∧
      NoChipReset 54 .ce s ∧
      LogRoom s := by
  dsimp only
  exact ⟨(by decide +kernel), (by decide +kernel), (by decide +kernel), (by decide +kernel), (by decide +kernel),
    (by decide +kernel), (by decide +kernel), (by unfold NoChipReset; decide +kernel), (by unfold LogRoom; decide +kernel)⟩

theorem hyp_supervisionActs_1 :
    let p : PlatPolicy := plat0
    let src : PgSrc := .input 0
    let v : PgSight := .ticks 1
    let k : Fin 64 := 0
    let h : Fin 16 := 0
    let s : State :=
      (run.modChuck fun c => { c with policy := some plat0, supervised := [0], hardBy := [] }).modHost 0 fun h => { h with run := .none }
    s.chuck.policy = some p ∧
      s.pgSeen false src v = true ∧
      s.concerned p src = [k] ∧
      (p.outs[k]).pgFail = .host ∧
      (p.outs[k]).host = some h ∧
      s.hostIsDown h = false ∧
      s.chuck.hardBy = [] ∧
      s.chuck.power = .run ∧
      NoChipReset 54 .ucc s := by
  dsimp only
  exact ⟨(by decide +kernel), (by decide +kernel), (by decide +kernel), (by decide +kernel), (by decide +kernel),
    (by decide +kernel), (by decide +kernel), (by decide +kernel), (by unfold NoChipReset; decide +kernel)⟩

theorem hyp_supervisionActs_2 :
    let k : Fin 64 := 3
    let k2 : Fin 64 := 4
    let ks : List (Fin 64) := []
    let s : State := run.modChuck fun c => { c with main := .down [3, 4] false }
    let b : Bool := false
    s.chuck.main = .down (k :: k2 :: ks) b := by
  decide +kernel

theorem hyp_supervisionActs_3 :
    let k : Fin 64 := 3
    let b : Bool := true
    let s : State := run.modChuck fun c => { c with main := .down [3] true }
    s.chuck.main = .down [k] b := by
  decide +kernel

theorem hyp_supervisionActs_4 :
    let h : Fin 16 := 15
    let k : Fin 64 := 3
    let k2 : Fin 64 := 4
    let ks : List (Fin 64) := []
    let s : State := run.modHost 15 fun h => { h with run := .down [3, 4] false }
    let b : Bool := false
    (s.host h).run = .down (k :: k2 :: ks) b := by
  decide +kernel

theorem hyp_supervisionActs_5 :
    let k : Fin 64 := 63
    let s : State := run.modChuck fun c => { c with cycling := [63] }
    s.chuck.cycling.contains k = true ∧
      s.chuck.asserted[k] = false := by
  decide +kernel

theorem hyp_supervisionActs_6 :
    let k : Fin 64 := 0
    let v : PgSight := .ticks 1
    let s : State := run.modChuck fun c => { c with policy := some plat0, cycling := [0], asserted := c.asserted.set 0 true }
    s.chuck.cycling.contains k = true ∧
      s.chuck.asserted[k] = true ∧
      s.pgMet k v = true := by
  decide +kernel

theorem hyp_supervisionActs_7 :
    let h : Fin 16 := 0
    let p : PlatPolicy := plat0
    let s : State :=
      (run.modChuck fun c => { c with policy := some plat0, hardBy := [] }).modHost 0 fun h => { h with run := .off }
    (s.host h).run = .off ∧
      s.mode = .firmware ∧
      s.chuck.hardBy = [] ∧
      s.chuck.policy = some p ∧
      (s.host h).waitLanes = false := by
  decide +kernel

theorem hyp_restartsAndSupplies_0 :
    let p : PlatPolicy := plat0
    let s : State :=
      owned (run.modChuck fun c => { c with main := .offTime, hardBy := [] }) |>.modNvm fun v => { v with platform := some platBytes }
    s.mode = .firmware ∧
      s.chuck.main = .offTime ∧
      s.chuck.hardBy = [] ∧
      s.chuck.reverify = false ∧
      storedPlatform s = some p := by
  decide +kernel

theorem hyp_restartsAndSupplies_2 :
    let q : PlatPolicy := { plat0 with follow := true }
    let s : State :=
      run.modChuck fun c => { c with policy := some { plat0 with follow := true }, passedSync := true, platDrive := false }
    s.chuck.policy = some q ∧
      q.follow = true ∧
      s.chuck.passedSync = true ∧
      s.chuck.platDrive = false := by
  decide +kernel

theorem hyp_restartsAndSupplies_3 :
    let s : State := run.modChuck fun c => { c with following := true, platDrive := false }
    s.chuck.following = true ∧
      s.chuck.platDrive = false ∧
      (s.chuck.main = .off ∨ s.chuck.main = .offTime) := by
  decide +kernel

theorem hyp_restartsAndSupplies_4 :
    let s : State := run.modChuck fun c => { c with vin := true, mainFromVsb := false }
    s.powered = true ∧
      s.chuck.vin = true ∧
      s.chuck.mainFromVsb = false := by
  decide +kernel

theorem hyp_restartsAndSupplies_5 :
    let s : State := run.modChuck fun c => { c with vin := true, brownedOut := true }
    s.powered = true ∧
      s.chuck.brownedOut = true ∧
      s.chuck.vin = true ∧
      s.chuck.main = .off := by
  decide +kernel

theorem hyp_restartsAndSupplies_6 :
    let s : State := run.modChuck fun c => { c with vin := true }
    s.powered = true ∧
      s.chuck.vsb = true ∧
      s.chuck.vin = true ∧
      LogRoom s := by
  dsimp only
  exact ⟨(by decide +kernel), (by decide +kernel), (by decide +kernel), (by unfold LogRoom; decide +kernel)⟩

theorem hyp_restartsAndSupplies_8 :
    let s : State := run.modChuck fun c => { c with vsb := false, vin := true }
    s.powered = true ∧
      s.chuck.vsb = false := by
  decide +kernel

theorem hyp_restartsAndSupplies_1 :
    let p : PlatPolicy := plat0
    let q : PlatPolicy := plat0
    let k : Fin 64 := 1
    let ticks : Nat := 1
    let s : State :=
      owned (run.modChuck fun c => { c with policy := some plat0, hardBy := [] }) |>.modNvm fun v => { v with platform := some platBytes }
    s.chuck.policy = some q ∧
      (q.ins[k]).kind = 3 ∧
      s.pgSeen true (.input k) (.ticks ticks) = true ∧
      s.platformOff = true ∧
      s.startable = true ∧
      s.chuck.power = .run ∧
      s.chuck.reverify = false ∧
      storedPlatform s = some p := by
  decide +kernel

theorem hyp_restartsAndSupplies_7 :
    let s : State := run
    s.chuck.power = .run := by
  decide +kernel

theorem hyp_powerStates_0 :
    let s : State := run
    s.powered = true := by
  decide +kernel

theorem hyp_powerStates_1 :
    let s : State := { run.modChuck (fun c => { c with power := .backup }) with mode := .held }
    s.chuck.power = .backup := by
  decide +kernel

theorem hyp_powerStates_2 :
    let s : State := run
    s.chuck.power = .run ∧
      s.noWork = true := by
  decide +kernel

theorem hyp_powerStates_3 :
    let s : State := run.modChuck fun c => { c with power := .idle }
    s.chuck.power = .idle := by
  decide +kernel

theorem hyp_powerStates_4 :
    let p : PlatPolicy := { plat0 with autoRetain := true }
    let s : State := run.modChuck fun c => { c with policy := some { plat0 with autoRetain := true } }
    s.maySleep = true ∧
      s.chuck.policy = some p ∧
      p.autoRetain = true := by
  decide +kernel

theorem hyp_powerStates_6 :
    let p : PlatPolicy := { plat0 with deepAfter := 1 }
    let s : State :=
      { run.modChuck (fun c => { c with power := .retain, policy := some { plat0 with deepAfter := 1 } }) with tick := 1966080 }
    s.chuck.policy = some p ∧
      s.chuck.power = .retain ∧
      s.platformOff = true ∧
      p.deepAfter ≠ 0 ∧
      s.chuck.retainSince + p.deepAfter * 60 * ticksPerSec ≤ s.tick := by
  decide +kernel

theorem hyp_powerStates_8 :
    let s : State := run.modChuck fun c => { c with power := .retain, wakeAt := some 0 }
    s.chuck.power = .retain ∧
      s.wakeDue = true := by
  decide +kernel

theorem hyp_powerStates_9 :
    let s : State :=
      (run.modStolik fun k => { k with captures := [⟨1, 50000, false, none, false, []⟩] }).modChuck fun c => { c with power := .idle }
    s.chuck.power = .idle ∧
      s.captureNear = true := by
  decide +kernel

theorem hyp_powerStates_10 :
    let i : Fin 32 := 31
    let s : State := { run with tick := 65536 }
    11 ≤ i.val ∧
      s.domainIdle (.riffle i) = true ∧
      ((groupRiffles ((i.val - 8) / 3)).any fun j => (s.riffle j).job.isSome || !(s.riffle j).suspended.isEmpty) = false := by
  decide +kernel

theorem hyp_powerStates_11 :
    let m : Fin 8 := 7
    let s : State := { run with tick := 65536 }
    m ≠ 4 ∧
      s.domainIdle (.mandrel m) = true ∧
      (s.mandrel m).job = none ∧
      (s.mandrel m).wiping = false := by
  decide +kernel

theorem hyp_powerStates_5 :
    let s : State := run.modChuck fun c => { c with power := .retain }
    let w : WakeSource := .levee
    s.chuck.power = .retain ∧
      s.wakes false w = true := by
  decide +kernel

theorem hyp_powerStates_7 :
    let s : State := { run.modChuck (fun c => { c with power := .deep }) with mode := .held }
    let w : WakeSource := .levee
    s.chuck.power = .deep ∧
      s.wakes true w = true := by
  decide +kernel

theorem hyp_updateTransfersEnd_0 :
    let b : Byte := 0x10
    let s : State := { target { xfer 0x10 .receiving manifestBytes [] with lastFrame := 7 } run with tick := 7 + lockIdle }
    (s.target b.toNat).holder.isSome = true ∧
      ((s.target b.toNat).xfer = .none ∨ (s.target b.toNat).xfer = .receiving) ∧
      (s.target b.toNat).lastFrame + lockIdle ≤ s.tick := by
  decide +kernel

theorem hyp_updateTransfersEnd_1 :
    let m : HostManifest := manifest0
    let s : State := { target (xfer 0x10 .checking manifestBytes []) run with staging := [⟨0, 0, 0, zeros 4096, true⟩] }
    let n : Fin 8 := 0
    let w : Fin 8 := 0
    let code := (windowCode n w).toNat
    let x := s.target code
    x.hostManifest = some m ∧
      x.xfer = .checking ∧
      s.laneActivating n = false ∧
      rootsMatch m ((s.lane n).remap[w]) (s.stagedImage n w) = true := by
  decide +kernel

theorem hyp_updateTransfersEnd_2 :
    let m : HostManifest := manifest0
    let s : State := target (xfer 0x10 .checking manifestBytes []) run
    let n : Fin 8 := 0
    let w : Fin 8 := 0
    let code := (windowCode n w).toNat
    let x := s.target code
    x.hostManifest = some m ∧
      x.xfer = .checking ∧
      s.laneActivating n = false ∧
      rootsMatch m ((s.lane n).remap[w]) (s.stagedImage n w) = false := by
  decide +kernel

theorem hyp_updateTransfersEnd_3 :
    let m : HostManifest := manifest0
    let mb : Bytes := manifestBytes
    let rb : Bytes := zeros 4096
    let s : State := chip0 (fun c => { c with st := .virund }) ((target (xfer 0x10 .landing manifestBytes []) (open0 .read)).modWin 0 0 fun x => { x with phase := .landing })
    let n : Fin 8 := 0
    let w : Fin 8 := 0
    let c : Fin 4 := 0
    let code := (windowCode n w).toNat
    let x := s.target code
    x.hostManifest = some m ∧
      x.manifests.head? = some mb ∧
      x.xfer = .landing ∧
      (s.win n w).phase = .landing ∧
      s.inactiveOwned n w = true ∧
      s.laneActivating n = false ∧
      rootsMatch m ((s.lane n).remap[w]) rb = true := by
  decide +kernel

theorem hyp_updateTransfersEnd_4 :
    let c : Fin 4 := 1
    let mb : Bytes := compZeros 2
    let cm : CompManifest := (readComponent (compZeros 2)).getD ⟨0, 0, 0, 0, 0, [], [], []⟩
    let s : State := target (xfer 2 .checking (compZeros 2) (zeros 8)) run
    let y := s.target (c.val + 1)
    y.xfer = .checking ∧
      y.manifests.head? = some mb ∧
      readComponent mb = some cm ∧
      imageFits cm y.data = true := by
  decide +kernel

theorem hyp_updateTransfersEnd_5 :
    let c : Fin 4 := 1
    let mb : Bytes := compBytes 2
    let cm : CompManifest := (readComponent (compBytes 2)).getD ⟨0, 0, 0, 0, 0, [], [], []⟩
    let s : State := target (xfer 2 .checking (compBytes 2) (zeros 8)) run
    let y := s.target (c.val + 1)
    y.xfer = .checking ∧
      y.manifests.head? = some mb ∧
      readComponent mb = some cm ∧
      imageFits cm y.data = false := by
  decide +kernel

theorem hyp_activationAdvances_0 :
    let a : Activation := act true false 2
    let mb : Bytes := manifestBytes
    let m : HostManifest := manifest0
    let rb : Bytes := zeros 4096
    let s : State := activating (act true false 2) run
    let n : Fin 8 := 0
    let w : Fin 8 := 0
    s.activationAt n w 2 = some a ∧
      s.incoming n = some (mb, m) ∧
      rootsMatch m ((s.lane n).remap[w]) rb = true := by
  decide +kernel

theorem hyp_activationAdvances_1 :
    let a : Activation := act true false 2
    let mb : Bytes := manifestBytes
    let m : HostManifest := manifest0
    let rb : Bytes := []
    let s : State := activating (act true false 2) run
    let n : Fin 8 := 0
    let w : Fin 8 := 0
    s.activationAt n w 2 = some a ∧
      s.incoming n = some (mb, m) ∧
      rootsMatch m ((s.lane n).remap[w]) rb = false := by
  decide +kernel

theorem hyp_activationAdvances_4 :
    let s : State := run.modWin 0 0 fun x => { x with phase := .flipped }
    let n : Fin 8 := 0
    let w : Fin 8 := 0
    (s.win n w).phase = .flipped := by
  decide +kernel

theorem hyp_activationAdvances_2 :
    let a : Activation := act true false 3
    let mb : Bytes := manifestBytes
    let m : HostManifest := manifest0
    let x : Sel := .b
    let i : Nat := 0
    let s : State := { activating (act true false 3) run with resB := { Reservoir.reset with present := true, dir := [⟨false, 0, .complete, 1, manifestBytes, [pageRoot], 0, 0, 0, 0, [], 0, []⟩] } }
    let n : Fin 8 := 0
    let w : Fin 8 := 0
    s.activationAt n w 3 = some a ∧
      s.incoming n = some (mb, m) ∧
      x = otherSel (s.lane n).verify.resPref ∧
      s.resWritable x = true ∧
      s.laneEntryAt x n = some i ∧
      (s.res x).refreshing = none ∧
      s.laneWriting (otherSel x) n = false := by
  decide +kernel

theorem hyp_activationAdvances_3 :
    let a : Activation := act true false 3
    let mb : Bytes := manifestBytes
    let m : HostManifest := manifest0
    let x : Sel := .b
    let i : Nat := 0
    let e : DirEntry := ⟨false, 0, .writing, 1, [], [], 0, 0, 0, 0, [], 0, []⟩
    let rbs : List Bytes := [zeros 4096]
    let s : State := { activating (act true false 3) run with resB := { Reservoir.reset with present := true, refreshing := some 0, dir := [⟨false, 0, .writing, 1, [], [], 0, 0, 0, 0, [], 0, []⟩] } }
    let n : Fin 8 := 0
    let w : Fin 8 := 0
    s.activationAt n w 3 = some a ∧
      s.incoming n = some (mb, m) ∧
      a.reseq = false ∧
      x = otherSel (s.lane n).verify.resPref ∧
      s.resWritable x = true ∧
      s.laneEntryAt x n = some i ∧
      (s.res x).refreshing = some i ∧
      (s.res x).dir[i]? = some e ∧
      readBackProves mb rbs = true := by
  dsimp only
  exact ⟨(by decide +kernel), (by decide +kernel), (by decide +kernel), (by decide +kernel), (by decide +kernel),
    (by decide +kernel), (by decide +kernel), (by decide +kernel), read_back⟩

theorem hyp_activationAdvances_5 :
    let mb : Bytes := manifestBytes
    let x : Sel := .a
    let i : Nat := 0
    let e : DirEntry := ⟨false, 0, .writing, 1, [], [], 0, 0, 0, 0, [], 0, []⟩
    let rbs : List Bytes := [zeros 4096]
    let s : State := { (run.modNvm fun v => { v with manifest0 := vmod v.manifest0 0 fun _ => some manifestBytes }).modWin 0 0 fun x => { x with phase := .following } with resA := { Reservoir.reset with present := true, refreshing := some 0, dir := [⟨false, 0, .writing, 1, [], [], 0, 0, 0, 0, [], 0, []⟩] } }
    let n : Fin 8 := 0
    let w : Fin 8 := 0
    (s.win n w).phase = .following ∧
      s.activeManifest n = some mb ∧
      x = (s.lane n).verify.resPref ∧
      s.resWritable x = true ∧
      s.laneEntryAt x n = some i ∧
      (s.res x).refreshing = some i ∧
      (s.res x).dir[i]? = some e ∧
      readBackProves mb rbs = true := by
  dsimp only
  exact ⟨(by decide +kernel), (by decide +kernel), (by decide +kernel), (by decide +kernel), (by decide +kernel),
    (by decide +kernel), (by decide +kernel), read_back⟩

theorem hyp_activationAdvances_6 :
    let mb : Bytes := manifestBytes
    let s : State :=
      (run.modNvm fun v => { v with manifest0 := vmod v.manifest0 0 fun _ => some manifestBytes }).modWin 0 0 fun x => { x with phase := .following }
    let n : Fin 8 := 0
    let w : Fin 8 := 0
    (s.win n w).phase = .following ∧
      s.activeManifest n = some mb ∧
      (s.res (s.lane n).verify.resPref).present = false := by
  decide +kernel

theorem hyp_activationAdvances_7 :
    let x : Sel := .a
    let i : Nat := 0
    let e : DirEntry := entry0
    let s : State := { due with resA := { due.resA with refreshing := none } }
    s.mode = .firmware ∧
      (s.res x).refreshing = none ∧
      (s.res (otherSel x)).refreshing = none ∧
      nextRefresh s = some (x, i, e) := by
  decide +kernel

theorem hyp_activationAdvances_9 :
    let x : Sel := .a
    let i : Nat := 0
    let e : DirEntry := entry0
    let f : DirEntry → DirEntry := laneContent manifestBytes
    let rbs : List Bytes := [zeros 4096]
    let s : State := due
    let n : Fin 8 := 0
    s.mode = .firmware ∧
      (s.res x).refreshing = some i ∧
      s.resWritable x = true ∧
      activationEntry s x i = false ∧
      (s.res x).dir[i]? = some e ∧
      entrySource s e = some f ∧
      e.isSet = false ∧
      e.index = n.val ∧
      readBackProves (f e).manifest rbs = true := by
  dsimp only
  exact ⟨(by decide +kernel), (by decide +kernel), (by decide +kernel), (by decide +kernel), (by decide +kernel), rfl,
    (by decide +kernel), (by decide +kernel), read_back⟩

theorem hyp_updateCommandsAnswer_2 :
    let n : Fin 8 := 0
    let w : Fin 8 := 0
    let r : Req := ask ([0x10, 0, 0, 0] ++ zeros 4 ++ leBytes 4 1 ++ [0x52, 0xD0, 0x16, 0xA0] ++ [1])
    let s : State := target { xfer 0x10 .receiving manifestBytes [] with imageLen := 4096, chunkSize := 4096 } run
    let ch : Option Bytes := none
    let cmd := (callOf r).cmd
    let code := u8 cmd 0
    Admitted cmdChunk r s ch ∧
      (s.target code).xfer = .receiving ∧
      (crc32c (cmd.drop 16)).toNat = u32 cmd 12 ∧
      chunkBeyond (s.target code) (u32 cmd 4) (cmd.length - 16) = false ∧
      targetKind code = some (.window n w) ∧
      (s.target code).streamed = false := by
  dsimp only
  exact ⟨admitted_of (by decide +kernel), by decide +kernel⟩

theorem hyp_updateCommandsAnswer_3 :
    let k : Fin 4 := 1
    let r : Req := ask ([2, 0, 0, 0] ++ zeros 4 ++ leBytes 4 1 ++ [0x52, 0xD0, 0x16, 0xA0] ++ [1])
    let s : State := target { xfer 2 .receiving (compZeros 2) [] with imageLen := 8, chunkSize := 4096 } run
    let ch : Option Bytes := none
    let cmd := (callOf r).cmd
    let code := u8 cmd 0
    Admitted cmdChunk r s ch ∧
      (s.target code).xfer = .receiving ∧
      (crc32c (cmd.drop 16)).toNat = u32 cmd 12 ∧
      chunkBeyond (s.target code) (u32 cmd 4) (cmd.length - 16) = false ∧
      targetKind code = some (.component k) ∧
      u32 cmd 4 = (s.target code).chunks.length := by
  dsimp only
  exact ⟨admitted_of (by decide +kernel), by decide +kernel⟩

theorem hyp_updateCommandsAnswer_4 :
    let r : Req := ask [0x10, 0, 0, 0]
    let s : State := target { xfer 0x10 .receiving manifestBytes [] with captured := true } run
    let ch : Option Bytes := none
    let cmd := (callOf r).cmd
    let code := u8 cmd 0
    Admitted cmdEnd r s ch ∧
      (s.target code).xfer = .receiving ∧
      ((s.target code).captured = true ∨ chunksWhole (s.target code) = true) := by
  dsimp only
  exact ⟨admitted_of (by decide +kernel), by decide +kernel⟩

theorem hyp_updateCommandsAnswer_5 :
    let r : Req := ask [0x10, 0, 0, 0]
    let s : State := target (xfer 0x10 .receiving manifestBytes []) run
    let ch : Option Bytes := none
    Admitted cmdAbort r s ch := by
  dsimp only
  exact admitted_of (by decide +kernel)

theorem hyp_updateCommandsAnswer_6 :
    let n : Fin 8 := 0
    let w : Fin 8 := 0
    let r : Req := askHp [0, 0, 0, 0]
    let s : State := landed0
    let ch : Option Bytes := none
    let cmd := (callOf r).cmd
    Admitted cmdActivateHost r s ch ∧
      laneWindow cmd = some (n, w) ∧
      u8 cmd 2 = 0 ∧
      activationStep1 (acceptOp (callOf r) 0x0305 (begun cmdActivateHost r ch s)).2 n w false false = none := by
  dsimp only
  exact ⟨admitted_of (by decide +kernel), by decide +kernel⟩

theorem hyp_updateCommandsAnswer_7 :
    let r : Req := ask [1, 0, 0, 0]
    let s : State := parts
    let ch : Option Bytes := none
    let cmd := (callOf r).cmd
    let code := u8 cmd 0
    Admitted cmdActivateComponent r s ch ∧
      code = 1 ∧
      componentStep1 (begun cmdActivateComponent r ch s) 0 (s.writeCopy 0) = none := by
  dsimp only
  exact ⟨admitted_of (by decide +kernel), by decide +kernel⟩

theorem hyp_updateCommandsAnswer_8 :
    let n : Fin 8 := 0
    let w : Fin 8 := 0
    let r : Req := askHp [0, 0, 0, 0]
    let s : State := { host0 run with staging := [⟨0, 0, 0, zeros 4096, true⟩] }
    let ch : Option Bytes := none
    let cmd := (callOf r).cmd
    Admitted cmdDiscard r s ch ∧
      laneWindow cmd = some (n, w) := by
  dsimp only
  exact ⟨admitted_of (by decide +kernel), by decide +kernel⟩

theorem hyp_updateCommandsAnswer_9 :
    let n : Fin 8 := 0
    let r : Req := ask [0, 0, 0, 0]
    let s : State := served0 (lane0 (fun l => { l with manifest := some manifest0 }) run)
    let ch : Option Bytes := none
    let cmd := (callOf r).cmd
    let code := u8 cmd 0
    Admitted cmdRepairLane r s ch ∧
      code = n.val ∧
      s.reservoirServes n = true := by
  dsimp only
  exact ⟨admitted_of (by decide +kernel), by decide +kernel⟩

theorem hyp_slotsAttest_0 :
    let c : SlotCfg := cfg0
    let s : State := slotted fun x => { x with present := false }
    let i : Fin 1024 := 0
    let pin : Bool := false
    let x := s.slot i
    s.slotCfg i = some c ∧
      s.controls c = true ∧
      (notePresence c pin s).presenceIn c = true ∧
      x.present = false := by
  decide +kernel

theorem hyp_slotsAttest_1 :
    let c : SlotCfg := cfg0
    let s : State := slotted fun x => { x with present := false }
    let i : Fin 1024 := 0
    let x := s.slot i
    s.slotCfg i = some c ∧
      s.controls c = true ∧
      (s.buses[(Fin.ofNat 16 c.bus : Fin 16)]).i3c = false ∧
      x.present = false := by
  decide +kernel

theorem hyp_slotsAttest_2 :
    let c : SlotCfg := cfg0
    let s : State := slotted fun x => { x with present := false }
    let i : Fin 1024 := 0
    let pin : Bool := false
    let x := s.slot i
    s.slotCfg i = some c ∧
      s.controls c = true ∧
      (s.buses[(Fin.ofNat 16 c.bus : Fin 16)]).i3c = false ∧
      x.present = false ∧
      (notePresence c pin s).presenceIn c = true := by
  decide +kernel

theorem hyp_slotsAttest_3 :
    let s : State := slotted fun x => { x with token := [1] }
    let i : Fin 1024 := 0
    let x := s.slot i
    x.present = true := by
  decide +kernel

theorem hyp_slotsAttest_4 :
    let c : SlotCfg := cfg0
    let s : State := slotted fun x => { x with phase := .discovery }
    let i : Fin 1024 := 0
    let x := s.slot i
    s.slotCfg i = some c ∧
      s.controls c = true ∧
      x.present = true ∧
      x.phase = .discovery := by
  decide +kernel

theorem hyp_slotsAttest_5 :
    let c : SlotCfg := cfg0
    let v : Byte := 0x13
    let s : State := slotted fun x => { x with phase := .negotiate }
    let i : Fin 1024 := 0
    let x := s.slot i
    s.slotCfg i = some c ∧
      s.controls c = true ∧
      x.present = true ∧
      x.phase = .negotiate ∧
      (v = 0x12 ∨ v = 0x13) := by
  decide +kernel

theorem hyp_slotsAttest_6 :
    let c : SlotCfg := cfg0
    let s : State := slotted fun x => { x with phase := .measurements }
    let i : Fin 1024 := 0
    let x := s.slot i
    s.slotCfg i = some c ∧
      s.controls c = true ∧
      x.present = true ∧
      x.phase = .measurements := by
  decide +kernel

theorem hyp_slotsAttest_7 :
    let s : State := slotted fun x => { x with phase := .digests }
    let i : Fin 1024 := 0
    let x := s.slot i
    x.phase ≠ .idle ∧
      x.phase ≠ .judging ∧
      s.mode = .firmware ∧
      x.failures = 0 := by
  decide +kernel

theorem hyp_slotsAttest_8 :
    let s : State := slotted fun x => { x with phase := .digests, failures := 2, state := .admitted, token := [1] }
    let i : Fin 1024 := 0
    let x := s.slot i
    x.phase ≠ .idle ∧
      x.phase ≠ .judging ∧
      s.mode = .firmware ∧
      x.failures = 2 ∧
      x.state = .admitted := by
  decide +kernel

theorem hyp_slotsAttest_9 :
    let p : AdmPolicy := adm0
    let c : SlotCfg := cfg0
    let chain : List ChainCert := []
    let s : State := judging .admitted
    let i : Fin 1024 := 0
    let x := s.slot i
    let judged := fun (ders : Bytes) => (x.chainBytes.drop (x.chainBytes.length - ders.length) == ders) = true
    s.adm = some p ∧
      s.slotCfg i = some c ∧
      x.phase = .judging ∧
      s.mode = .firmware ∧
      x.state = .admitted ∧
      judged (chain.flatMap (·.der)) ∧
      chainFormOk chain = false := by
  decide +kernel

theorem hyp_slotsAttest_10 :
    let p : AdmPolicy := adm0
    let c : SlotCfg := cfg0
    let chain : List ChainCert := [cert0]
    let k : Nat := 0
    let a : AllowCfg := allow0 0
    let s : State := judging .unknown
    let i : Fin 1024 := 0
    let x := s.slot i
    let judged := fun (ders : Bytes) => (x.chainBytes.drop (x.chainBytes.length - ders.length) == ders) = true
    s.adm = some p ∧
      s.slotCfg i = some c ∧
      x.phase = .judging ∧
      s.mode = .firmware ∧
      x.state = .unknown ∧
      judged (chain.flatMap (·.der)) ∧
      chainFormOk chain = true ∧
      x.componentId = [] ∧
      x.lease = none ∧
      p.roots.contains (sha384 (((chain.head?).map (·.der)).getD [])) = true ∧
      matchedEntry p c (readMeas 256 x.blocks) = some (k, a) ∧
      a.quota = 0 ∧
      rootAdmitted p (some (k, a)) (sha384 (((chain.head?).map (·.der)).getD [])) = true := by
  decide +kernel

theorem hyp_slotsAttest_11 :
    let c : SlotCfg := cfg0
    let s : State := slotted fun x => { x with state := .admitted, failures := 1 }
    let i : Fin 1024 := 0
    let x := s.slot i
    s.slotCfg i = some c ∧
      x.present = true ∧
      s.mode = .firmware ∧
      x.state = .admitted ∧
      x.phase = .idle ∧
      0 < x.failures ∧
      x.retryAt ≤ s.time := by
  decide +kernel

theorem hyp_slotsAttest_12 :
    let p : AdmPolicy := adm0
    let c : SlotCfg := cfg0
    let s : State := slotted fun x => { x with nextAttest := 0 }
    let i : Fin 1024 := 0
    let x := s.slot i
    s.adm = some p ∧
      s.slotCfg i = some c ∧
      x.present = true ∧
      s.mode = .firmware ∧
      x.phase = .idle ∧
      x.nextAttest ≤ s.time := by
  decide +kernel

theorem hyp_slotsAttest_13 :
    let c : SlotCfg := cfg0
    let s : State := slotted fun x => { x with phase := .measurements }
    let i : Fin 1024 := 0
    let x := s.slot i
    s.slotCfg i = some c ∧
      x.present = true ∧
      s.mode = .firmware ∧
      x.phase ≠ .discovery := by
  decide +kernel

theorem hyp_enginesWork_0 :
    let i : Fin 32 := 13
    let j : Job := job0 (.digest ctx0 [1]) 0
    let s : State := run.modConf fun c => { c with queue := [job0 (.digest ctx0 [1]) 0] }
    noEngine s false = false ∧
      riffleUsable s i = true ∧
      (s.riffle i).job = none ∧
      (s.riffle i).suspended = [] ∧
      nextJob s (.riffle i) = some j := by
  decide +kernel

theorem hyp_enginesWork_1 :
    let m : Fin 8 := 1
    let j : Job := job0 (.rsa (zeros 256) (zeros 256)) 0
    let s : State := run.modConf fun c => { c with queue := [job0 (.rsa (zeros 256) (zeros 256)) 0] }
    noEngine s true = false ∧
      mandrelUsable s m = true ∧
      (s.mandrel m).job = none ∧
      (s.mandrel m).wiping = false ∧
      nextJob s (.mandrel m) = some j ∧
      operandLength j.work = none := by
  decide +kernel

theorem hyp_enginesWork_2 :
    let i : Fin 32 := 8
    let j : Job := job0 (.digest ctx0 [1]) 0
    let ctx : Ctx := ctx0
    let data : Bytes := [1]
    let p : Port := .mb 0
    let s : State := riffle8 (job0 (.digest ctx0 [1]) 0)
    (s.riffle i).job = some j ∧
      j.work = .digest ctx data ∧
      j.port = some p ∧
      lengthResult ctx data.length data.length true = none := by
  decide +kernel

theorem hyp_enginesWork_3 :
    let i : Fin 32 := 8
    let j : Job := job0 (.digest ctx0 [1]) 0
    let ctx : Ctx := ctx0
    let data : Bytes := [1]
    let p : Port := .mb 0
    let k : Nat := 0
    let res : Res := .lengthShort
    let s : State := riffle8 (job0 (.digest ctx0 [1]) 0)
    (s.riffle i).job = some j ∧
      j.work = .digest ctx data ∧
      j.port = some p ∧
      lengthResult ctx data.length k true = some res := by
  decide +kernel

theorem hyp_enginesWork_4 :
    let j : Job := job0 (.rsa (zeros 256) (zeros 256)) 0
    let p : Port := .mb 0
    let s : State := mandrel0 fun x => { x with job := some (job0 (.rsa (zeros 256) (zeros 256)) 0) }
    let m : Fin 8 := 0
    (s.mandrel m).job = some j ∧
      (s.mandrel m).wiping = false ∧
      j.port = some p := by
  decide +kernel

theorem hyp_enginesWork_6 :
    let s : State := mandrel0 fun x => { x with wiping := true }
    let m : Fin 8 := 0
    (s.mandrel m).wiping = true := by
  decide +kernel

theorem hyp_enginesWork_7 :
    let s : State := mandrel0 fun x => { x with wiping := true }
    let m : Fin 8 := 0
    (s.mandrel m).wiping = true ∧
      (s.mandrel m).inService = true ∧
      s.mode = .firmware ∧
      s.chuck.power = .run ∧
      NoChipReset (Fin.ofNat 64 (32 + m.val)) .fatal s := by
  dsimp only
  exact ⟨(by decide +kernel), (by decide +kernel), (by decide +kernel), (by decide +kernel),
    (by unfold NoChipReset; decide +kernel)⟩

theorem hyp_enginesWork_8 :
    let s : State := { mandrel0 (fun x => { x with secret := true }) with tick := 65536 }
    let m : Fin 8 := 0
    (s.mandrel m).secret = true ∧
      (s.mandrel m).job = none ∧
      (s.mandrel m).lastUse + 65536 ≤ s.tick := by
  decide +kernel

theorem hyp_enginesWork_9 :
    let id : Word := 5
    let x : Session := session0
    let s : State := { sessioned with tick := 60 * ticksPerSec }
    s.session id = some x ∧
      x.lastUse + 60 * ticksPerSec ≤ s.tick := by
  decide +kernel

theorem hyp_enginesWork_10 :
    let f : Fin 24 := 23
    let s : State := { run with tick := 86400 * ticksPerSec }
    (s.riffle ⟨8 + f.val, by omega⟩).inService = true ∧
      (s.riffle ⟨8 + f.val, by omega⟩).boundTo = none ∧
      (∀ y ∈ s.allJobs, ∀ g b, y.work ≠ .kat g b) ∧
      s.conf.lastKat[f] + 86400 * ticksPerSec ≤ s.tick := by
  dsimp only
  exact ⟨(by decide +kernel), (by decide +kernel),
    (fun y hy => nomatch (show y ∈ ([] : List Job) from (show State.allJobs { run with tick := 86400 * ticksPerSec } = [] by decide +kernel) ▸ hy)),
    by decide +kernel⟩

theorem hyp_enginesWork_5 :
    let j : Job := job0 (.rsa (zeros 256) (zeros 256)) 2
    let p : Port := .mb 0
    let chk : Fin 11 := 10
    let s : State := mandrel0 fun x => { x with job := some (job0 (.rsa (zeros 256) (zeros 256)) 2) }
    let m : Fin 8 := 0
    (s.mandrel m).job = some j ∧
      (s.mandrel m).wiping = false ∧
      j.port = some p ∧
      j.runs = 2 ∧
      s.chuck.power = .run ∧
      checkApplies j.work chk.val = true ∧
      NoChipReset (Fin.ofNat 64 (32 + m.val)) .ucc s := by
  dsimp only
  exact ⟨(by decide +kernel), (by decide +kernel), (by decide +kernel), (by decide +kernel), (by decide +kernel),
    (by decide +kernel), (by unfold NoChipReset; decide +kernel)⟩

theorem hyp_enginesWork_11 :
    let i : Fin 32 := 8
    let k : Nat := 3
    let e : InnerEnd := ⟨.session 1, 4, false⟩
    let s : State := run
    let source := if i.val < 8 then i.val else 24 + (i.val - 8) / 3
    (s.riffle i).job = none ∧
      runsInner s i e.job = true ∧
      e.cut = false ∧
      k ≠ e.declared ∧
      (∀ y ∈ s.conf.lengths, y.1 ≠ e.job) ∧
      s.chuck.power = .run ∧
      NoChipReset (Fin.ofNat 64 source) .ucc s := by
  dsimp only
  exact ⟨(by decide +kernel), (by decide +kernel), (by decide +kernel), (by decide +kernel), (by decide +kernel),
    (by decide +kernel), (by unfold NoChipReset; decide +kernel)⟩

theorem hyp_linksTrain_0 :
    let k : Fin 4 := 0
    let s : State := run
    let l := s.link k
    s.chuck.power = .run ∧
      l.st = .down ∧
      s.fabricRuns = true ∧
      s.linkTrains k = true := by
  decide +kernel

theorem hyp_linksTrain_1 :
    let headers : List (BitVec 2) := List.replicate 64 syncData
    let s : State := linked .signal id
    let k : Fin 4 := 0
    let l := s.link k
    l.st = .signal ∧
      headers.length = 64 ∧
      (∀ x ∈ headers, x = syncData ∨ x = syncControl) := by
  decide +kernel

theorem hyp_linksTrain_2 :
    let prev : BitVec 58 := ~~~(0 : BitVec 58)
    let sw : Bool := true
    let st : LState := .sync
    let blk : LineBlock := ⟨1, ~~~(scramble 0 (trainingBlock .sync 9 true 0).payload).1⟩
    let s : State := linked .sync fun l => { l with blocks := 7 }
    let k : Fin 4 := 0
    let l := s.link k
    receiveTraining l.swapped prev blk = some (sw, st) ∧
      l.st = .sync ∧
      st ≠ .leave ∧
      7 ≤ l.blocks := by
  decide +kernel

theorem hyp_linksTrain_3 :
    let st : LState := .ready
    let blk : LineBlock := ⟨2, (scramble 0 (trainingBlock .ready 9 true 0).payload).1⟩
    let s : State := linked .sync fun l => { l with blocks := 6 }
    let k : Fin 4 := 0
    let prev : BitVec 58 := 0
    let sw : Bool := false
    let l := s.link k
    receiveTraining l.swapped prev blk = some (sw, st) ∧
      l.st = .sync ∧
      st ≠ .leave ∧
      l.blocks < 7 := by
  decide +kernel

theorem hyp_linksTrain_4 :
    let blk : LineBlock := ⟨2, (scramble 0 (trainingBlock .ready 9 true 0).payload).1⟩
    let s : State := linked .ready fun l => { l with blocks := 7 }
    let k : Fin 4 := 0
    let prev : BitVec 58 := 0
    let sw : Bool := false
    let l := s.link k
    receiveTraining l.swapped prev blk = some (sw, .ready) ∧
      l.st = .ready ∧
      7 ≤ l.blocks := by
  decide +kernel

theorem hyp_linksTrain_5 :
    let s : State := linked .sync fun l => { l with blocks := 7 }
    let k : Fin 4 := 0
    let prev : BitVec 58 := 0
    let blk : LineBlock := ⟨0, 0⟩
    let l := s.link k
    receiveTraining l.swapped prev blk = none := by
  decide +kernel

theorem hyp_linksTrain_7 :
    let p : AuthKey := authKey0
    let s : State := linked .auth fun l => { l with peer := some authKey0 }
    let k : Fin 4 := 0
    let l := s.link k
    let src : Fin 64 := Fin.ofNat 64 (50 + k.val)
    l.st = .auth ∧
      l.peer = some p ∧
      s.fabricRuns = true ∧
      s.chuck.power = .run ∧
      NoChipReset src .ucc s := by
  dsimp only
  exact ⟨(by decide +kernel), (by decide +kernel), (by decide +kernel), (by decide +kernel),
    (by unfold NoChipReset; decide +kernel)⟩

theorem hyp_linksTrain_8 :
    let s : State := linked .sync id
    let k : Fin 4 := 0
    let l := s.link k
    let src : Fin 64 := Fin.ofNat 64 (50 + k.val)
    l.st = .sync ∧
      s.chuck.power = .run ∧
      NoChipReset src .ucc s := by
  dsimp only
  exact ⟨(by decide +kernel), (by decide +kernel), (by unfold NoChipReset; decide +kernel)⟩

theorem hyp_linksTrain_9 :
    let s : State := linked .up id
    let k : Fin 4 := 0
    let l := s.link k
    let src : Fin 64 := Fin.ofNat 64 (50 + k.val)
    l.st = .up ∧
      s.chuck.power = .run ∧
      NoChipReset src .ucc s := by
  dsimp only
  exact ⟨(by decide +kernel), (by decide +kernel), (by unfold NoChipReset; decide +kernel)⟩

theorem hyp_linksTrain_10 :
    let s : State := linked .down fun l => { l with signal := true }
    let k : Fin 4 := 0
    let l := s.link k
    l.st = .down ∧
      l.signal = true ∧
      s.fabricRuns = true ∧
      s.linkTrains k = true := by
  decide +kernel

theorem hyp_linksTrain_11 :
    let s : State := linked .up id
    let k : Fin 4 := 0
    let l := s.link k
    l.st = .up := by
  decide +kernel

theorem hyp_linksTrain_12 :
    let next : Half := 1
    let s : State := linked .up fun l => { l with retry := [(1, [2])], resends := 0 }
    let k : Fin 4 := 0
    let l := s.link k
    l.carries = true ∧
      ackCount next l ≠ 0 := by
  decide +kernel

theorem hyp_linksTrain_13 :
    let next : Half := 0
    let s : State := linked .up fun l => { l with retry := [(1, [2])], resends := 7 }
    let k : Fin 4 := 0
    let l := s.link k
    l.carries = true ∧
      ackCount next l = 0 ∧
      l.retry ≠ [] ∧
      l.resends < 8 := by
  decide +kernel

theorem hyp_linksTrain_14 :
    let s : State := linked .up fun l => { l with retry := [(1, [2])], resends := 7 }
    let k : Fin 4 := 0
    let l := s.link k
    l.carries = true ∧
      l.retry ≠ [] ∧
      l.resends < 8 := by
  decide +kernel

theorem hyp_linksTrain_15 :
    let c : FrameCheck := .seq
    let s : State := linked .up id
    let k : Fin 4 := 0
    let l := s.link k
    l.carries = true ∧
      s.fabricRuns = true ∧
      c ≠ .good ∧
      c ≠ .tag := by
  decide +kernel

theorem hyp_linksTrain_16 :
    let s : State := linked .up fun l => { l with tagFails := List.replicate 15 0 }
    let k : Fin 4 := 0
    let l := s.link k
    let src : Fin 64 := Fin.ofNat 64 (50 + k.val)
    l.st = .up ∧
      s.fabricRuns = true ∧
      15 ≤ (l.tagFails.filter fun x => decide (s.tick < x + 32768)).length ∧
      s.chuck.power = .run ∧
      NoChipReset src .ucc s := by
  dsimp only
  exact ⟨(by decide +kernel), (by decide +kernel), (by decide +kernel), (by decide +kernel),
    (by unfold NoChipReset; decide +kernel)⟩

theorem hyp_leveeLogAndPatrol_0 :
    let c : LeveeCond := ⟨8, true, false, 0, 0, 0, 0⟩
    let s : State := run
    s.powered = true ∧
      s.alarms c = true ∧
      s.levee.holding = false := by
  decide +kernel

theorem hyp_leveeLogAndPatrol_1 :
    let s : State := holding true
    s.powered = true ∧
      s.levee.holding = true ∧
      s.chuck.rstLow = true := by
  decide +kernel

theorem hyp_leveeLogAndPatrol_2 :
    let s : State := holding false
    s.powered = true ∧
      s.levee.holding = true ∧
      s.chuck.rstLow = false := by
  decide +kernel

theorem hyp_leveeLogAndPatrol_3 :
    let s : State := run
    s.chuck.power = .run ∧
      s.mode ≠ .held ∧
      NoChipReset 59 .ucc s := by
  dsimp only
  exact ⟨(by decide +kernel), (by decide +kernel), (by unfold NoChipReset; decide +kernel)⟩

theorem hyp_leveeLogAndPatrol_4 :
    let s : State := { run with mode := .held }
    s.chuck.power = .run ∧
      s.mode = .held := by
  decide +kernel

theorem hyp_leveeLogAndPatrol_5 :
    let k : Fin 12 := 8
    let s : State := { run with tick := testPeriod }
    s.mode = .firmware ∧
      s.chuck.power = .run ∧
      s.levee.lastRound + testPeriod ≤ s.tick ∧
      s.leveeArmed k = true ∧
      NoChipReset 59 .ucc s := by
  dsimp only
  exact ⟨(by decide +kernel), (by decide +kernel), (by decide +kernel), (by decide +kernel),
    (by unfold NoChipReset; decide +kernel)⟩

theorem hyp_leveeLogAndPatrol_6 :
    let c : LeveeCond := ⟨8, true, false, 0, 0, 0, 0⟩
    let s : State := run.modChuck fun c => { c with power := .backup }
    s.chuck.power = .backup ∧
      backupKind c.kind = true ∧
      s.alarms c = true ∧
      s.backup.buffer.length < backupEntries ∧
      (∀ e ∈ s.backup.buffer, e.kind ≠ c.kind) := by
  decide +kernel

theorem hyp_leveeLogAndPatrol_7 :
    let s : State := run
    s.powered = true ∧
      LogRoom s := by
  dsimp only
  exact ⟨(by decide +kernel), (by unfold LogRoom; decide +kernel)⟩

theorem hyp_leveeLogAndPatrol_8 :
    let w : Dword := 0x4000000000
    let s : State := run
    s.headstockRuns = true ∧
      bit w.toNat 38 = true := by
  decide +kernel

theorem hyp_leveeLogAndPatrol_9 :
    let q : LogReq := ⟨0, 0x13, 1, []⟩
    let rest : List LogReq := []
    let s : State := run.modNvm fun v => { v with log := { v.log with queue := [⟨0, 0x13, 1, []⟩] } }
    s.nvmRuns = true ∧
      s.nvm.log.writing = none ∧
      s.nvm.log.queue = q :: rest ∧
      s.entryOpen q = false := by
  decide +kernel

theorem hyp_leveeLogAndPatrol_11 :
    let s : State := run
    s.mode = .firmware ∧
      s.powered = true ∧
      s.tick % 65536 = 0 := by
  decide +kernel

theorem hyp_leveeLogAndPatrol_12 :
    let chk : Byte := checkBits 0 0
    let word : Word := 0
    let d : Dword := 0
    let s : State := run
    s.chuck.power = .run ∧
      s.mode ≠ .held ∧
      readWord word.toNat d chk = .correct := by
  decide +kernel

theorem hyp_leveeLogAndPatrol_13 :
    let d : Dword := 513
    let chk : Byte := checkBits 0 0
    let word : Word := 0
    let s : State := run
    s.chuck.power = .run ∧
      s.mode ≠ .held ∧
      readWord word.toNat d chk = .uncorrectable ∧
      NoChipReset 44 .ucc s := by
  dsimp only
  exact ⟨(by decide +kernel), (by decide +kernel), (by decide +kernel), (by unfold NoChipReset; decide +kernel)⟩

theorem hyp_leveeLogAndPatrol_10 :
    let q : LogReq := ⟨0, 0x13, 1, []⟩
    let s : State := run.modNvm fun v => { v with log := { v.log with writing := some ⟨0, 0x13, 1, []⟩ } }
    s.nvmRuns = true ∧
      s.nvm.log.writing = some q ∧
      s.chuck.power = .run ∧
      NoChipReset 61 .ucc s := by
  dsimp only
  exact ⟨(by decide +kernel), (by decide +kernel), (by decide +kernel), (by unfold NoChipReset; decide +kernel)⟩

theorem hyp_recoveryMessages_0 :
    let s : State := sets0 (link0 run)
    let e : DirEntry := set0
    let k : Fin 4 := 0
    s.recoveryRuns k = true ∧
      s.offeredSet = some e := by
  decide +kernel

theorem hyp_recoveryMessages_1 :
    let s : State := link0 run
    let k : Fin 4 := 0
    s.recoveryRuns k = true ∧
      s.offeredSet = none := by
  decide +kernel

theorem hyp_recoveryMessages_2 :
    let s : State := sets0 (link0 run)
    let e : DirEntry := set0
    let n : Word := 1
    let k : Fin 4 := 0
    let o : Word := 0
    s.recoveryRuns k = true ∧
      s.offeredSet = some e ∧
      0 < n.toNat ∧
      n.toNat ≤ 4080 ∧
      o.toNat + n.toNat ≤ (setStream e).length := by
  decide +kernel

theorem hyp_recoveryMessages_3 :
    let s : State := water
    s.mode = .headwater ∧
      s.lanesPowered = true ∧
      s.setLocked = false ∧
      s.fabric.download = none ∧
      s.fabric.round = none := by
  decide +kernel

theorem hyp_recoveryMessages_4 :
    let s : State := { link0 water with fabric := { (link0 water).fabric with round := some 0 } }
    let k : Fin 4 := 0
    s.recoveryRuns k = true ∧
      s.mode = .headwater ∧
      s.fabric.round.isSome = true := by
  decide +kernel

theorem hyp_recoveryMessages_5 :
    let start : Nat := 0
    let best : Offer := ⟨0, 1, 10, 1, 2⟩
    let s : State :=
      { (link0 water).modFabric (fun f => { f with round := some 0, offers := [⟨0, 1, 10, 1, 2⟩] }) with tick := 32768 }
    s.mode = .headwater ∧
      s.fabric.round = some start ∧
      start + 32768 ≤ s.tick ∧
      s.setLocked = false ∧
      bestOffer s s.fabric.offers = some best := by
  decide +kernel

theorem hyp_recoveryMessages_6 :
    let o : Offer := ⟨0, 1, 10, 1, 2⟩
    let s : State := (link0 water).modFabric fun f => { f with download := some (⟨0, 1, 10, 1, 2⟩, []) }
    let k : Fin 4 := 0
    let got : Bytes := []
    s.mode = .headwater ∧
      s.recoveryRuns k = true ∧
      s.fabric.download = some (o, got) ∧
      o.link = k ∧
      s.fabric.offers = [] := by
  decide +kernel

theorem hyp_recoveryMessages_7 :
    let o : Offer := ⟨0, 1, 10, 1, 2⟩
    let got : Bytes := [1, 2]
    let at_ : Word := 2
    let d : Bytes := [3]
    let s : State := (link0 water).modFabric fun f => { f with download := some (⟨0, 1, 10, 1, 2⟩, [1, 2]) }
    let k : Fin 4 := 0
    s.mode = .headwater ∧
      s.recoveryRuns k = true ∧
      s.fabric.download = some (o, got) ∧
      o.link = k ∧
      at_.toNat = got.length ∧
      o.manifestLength.toNat ≤ got.length ∧
      got.length + d.length < o.total ∧
      d.length ≤ 4080 := by
  decide +kernel

theorem hyp_ruleSetSwaps_1 :
    let p : PendingSet := { pending0 with drained := false }
    let s : State := swapping false
    let n : Fin 8 := 0
    let l := s.lane n
    s.spindlesRun = true ∧
      l.pending = some p ∧
      p.manifest = none ∧
      s.swapReady n p = true ∧
      (l.trackersFree = true ∨ swapDrains l p = false) ∧
      recheckSwap s n p = none := by
  decide +kernel

theorem hyp_ruleSetSwaps_2 :
    let p : PendingSet := pending0
    let s : State := lane0 (fun l => l.modTracker 0 fun _ => track .capturing) (lane0 (fun l => { l with rules := (((open0 .readVerified).lane 0).rules), cfg := ((open0 .read).lane 0).cfg }) (swapping true))
    let n : Fin 8 := 0
    let l := s.lane n
    s.spindlesRun = true ∧
      l.pending = some p ∧
      p.manifest = none ∧
      s.swapReady n p = true ∧
      l.trackersFree = false ∧
      swapDrains l p = true := by
  decide +kernel

theorem hyp_ruleSetSwaps_3 :
    let p : PendingSet := pending0
    let g : Failed := ⟨.notAuthorised, 3⟩
    let s : State := lane0 (fun l => { l with pending := some pending0 }) run
    let n : Fin 8 := 0
    let l := s.lane n
    s.spindlesRun = true ∧
      l.pending = some p ∧
      p.manifest = none ∧
      s.swapReady n p = true ∧
      l.trackersFree = true ∧
      recheckSwap s n p = some g := by
  decide +kernel

theorem hyp_ruleSetSwaps_4 :
    let p : PendingSet := pending0
    let s : State := swapping true
    let n : Fin 8 := 0
    let l := s.lane n
    s.spindlesRun = true ∧
      l.pending = some p ∧
      p.manifest = none ∧
      s.swapReady n p = true ∧
      l.trackersFree = true ∧
      recheckSwap s n p = none ∧
      p.drained = true ∧
      (s.stolik.activations.find? fun a => a.lane == n && a.step == 5) = none ∧
      l.nextManifest = none := by
  decide +kernel

theorem hyp_activationFlipSelects_0 :
    let a : Activation := act true false 5
    let b : Bytes := manifestBytes
    let m : HostManifest := manifest0
    let s : State :=
      (activating (act true false 5) run).modWin 0 0 fun x => { x with phase := .prestaging, inactive := .landed }
    let n : Fin 8 := 0
    let w : Fin 8 := 0
    s.spindlesRun = true ∧
      s.activationAt n w 5 = some a ∧
      s.incoming n = some (b, m) ∧
      s.flipProved a = true ∧
      (a.now = true ∨ s.hostHeld n = true) ∧
      (s.lane n).trackersFree = true := by
  decide +kernel

theorem hyp_activationAdvances_8 :
    let x : Sel := .a
    let i : Nat := 0
    let e : DirEntry := { set0 with state := .writing }
    let f : DirEntry → DirEntry := fun e => { e with comps := (activeSet refreshing).getD [] }
    let rbs : List Bytes := ((activeSet refreshing).getD []).map Prod.snd
    let s : State := refreshing
    s.mode = .firmware ∧
      (s.res x).refreshing = some i ∧
      s.resWritable x = true ∧
      activationEntry s x i = false ∧
      (s.res x).dir[i]? = some e ∧
      entrySource s e = some f ∧
      e.isSet = true ∧
      (f e).comps.map Prod.snd = rbs := by
  dsimp only
  exact ⟨(by decide +kernel), (by decide +kernel), (by decide +kernel), (by decide +kernel), (by decide +kernel), rfl,
    by decide +kernel⟩

/-! ### Signatures of the owner's key, verified part by part (R166, R357, R358) -/

/-- The owner's LMS public key, and the identifier and number that prefix a signature's hashes. -/
def ownerPub : Bytes := (ownerKey.drop 8).drop 4
def iqOf (pub sig : Bytes) : Bytes := slice pub 8 16 ++ slice sig 0 4

/-- The message digest with its checksum, and the checks that follow the chains, of an LMS signature with n = 32, w = 4 and
height 10. -/
def lmsFull (qd : Bytes) : Bytes :=
  qd ++ beBytes 2 ((List.range (256 / 4)).foldl (fun a i => a + (2 ^ 4 - 1 - lmsCoef qd i 4)) 0 * 2 ^ 4)
def lmsRoot (pub sig ends : Bytes) : Bool :=
  false == false && slice sig 4 4 == slice pub 4 4
    && slice sig (40 + 32 * 67) 4 == slice pub 0 4 && decide (beVal (slice sig 0 4) < 2 ^ 10)
    && lmsPath false (slice pub 8 16) 10 (2 ^ 10 + beVal (slice sig 0 4))
      (lmsHash false (slice pub 8 16 ++ beBytes 4 (2 ^ 10 + beVal (slice sig 0 4)) ++ [0x82, 0x82]
        ++ lmsHash false (iqOf pub sig ++ [0x80, 0x80] ++ ends)))
      (sig.drop (44 + 32 * 67)) == slice pub 24 32

/-- Chains whose values stand in y need no more bytes, and pieces of chains follow one another. -/
theorem lmsEnds_append (iq full : Bytes) (m : Nat) (r : Bytes) :
    ∀ (k i : Nat) (y : Bytes), y.length = 32 * k → lmsEnds false iq full 4 (k + m) i (y ++ r)
      = lmsEnds false iq full 4 k i y ++ lmsEnds false iq full 4 m (i + k) r
  | 0, i, y, h => by
    obtain rfl : y = [] := List.length_eq_zero_iff.mp (by simpa using h)
    simp [lmsEnds]
  | k + 1, i, y, h => by
    have h1 : 32 ≤ y.length := by omega
    rw [show k + 1 + m = (k + m) + 1 by omega]
    simp only [lmsEnds, List.take_append_of_le_length h1, List.drop_append_of_le_length h1, List.append_assoc]
    rw [lmsEnds_append iq full m r k (i + 1) (y.drop 32) (by rw [List.length_drop]; omega),
      show i + 1 + k = i + (k + 1) by omega]

/-- The ends of the 67 chains in five pieces. -/
theorem ends_of {iq full y0 y1 y2 y3 y4 t e0 e1 e2 e3 e4 : Bytes}
    (hl : y0.length = 448 ∧ y1.length = 448 ∧ y2.length = 416 ∧ y3.length = 416 ∧ y4.length = 416)
    (h0 : lmsEnds false iq full 4 14 0 y0 = e0) (h1 : lmsEnds false iq full 4 14 14 y1 = e1)
    (h2 : lmsEnds false iq full 4 13 28 y2 = e2) (h3 : lmsEnds false iq full 4 13 41 y3 = e3)
    (h4 : lmsEnds false iq full 4 13 54 y4 = e4) :
    lmsEnds false iq full 4 67 0 (y0 ++ (y1 ++ (y2 ++ (y3 ++ (y4 ++ t))))) = e0 ++ (e1 ++ (e2 ++ (e3 ++ (e4 ++ [])))) := by
  rw [show 67 = 14 + (14 + (13 + (13 + (13 + 0)))) from rfl, lmsEnds_append _ _ _ _ _ _ _ hl.1,
    lmsEnds_append _ _ _ _ _ _ _ hl.2.1, lmsEnds_append _ _ _ _ _ _ _ hl.2.2.1, lmsEnds_append _ _ _ _ _ _ _ hl.2.2.2.1,
    lmsEnds_append _ _ _ _ _ _ _ hl.2.2.2.2]
  simp only [Nat.zero_add, Nat.reduceAdd, h0, h1, h2, h3, h4]
  rfl

/-- A one-level HSS signature verifies where each part of its check does. -/
theorem hss_passes {key msg sig iq qd full y ends : Bytes}
    (h0 : beVal (slice key 0 4) = 1 ∧ beVal (slice sig 0 4) = 0)
    (h1 : lmsType (beVal (slice (key.drop 4) 0 4)) = some (10, false) ∧
      lmotsType (beVal (slice (key.drop 4) 4 4)) = some (4, 67, 4, false))
    (hi : iqOf (key.drop 4) (sig.drop 4) = iq)
    (hq : lmsHash false (iq ++ [0x81, 0x81] ++ slice (sig.drop 4) 8 32 ++ msg) = qd)
    (hf : lmsFull qd = full)
    (hy : slice (sig.drop 4) 40 ((sig.drop 4).length - 44 - 32 * 10) = y) (hl : y.length = 32 * 67)
    (he : lmsEnds false iq full 4 67 0 y = ends)
    (hr : lmsRoot (key.drop 4) (sig.drop 4) ends = true) : hssVerify key msg sig = true := by
  unfold hssVerify
  dsimp only
  rw [if_pos h0]
  unfold lmsVerify
  rw [h1.1, h1.2]
  unfold iqOf at hi
  unfold lmsFull at hf
  dsimp only
  rw [hi, hq, hf, hy]
  simp only [otsJob, hl, Nat.lt_irrefl, if_false, he]
  unfold lmsRoot iqOf at hr
  rw [hi] at hr
  exact hr

/-- The message of `sigManifest`, its digest, with the checksum, and the ends of its chains. -/
def msgManifest : Bytes :=
  hex 48 [0x47524e3101000101940a0000700000000100000011000100050000000000000000010000000000000000000000000000,
    0x0000000000000000000000000000000000000000010000000100000001000000741ffa433ef6e753589366aff2a33f35] ++
  hex 16 [0xf3dd678201a7836bc65e3ec2262841f3]
def digManifest : Bytes := hex 32 [0xbdc69e9feb8ead3dfcdcedfc66b5be5de6fb1c6beeabfb2ee4021eccfd8dc5fb]
def fullManifest : Bytes := hex 34 [0xbdc69e9feb8ead3dfcdcedfc66b5be5de6fb1c6beeabfb2ee4021eccfd8dc5fb1220]
def iqManifest : Bytes := hex 20 [0x000102030405060708090a0b0c0d0e0f00000000]
def endsManifest0 : Bytes :=
  hex 48 [0x5739d1e661effbb59e78147cd657e85ce0f29a52d341ce8524938add0a7c61bdec883015ccd022440a493f111d1a188a,
    0x20640bde1050cf0b0fa88b94349fd8a51cedeb0c82153d9ad13075ee531a791342d17c088d72e049902aca1dbaa7b8c8,
    0xf398c84ec5c1c83a4e6a8082a2b877069194147e9fe3fee70ebfa1379961f0593f1deca248f2b3d2b36c7f6b10923c51,
    0x3eea13e00d1f9fac9e282556ec2c18ed90282303a023ad8f527edf83ca8427c5e1eddb715740621808edb4ca05298343,
    0x3a1b9c89af68e621577194d79966f187466c996f5cc855fb16afcd40330735dc21913bfdda2ec56fd1b24334504764a1,
    0x232df2c02f0f63f2cae40ce948f4b3acbf35a8f65e4b65c5437fe740b4697e4ce2238c5c87d7fe80568333487c455f8b,
    0xeb2cdc84fa5ed9501e9a6e2eb92be761a35cf4544c285612c01e2b111fbf8006ed085a14fd241bde06eb705d7b28181c,
    0xe642479787cde8b8650d099b482997ac57090a4cdabeff94277d5239adaa87e36a83dbb7a1eb047a46f633157916eb62,
    0xde12a9b7e88113fccc129d1aca336826a6b4237f3b593ea4fd477c9f63b9973b03a914bf3e94ae3071ac51bb6e7c59ba] ++
  hex 16 [0x8190cbd7768711550e29dcf9ab2d73cf]
def endsManifest1 : Bytes :=
  hex 48 [0xa311b4f2a542bf60900c16ca70e1458b106868c6631f80049734e819fbd8c60e6ea67a9510785e7dcdc7a504be9be0d0,
    0x6a5e5a3fe6ef9006281a594932c12a1590e9a491669c77a1726a21341813ac3d317fbd5d0bf209ab8183fc6d24281c7b,
    0xfa225e31bd1701bc7135b4051684dbf5b9d935937999ede5bd8c4b612c896c7195dc3ade341649c8597bdcf048b8f08c,
    0x674dda8c7728f14b290cae3f19051e76d61c3ab4a6e009f9750f40cbdb49fc8ddeafd3de04fb73ac037a21967c4e8ea8,
    0x36ec0817c68133aea3f120bd88cb6251ad6b2c65d6236bb4fa3ded9e41b5c58c834dcfea16daa41b38bde04803dfbee1,
    0xf2ebf1e580f0285b1fd6fe284b051bc44b081481190fd17a41bb5bf8f6c232e8bed115bbc41f0acdc4a2949a4930740e,
    0x8d7b0a81e9deb7a66b25c6a129c5b2785662b0319874c01ea06b7a35c4dabfa5278ec657687bf8602f9835d4f3ac5287,
    0x921542116f3874c8fa3227812524c8ac3289c800ebd3239072f31eabd1279f35b5b47b0bec8e1cf90b9addf435d73d7a,
    0x3a320cfce590633626363daabea66f7814234ea2fb4727bff173773e8fbe5142cbb23b1190ff732c15995193e3f1f4b5] ++
  hex 16 [0x42dfdb0f8c6214ba5f7a9302d14baa5b]
def endsManifest2 : Bytes :=
  hex 48 [0xe681399c929efe350227ae122760bc76a62480c0d2bb68d8d57093e514e6c6a4c2f6b9c41edbea8623e5a5a8f3b6ac45,
    0xf3914caa6551e98da6618d6517316933ec5dca15d499a05baef66bf09bb0b65abb689f1888a1fcc0bb841a3fdc788651,
    0x425dc089d932f5b3f529449aa4a39e0cddd41c58621096b06ba4254dfc235268ffe52c4654d4768834958339c11e5581,
    0x81457f6a0084253a760735c7ecc50addfea5d80fe15f9da3e859d5ffd0555643b36968acda5e74915dde1086e93d05a8,
    0x3e813d161cf5396bf55172c73c1f4a69c11587842b546938bf85c0811a683ac14adecf1cd1b949c26e6ec8583f66db30,
    0x10391977b706436df61eea968b2a8b95b8eaea87dbb86ebbed216d87b99ef9735aff030757fd7614765988f779c5c789,
    0xca82e70cc2bd6ac230f8df599e576ad29e72cc277816b7db897cf62f02a3a3b8d4736955827cc463f7a13d0c7579b129,
    0x50807e331a3228505fc319e237a89cb8c7e3322c3034c503c17acd86844601d00ea9fd088ac3e443c3fd8ca312db45e5] ++
  hex 32 [0x3d15ebca3cf873aa74e2c9df814c4ab0641c52f09f45fd936279f46efef418dc]
def endsManifest3 : Bytes :=
  hex 48 [0x391f50582e29db638ec6ea500bffa93bc089b77a002e007811272c00e5c034069ab9761183cfc9649b0849706a1794f7,
    0xedfc70e93d5ba636860b37a4490056482e704cf875effdd977707994396381bd73463a87d593377ab7ec623a97030366,
    0xe245d6b44882f053326471ca3a16f0fd2c57e61bf0131df75dd453d82c7856a0a9848576765c28dfd59b7ff63e2e3bed,
    0x15f30c0209533cdf4e23f24a5e3617618844199288be20e6bfd105aafa68a311b9940f0b2d2c777e8cea45432cc10d2a,
    0x37803a0f2d6b6311475a6dd3f61bd5c1d6acec5efe6b682d802b6e6450eea914cb96008984053037b758edda89383694,
    0x5f930c253303673f7a824c7d824fa38c74ad6ccf71c08be72c89cb7c13e558733c8c32ba726328523570b78f6be43692,
    0x85b105168488530233792a84d2efd5a6bf7915f65314ffd2f781b0921bd45c6431dc093ef6f5cd409e49cab069836349,
    0xe6878297ea4bb5a055e3fe08a9dfe3362d42a5134e66bf47d0732bc8ac0cdc78a60b0ff08489b342ea22aeaffe85441f] ++
  hex 32 [0x544eb3747bd0e6c114beb16691146dc7613043cf3560fd6ad1a027b6aba815e8]
def endsManifest4 : Bytes :=
  hex 48 [0x2e24f3d932176b2a139f26eca1dd8375b4dbc16b57b53827ff03782d8a67fb1206340d375b20f1ff944c180e0b9008c5,
    0x34c20379c1b7ad1bf4a2884b682ae93d8ac0c0f4a4510d6f2d4d1df4f5438c66548f565e1925a0fd327bdaecedfed22d,
    0xb77ebddcacf5acbdccdf53490e932b7c1c68b1838ae67239fbee221b44bd4919fd99a82242fd2417283353376596d537,
    0x76d6ab4c220cdfb7b6555e1b6e557f634bf91f77d5bd9b3fb55c39e4864141140ec5f3349a137f521f3187497f48983e,
    0xf136c2a4c8acbc775ecb2fd2d3db1c4d3cde0e73b611ef83e52ff4138a975562f39ebd32c3c1fb6d941d20e3a30547bb,
    0x0352e0bfca87cfa913523d5112beb463dc823c47d1e2b62c11801506996c1206a24e4e1f0eacbf0dc892eed90cab026f,
    0xcde51503d0b791324b52f3e5cc5f72966bb9fc1b95aa825838e64fc55b4ca3d216d309cc7ebfc2ad9e672a0940db34e0,
    0xa8cb8205cedaaa8c3c6045988eb4d28373060ca9e86faabcf9b40545972f772ba4f9c0eb11a5eff1d8b947a44534846b] ++
  hex 32 [0xd6097e9919ccc98fe4a2d77d8e189ee621e9943bf08ace6ec62127fba4b7206e]

theorem sigManifest_iq : iqOf ownerPub (sigManifest.drop 4) = iqManifest := by decide +kernel
theorem sigManifest_digest : lmsHash false (iqManifest ++ [0x81, 0x81] ++ slice (sigManifest.drop 4) 8 32 ++ msgManifest) = digManifest := by
  decide +kernel
theorem sigManifest_full : lmsFull digManifest = fullManifest := by decide +kernel
theorem sigManifest_ends0 : lmsEnds false iqManifest fullManifest 4 14 0 valsManifest0 = endsManifest0 := by decide +kernel
theorem sigManifest_ends1 : lmsEnds false iqManifest fullManifest 4 14 14 valsManifest1 = endsManifest1 := by decide +kernel
theorem sigManifest_ends2 : lmsEnds false iqManifest fullManifest 4 13 28 valsManifest2 = endsManifest2 := by decide +kernel
theorem sigManifest_ends3 : lmsEnds false iqManifest fullManifest 4 13 41 valsManifest3 = endsManifest3 := by decide +kernel
theorem sigManifest_ends4 : lmsEnds false iqManifest fullManifest 4 13 54 valsManifest4 = endsManifest4 := by decide +kernel
theorem sigManifest_chains : slice (sigManifest.drop 4) 40 ((sigManifest.drop 4).length - 44 - 32 * 10)
    = valsManifest0 ++ (valsManifest1 ++ (valsManifest2 ++ (valsManifest3 ++ (valsManifest4 ++ [])))) := by decide +kernel
theorem sigManifest_root : lmsRoot ownerPub (sigManifest.drop 4) (endsManifest0 ++ (endsManifest1 ++ (endsManifest2 ++ (endsManifest3 ++ (endsManifest4 ++ []))))) = true := by decide +kernel

theorem sigManifest_verifies : hssVerify (ownerKey.drop 8) msgManifest sigManifest = true :=
  hss_passes (by decide +kernel) (by decide +kernel) sigManifest_iq sigManifest_digest sigManifest_full sigManifest_chains
    (by decide +kernel) (ends_of (by decide +kernel) sigManifest_ends0 sigManifest_ends1 sigManifest_ends2 sigManifest_ends3 sigManifest_ends4)
    sigManifest_root

/-- The message of `sigPolicy`, its digest, with the checksum, and the ends of its chains. -/
def msgPolicy : Bytes :=
  hex 48 [0x474c503101000000340b00001001000001000000110001000000000000000000090001003200f1f2f301020300010000,
    0x000000000001000000000000000000000000000000000000000000000000000000000000000000000000000000000000,
    0x3c0000000100000000000000000000000000000000000000000000000000000000000000000000000000000000000000,
    0x000000000000000000000000000000000000000000000000000000000000000000000000000000000000000000000000,
    0x000000000000000000000000000000000000000000000000000000000000000000000000000000000000000000000000] ++
  hex 32 [0x0000000000000000000000000000000000000000010000000001000000000000]
def digPolicy : Bytes := hex 32 [0x9a7c6e9e6fde336c7fde77d5f7c8aedef6acef89fe6d707ac3c814eabcedef65]
def fullPolicy : Bytes := hex 34 [0x9a7c6e9e6fde336c7fde77d5f7c8aedef6acef89fe6d707ac3c814eabcedef6513e0]
def iqPolicy : Bytes := hex 20 [0x000102030405060708090a0b0c0d0e0f00000001]
def endsPolicy0 : Bytes :=
  hex 48 [0x8215db988db21f556f37c1fcdedb3cf0ac97adf68a6ecb885445e30aa3e60b377b195b421ddcff82ebb9736427b40846,
    0xce12dd4667eddb2542f37708881fa547eb8f1a15d0be70e3b06fce1316eb1233846a02246b9d9aeb578e9ebeb5e81395,
    0xf424d896ff70cc48d0c5ef9a1da3fc30dead4965c9793c172ff758a427ebc87c255cec49a16f2f620cb6254fd484a061,
    0x4c5cd0b610c66dbfed8959c936927bd04d372dda50aee8093288e0411e3722a83b346d70ec6ec203e2b9d93e832eaab4,
    0x7a8eb1cbc3fed55de8bdfd58e17c74869a824cbb12599fbc4ba9dba545754d3482cc36a3284952d6b55a6d423dc0de4d,
    0x3f91650229d6b5a3213b285f5bc5d815a0799bdd41df2342ac24a6f91b383ad17282d0eb7a8a2f15054579c65d0eff91,
    0x33215c803a4b58a777e9ed875d71859f6205e6b05c459e3c5e94e5166116bedc3c6979de359bace08f97b097f6f60b18,
    0xc560bbea26794be6a9b56e147169664c9770640b6ddeb4df84080a10e0486147ad3c1d9af8763aac2f1134feae2443e5,
    0x8d1bb587b21f4e65b0a7ae88442d05391a6406893efbacd6437bcb5c5ccf33955f2e926ef40ff15f421103cc20b97b09] ++
  hex 16 [0x0d46e59b973e120bfa8028cc06820270]
def endsPolicy1 : Bytes :=
  hex 48 [0x79dd6a6c8d2861278cb6404ea4fd7bd8937fc1b6886964c48fde6aaaad06bea5af7af65ec54c391d94a84db52448b28b,
    0x71778020b329d078a075846a11b92ba92a5728b1df85d2b38b9d1812c4f87187a29d179d1cea6047cc104ee3c2dcfdd5,
    0xc48f006fefff1652c69b44776dfb419c260c0678233b34db67f1096c1611b6b85f8b3c757f954b0775695a0fab354aa2,
    0x5c6289a42791ea1fc36be88b6ced4a83dde957a57c10bd619fac0636feaf43d6103b87f1499da336b1eb66ff794e207b,
    0xb70ced3896a48ae2f8657578357983b285933359607242bd15cf695215fd0a96df69da6757e3c87ac24a43f1048b1ac3,
    0x9759ec68d9cf4f72179ef6cde3a9af8d7b58a7c9e1df142ca4e67917eeaa5a55d01f8b87362aac42a8fdb55306283b20,
    0x26476afe47f8649b82a269219b757b5467544b0a947beea3726c58a8747cc37df419c066ef8347503e43c3a70bdd09c5,
    0x36e489c01a3a476b0a89533959154d7a8fd8c64781ac69de5ffaade340d8ac8ea9e1e064ea95f741d7e509406084b52b,
    0x8f693d9750b125321f2ab9cebf7fa3ac7fb5b5f6fe002ace4c934a5e00656803471132bac43cea203d88963e218e0ccb] ++
  hex 16 [0xba899bd8930993df979fdf5d620b4ee8]
def endsPolicy2 : Bytes :=
  hex 48 [0x05c5328d4b7e005904413316b3e0dca0b854aff891e06928144c8ab79577796151171014c7d58325565dc06302e312b4,
    0xfc89b63c6a79e6d3f9dc48a2aaddb6a8c4961ba435b67c63fd6fc74fc1294a3fbd9a6ac5187b29dc3bfa358683776918,
    0xa9f2d5f2194477bb1e202a3ccc3cd663bfb13a2cf0d2ea6f1cf932cf0eb4080a60055162d5212e263b3ae46719ad2e9f,
    0x4be3ba050a4606138712e1cc37779cd295aca6e86d7fa936392237b81b204a667df3c1d6a840418696268f2f65a55b41,
    0x5f11c91efb5fd59e270095e6ca4b191301d4de797c4877fa9473800365ff0129cd9145470882a3f1b13cdde354eaf4e6,
    0xe5c0cf2c9956aa7804790af4e42692a548b42b3246900782caca7d4a0a28e6f3a0a4c3fb18371c51494f558cbda1e613,
    0xb20406aac9a68718da7c61e70a6748e439aefebb9e1069e716842b87faf6c67673b9b9d93da533d5a06630edd60c7a11,
    0xdb00e9f0197e2181f401dc88ad8ba6f5dd243d6c101ae29aec7072d9c65c5f64a820b2276dbda309f817691e3375835e] ++
  hex 32 [0xde6f235566f3e7c0b4cc3e236e79027f3d551389c6afeddfa26ef08a73acd1b9]
def endsPolicy3 : Bytes :=
  hex 48 [0x42889f7d6ff002b81855fd2317b0d9ec7df58103015f3f7f4aa26db703c494de0e1213658e6670131f4b0a122ef55004,
    0x954096a0bd5cb709789c135a77aea62e857636b9a9af1f119bbd9ac6c6a76f114422dc387dfed17389442c6e26b68c34,
    0xda0f32bd4dcc3c7ce1057222c20409b356dead50c8e9d077c43ac0d5af726066066895857746227b01b69e015465b37c,
    0x5bce80c056c4de839c7380da4b56efac54a2a8d241ad5be25f3171c3b19078f709243b23343003c676d27683ea1be2b7,
    0x5560e53ec654bb72e072b68ec8669816d609dfe9f34fa7137929063401ce774e68a72cae2b2ce75a484d6d067e3973d1,
    0x9378eab2310b423d99be5eb631fedffab5bfd87270111a2f498273b89be1b567e879450329c1a96bd0988fd39a9adf79,
    0x347e6bd44b1c421f4d3abd627059c732bea87465f8a176e6f606cb028d0dbcb42783beb607c6451d81f3d799944d63a6,
    0x28e24a939bf2c0212df2a2ef80d78c2acc1951872e881e20ba2803ad4673b11025c9791e3afa28fd94e454c6206969f5] ++
  hex 32 [0xb34a631a8f641c2b9b9582ff163faff82a6a922772462de1d1717b77d9735694]
def endsPolicy4 : Bytes :=
  hex 48 [0x5bd0c0493f6fd3527916a60df2940ee0f8d8e8f1969ebff8c2a5a9aae3f0a08f2fdb9b17c680ee0598c907fd36125779,
    0xf112750cdc82989f294b028ad37a67cc58679ee27ff322231299e0e784e0bc70659bacba5ba4c190bd677c954eef5cd9,
    0x223ba150f4975227c38e66cb7204de732f5a52d078271fb1378d34b4e4f03187726b35d783a5d5979084f9755162f818,
    0xa815420642af824ce87f519684567b710074f30cc3ef68e673bcc3813f770eb29cbbf6ab0180e95c162d6b02e02999ec,
    0x3ade72be97a79fae55719b8902cd051d847aecda251a29c2c13643342f707413c20b62b5714ca0ecc033d91e4d6e824f,
    0x5625fa037e4193331a6f1a4a6a7d6a93b7b5ef43d61d5e3791a9d57dd12f0e8ab3bf6657fc041ef744734e0a18bf1fef,
    0x4f9b65e3f3c3b2dd0051509a51b4590a9c7c5bd150916eb71e24cc28df9e7658081bfb995772ec27d027c9369b221842,
    0x4bb6748b2d1ea5ea0fc8e470de4d4d19d7da5c7b35f9b937783386c3d042fbd6391b19bc529e8633b5a758e9d9913f46] ++
  hex 32 [0x46baff0fcbc5f756f2ad7016279234712af25ee59ae0cbc5ab5265b3907cd236]

theorem sigPolicy_iq : iqOf ownerPub (sigPolicy.drop 4) = iqPolicy := by decide +kernel
theorem sigPolicy_digest : lmsHash false (iqPolicy ++ [0x81, 0x81] ++ slice (sigPolicy.drop 4) 8 32 ++ msgPolicy) = digPolicy := by
  decide +kernel
theorem sigPolicy_full : lmsFull digPolicy = fullPolicy := by decide +kernel
theorem sigPolicy_ends0 : lmsEnds false iqPolicy fullPolicy 4 14 0 valsPolicy0 = endsPolicy0 := by decide +kernel
theorem sigPolicy_ends1 : lmsEnds false iqPolicy fullPolicy 4 14 14 valsPolicy1 = endsPolicy1 := by decide +kernel
theorem sigPolicy_ends2 : lmsEnds false iqPolicy fullPolicy 4 13 28 valsPolicy2 = endsPolicy2 := by decide +kernel
theorem sigPolicy_ends3 : lmsEnds false iqPolicy fullPolicy 4 13 41 valsPolicy3 = endsPolicy3 := by decide +kernel
theorem sigPolicy_ends4 : lmsEnds false iqPolicy fullPolicy 4 13 54 valsPolicy4 = endsPolicy4 := by decide +kernel
theorem sigPolicy_chains : slice (sigPolicy.drop 4) 40 ((sigPolicy.drop 4).length - 44 - 32 * 10)
    = valsPolicy0 ++ (valsPolicy1 ++ (valsPolicy2 ++ (valsPolicy3 ++ (valsPolicy4 ++ [])))) := by decide +kernel
theorem sigPolicy_root : lmsRoot ownerPub (sigPolicy.drop 4) (endsPolicy0 ++ (endsPolicy1 ++ (endsPolicy2 ++ (endsPolicy3 ++ (endsPolicy4 ++ []))))) = true := by decide +kernel

theorem sigPolicy_verifies : hssVerify (ownerKey.drop 8) msgPolicy sigPolicy = true :=
  hss_passes (by decide +kernel) (by decide +kernel) sigPolicy_iq sigPolicy_digest sigPolicy_full sigPolicy_chains
    (by decide +kernel) (ends_of (by decide +kernel) sigPolicy_ends0 sigPolicy_ends1 sigPolicy_ends2 sigPolicy_ends3 sigPolicy_ends4)
    sigPolicy_root

/-- The message of `sigOwnership`, its digest, with the checksum, and the ends of its chains. -/
def msgOwnership : Bytes :=
  hex 48 [0x4743413101000100840a0000600000000109000000000000000000000000000007070707070707070707070707070707,
    0x07070707070707070707070707070707fbab792dcda22e7fec575cb043e59ca073a759159d90bdb9300db1f2e8225fa4]
def digOwnership : Bytes := hex 32 [0xccde6faf78dee58f6fdafc043c019e5f6acef8bbaa8ea1cefcfe8f1bb8af4b4d]
def fullOwnership : Bytes := hex 34 [0xccde6faf78dee58f6fdafc043c019e5f6acef8bbaa8ea1cefcfe8f1bb8af4b4d1380]
def iqOwnership : Bytes := hex 20 [0x000102030405060708090a0b0c0d0e0f00000002]
def endsOwnership0 : Bytes :=
  hex 48 [0x64670ab7f2d77b995b70f3fe8f9b422099ea1d74e3a5e25fe9cb22b18c59d9fb4fab1a47a909dc5239c696e24a70589c,
    0x15bdf8da2bdeffe9ef800807b2cfd4c2c5b0cf50bb1a8f5ff70dac4397a3a593b61816c979ed756e7860218c4e08abd9,
    0xd01cef973b55f41c6760eb833c7f476bd528c76bfb9928ec2173f463d9dc1f92b7b20413ae4774f1e868d63bc19d93fb,
    0x7d37dbcdcae6327142be6e08dd1a3f0f5b96cd9300359574ead601ba6e65d6bb50790ce6776d85461e9b3ba405fcf958,
    0x2af7fa1da6b524bbcf5574cc6353bd1e534bce56286837d6c51df595a05c83f24f0f39b43d93eaad96b4f59c8b60c52c,
    0x0e14d087ec18de473e1f6139005f8e0ff828c9dbcf5e234685864995312886af9803342a8d116e806f471416f25d290e,
    0x3a0a26d4cc6c24b3bc04889c85252461058252ede5321dc19fd015452b5b9201bceda4c61f12e1c206037c467979b666,
    0xd55020e89e170ecfa63bf69385e4794f0cf558d405ae7451aa78fc03e673391a629a56c4d26d543a4b622638277ed620,
    0xf277614fd40890e9030c37d7fcd5aa4dfc192aa5517b337aea1b5d3ecc67bce7d695f69e213f1a307f10877e108d2bad] ++
  hex 16 [0xbc233f57a419ea60ff238340b130e7c0]
def endsOwnership1 : Bytes :=
  hex 48 [0xf3b3b42922b4c701c1983317936624cb9497ba2923ac9bdf987a99a0c297e5500a4b1f0bff91294e2458b0e3d0f7c117,
    0xbf54bffc350f748fbc9bfdbf587e40bc44980dc4bbe5c61f21c4798df95401292a7062727a9cd20cf455021ab5383879,
    0xdaa40f69c7d29ccf8f10322c09b2008f07fe143cb5dc77ffc2995d8efe092af3187d0eabe3347b7a5f196756dff55eb6,
    0xbc955ad5a8ee2e1d44e476de0756c4b3bb057176c4a0bdc03d0d591a062de4363decad5ac0f243fa6134e6be3e224b06,
    0xf3b7d6f85dc118048eb377fe4dc47032e7f1507bfc1cc73f2435f477bbfa9ca810d8d14d7dd50e0a19fca8878c981b27,
    0xd1911caace1a501351ca9f9e78228634cc5f31a16aaaa9c92804b8a438ae3e5a12ac020ec60caffc0e17bf71a18d85f3,
    0x305f16ef48dd70acef6dbd651b9f31879ba625840040aced43ed568e210d239de961fb140370d6b8fe17ba69f90f34fc,
    0x75de8519d8c6f028d1336bad07df65433263bb0d86ec9c1a43d6f85018a8e81e31cd52509b30f637949eeb869a5282ec,
    0xe08894f2b57d0e9e7318b1be9149bd1c20a1e830efe0860d972a6907444c4ba81fe5cbf3df6e32cafa88a121baa269db] ++
  hex 16 [0x1f52be5a94009dc33ac9d8d315e62f79]
def endsOwnership2 : Bytes :=
  hex 48 [0x0244c94dd2fed5d50570bb636cb888070adb2c3b8289eac6f1e71deef8160ff35a23cec879031adf74bf6940b3287d9d,
    0x687a327a2caa6e632f5b94f24408cb319ccf65679de9457493fd0c8601629030aadf58b2e1c35c9756959fad77d8fd9b,
    0xfaf5fe3ba51573bd2941d25f3f2000cb8846ec792da8c22cf96422812bdab0df4cf22eb02a41281664e80813dcfb5856,
    0x012881f9002945b0fea433303c545ba6c8173cbaf1d50a1adead036d90e056f2af7a3db9fc71eb54c2eb651d42d1c4a1,
    0xa949bbc1f2c7f34382783e3f700195b6145156b40cbb9cabf74ec9a9f3d9f85bde036a9c9d35848fab97aed41c9ca6ec,
    0x3596e7b96de304262c2fe3050093e5e1ec5d6ecbd0d599d184eab10d2a21e0c47e65f69fc733997e9b93bf353da99b60,
    0xdfd2953b1f598e64d4d4eb364e12f38ac7263b4683c80424d8ca2cb3b7f5800d46f10a421998c1a02a54f5cf26a0d12c,
    0x7767dc410e575d997e20ab50640005151fe9876600d51538ba063886bee0fac6a800b4dd50e1e13f8c962b827028d047] ++
  hex 32 [0xcbdcb9ade2a2c619d2485e630973998e7fdbca3c0cb14b4e81837c1e9f081cb6]
def endsOwnership3 : Bytes :=
  hex 48 [0xd8180501eb68f3f2a29cb87bc663f0c2a59c7daf2280d6deb32ac8416ee812b167513f59b5fe38cdca237ffdd569122e,
    0xf0299c233bc378ca0d0465ef793a30c3b4f91e64132ab86742bc02815e1641f0751ac58b569feceab4933c552e11f25b,
    0x851db8841db29c495b29a9078edc5837f3d9e27183a773eef8a8dc8d311eb2236837779b89421b6034d3c0926a528350,
    0x82517d17a1e1c061f8bc055c516bc06e5e17560cd0bca39eda271da46e1521dcc282ba4bfa7bb061321c678f04338d45,
    0x190a189b2191847e9881ab939c4a15ea7fd576040a4a222bc3b94dcdbc9e559eed9f22b9004cd325a11cb82c25f12341,
    0xb96458dc5fb81628f44229aa720caaf818d3a8e5eb368a89f453f5667b24788550bc134accdcbb12717dc2614ddc70ab,
    0x16e0697e544211be0a9dd5563c2f1b06ca69c63b9d7539fe7c647d916bda20d25f03511346df51fc3b8e51b1da9049e0,
    0x04f5dd3842c32f668751867f9a6bc261bc52e64aaa5ed1fcf35ff48ae1b3f771748c0360f5eb6bf938209ff23884e60c] ++
  hex 32 [0x3b2ae385f62631206061b222f9788160df3f3565d9ccb981c8142c0b8b4709f8]
def endsOwnership4 : Bytes :=
  hex 48 [0x33d050e38ad6d8ab34e3174f170746eb4736cc19213fb6b1a42ea9c5a47c22c552cbb2fc566d1b4a154000b48ead9a84,
    0x4a0bcd97b9be7f2091431d112caa8627205596cdd6282505a355a727c396c62b1cdcc91e9293e729d6586fce3dc51c6c,
    0x3e59c729e55c5b9c6ed71c2d614c9f5a138102b646d0e45d242f5672bdad8fb08f0cf7ea8369f8f4b3bc144be8f25b01,
    0xcf6ab02efb90af5ce6a18720e5b12a7dc5807df58098ec62efc1c7df1923039911886d145ebba06199d079dd016c7da1,
    0xe94899351bce4fd2c97344492a5ac119cbae6da95701e4fbf55076d0883f2871e72ee87f98d4b2e657e7be82dfbd5df0,
    0xc20511f9ad94a6952e06c5ccbdede07ed1fda763cc0c488c95abf2c54829fe3700d693adce5c2d42dd754c215b6db36e,
    0x601cbeb3ad5fd26b30897c68d01f260ee1622e96f1c4ecc81e71e2c1d475a57366f64d957864f54f673580f0ffb6d11a,
    0xd8485d0c3a8289aebb3a7ee491e8da7ecc2157565f56fd53a7a84216ef67c8691f5fdca65c3a00cf7629e2b2963174a3] ++
  hex 32 [0x8d29e52daf5f7468825c08f363d6a438f3f6ba337e59dd4392bbb1ab2657d3bf]

theorem sigOwnership_iq : iqOf ownerPub (sigOwnership.drop 4) = iqOwnership := by decide +kernel
theorem sigOwnership_digest : lmsHash false (iqOwnership ++ [0x81, 0x81] ++ slice (sigOwnership.drop 4) 8 32 ++ msgOwnership) = digOwnership := by
  decide +kernel
theorem sigOwnership_full : lmsFull digOwnership = fullOwnership := by decide +kernel
theorem sigOwnership_ends0 : lmsEnds false iqOwnership fullOwnership 4 14 0 valsOwnership0 = endsOwnership0 := by decide +kernel
theorem sigOwnership_ends1 : lmsEnds false iqOwnership fullOwnership 4 14 14 valsOwnership1 = endsOwnership1 := by decide +kernel
theorem sigOwnership_ends2 : lmsEnds false iqOwnership fullOwnership 4 13 28 valsOwnership2 = endsOwnership2 := by decide +kernel
theorem sigOwnership_ends3 : lmsEnds false iqOwnership fullOwnership 4 13 41 valsOwnership3 = endsOwnership3 := by decide +kernel
theorem sigOwnership_ends4 : lmsEnds false iqOwnership fullOwnership 4 13 54 valsOwnership4 = endsOwnership4 := by decide +kernel
theorem sigOwnership_chains : slice (sigOwnership.drop 4) 40 ((sigOwnership.drop 4).length - 44 - 32 * 10)
    = valsOwnership0 ++ (valsOwnership1 ++ (valsOwnership2 ++ (valsOwnership3 ++ (valsOwnership4 ++ [])))) := by decide +kernel
theorem sigOwnership_root : lmsRoot ownerPub (sigOwnership.drop 4) (endsOwnership0 ++ (endsOwnership1 ++ (endsOwnership2 ++ (endsOwnership3 ++ (endsOwnership4 ++ []))))) = true := by decide +kernel

theorem sigOwnership_verifies : hssVerify (ownerKey.drop 8) msgOwnership sigOwnership = true :=
  hss_passes (by decide +kernel) (by decide +kernel) sigOwnership_iq sigOwnership_digest sigOwnership_full sigOwnership_chains
    (by decide +kernel) (ends_of (by decide +kernel) sigOwnership_ends0 sigOwnership_ends1 sigOwnership_ends2 sigOwnership_ends3 sigOwnership_ends4)
    sigOwnership_root

/-- The message of `sigLife`, its digest, with the checksum, and the ends of its chains. -/
def msgLife : Bytes :=
  hex 48 [0x4743413101000100840a0000600000000409000000000000000000000000000007070707070707070707070707070707,
    0x070707070707070707070707070707073d1b6ffd91543c8af45fd1ac127135bafed7d2dfa230ab869660fc36dba9ae59]
def digLife : Bytes := hex 32 [0xabed9e1fb9ff21e8a5cefbd4e8eefd98dc9e96acc38717dcf96a7f6f8e5ee294]
def fullLife : Bytes := hex 34 [0xabed9e1fb9ff21e8a5cefbd4e8eefd98dc9e96acc38717dcf96a7f6f8e5ee29413e0]
def iqLife : Bytes := hex 20 [0x000102030405060708090a0b0c0d0e0f00000003]
def endsLife0 : Bytes :=
  hex 48 [0xe60f1c8afad12ff32656fe576d02d52c78ec68cbd2938f6ad770ed2caa35cb24b2d135c4c11264aa232e1e9e96e561ce,
    0x0f2d71518cac64ebe33216c17cdd818200959be73c314bf90c52702c8f067bf7301ef4b2d48ae5b559799773c9debe77,
    0xb3f7cc27e8b9a4e29c8e5e1c130eb09b252520d55ae697efc11d4683a38955635e8239eb151101eed7d1b4d45f5fdcda,
    0x6a957e50dad868506b1b60bed76ace93ad4610f7bbf8bf40070a9dfb3c3a1da87fddf06651e2f08a59e8cdda200ad20e,
    0xc6d38971d111524d04558d95e5acd34f66476d5af99ca3b6a2f07dc48bf272b5872839a13835b1c863007e8d4b108716,
    0x7d6e49f15eadd73b45823c5c22d8e4104c52fc7b3a35b4c523d29526a785b6ea430a9827639a4cc234db1b93d7d48f8e,
    0x0db6242a9dfa8b7caf79c2ea186f75c0b76c465e2b818cbb106270075e0b5942d8370c8159809e86ae35356fb36b5e15,
    0x265755d9665e28f90af748753e5b85525f214de27d50ba4ea7391d94aaaa5c37576171f1fdd1310aeb59b5fbb55581b1,
    0x3efca82658ce3e5cb5b0761fe40e17f984614c966ea9ec4d7609aa7a3eca7c23b6c24e599dda783f1c810acde0258965] ++
  hex 16 [0x49240b65f5c7e173563c388d90971bc7]
def endsLife1 : Bytes :=
  hex 48 [0x1a069a43199cf0b34ce59f70b1eef3739564945e28e5a1c61706d9d4485eb2f565a7e265b94a6f88bcf64c3012efa69e,
    0x910bdc276afd72259ece572ca74e36fb6c9ea8d719db52f5b66881164684432f4364fd8388dc097fffd67b0fa2e53328,
    0x93a57654aedd794cc26245dfb9b085e4cfc922c44087014cb59877ec831e4785f01b8ed78ebb3b90c6ffc0a4ee93153e,
    0x8a2f9726808679d1c17602f7ca9baeba9ee14045466159c450d66050d63085ce7bdf57d9826c810d9cec5c9a0e0e3a27,
    0xc911a405bdd06756fe6ff71f6ac1dfe4d5fe385de67f9620d6fb8c815798d19c4164ea085efcb218dc02594af1065f94,
    0x49a28787b83bf20071c42447f86e6b43b6b56f238390c2d229dee9a7108c7e09c8c06f84e278778e5417664c960c4271,
    0xe6af55d740413d07485f0e42d5b98679806c9f20a931a8e2c3fe28e51d8d7a45d857f85b5ee1688b6e58fdc01fa7f8a5,
    0xd6421c87b8646764432a1290da9980d458c5809057bf54df6a47be7dbb737b0adff751f87e8caf60540626c74c94fb52,
    0xac726c2077bcb5850513476313af589f1e5412898aa4c467ab7ff03a1fe237a71bf2dd685b199ef728819655c405d2cd] ++
  hex 16 [0xe9742e5971b3755c489ed273c626fb82]
def endsLife2 : Bytes :=
  hex 48 [0x3098b746c0d1ec7a4ea827c4a3dbbfe8463ce2f120be6d476a2cb98ed100720fb817b5516536707bd17909bd0da88b70,
    0xfa39769f5dcde0c0c27fbbba5952efafee28bc594ec7a504f395eb584769437e32b2d81b253f0d72c7a51f93f5a32854,
    0x8398cc79d5ef2ea7eeb8a87ed8cf0ba3b863c170c172443a5b4481c8376aaa6510bfb895be9c2a559413e343b801cbf9,
    0xde77713d01864262c95298c9b2caf71bdb6416e167b878780f1c4b8d7221c388cc8dda378c5abf89673f43dbe6e542e2,
    0x61ba5f7920f29da2abcdbde0f4c130585407a51f51542b509fca54d66f1fc01eef19195b8a4ef42daadf979c22de1a7c,
    0x64db5d5b179b1727a647dfbfecc0c3c9fac654b9b8a3aada9928ed89f2a52e9b0ead6a265398d5a945dbcac9be463caa,
    0x4905b6328eb71dc63aaade8d6b24841e4173c974037ab7fe089aa127dd41568a83fae352dfafb540a957a69ad1b81a19,
    0x32a711d3fff496936326c04e8a7ee07962790a06a5c96ee97b232543b64d85c3921ee23f65cc2851270ef0fe77f36057] ++
  hex 32 [0x940eba37acb29d48e349da3efea815e8dd0948ca87043a6f06f99c2c47b31866]
def endsLife3 : Bytes :=
  hex 48 [0x68a274d60ccbc68b1749c79707afe6e1a666c87634425e829d60ce860460993812f7d76b5689991689b2aa038c7c4559,
    0xe8e0cf894a09838b9051889d378fab90756493b5ec834908014622fddc0e264c82fb4cb1ea21e7591399d99b1ffbefcc,
    0xb06385541d45026983a4dbaefe7b5572252693a401c8d7864941aa91dcebe59f04a596a5f67a6ce9d36382a03520d0a7,
    0x6e6d8529fa86bde4442a601981d932ab475fbd26684bb1647c74837bcdaf6d18df3741bb9193dd5bb672e3fc408e103a,
    0xf1fe18f73af5bcd4a2d00adf00e2b29c16c897e6c81fb3dfe0fa5589ce392d67fc650e4c3656105a728bf76faff64c60,
    0x27c052a7e1ed7f3c1cd71bf6a98e55b3f64be629d715e87c8e47bc93a3a6e7f5d99ea0ea6fece1ba31d887f81e8ea1c4,
    0x56175537b0dcf2783032ce806d9ad57805f88c420aa7fa211aea1844fb3202ae69256092406e9604211e7abd7748efdc,
    0x567b72c9bc0a101e209ab8099c67e3320cfec3ee4d6194f76c97e9b5af2b4e8002bbaefc3822e96ec5898dde201f501c] ++
  hex 32 [0x86413f42078873ca567f66a52aa54bbe7ade50ffb89ba868713e25deab367c47]
def endsLife4 : Bytes :=
  hex 48 [0xa9b67be5faa6ef4a5c77d1c86550e8b68c77101825a6d9b14a32586fa057b2eb4cf9377853b66a3bb7bad4d732bbb4cc,
    0x744fc38e5d67a59c2469a68697f9c7ee26a4c9092ed0b6fcb37daf23d95f733a5285b79147fb443accaa2f7b8ce8a24f,
    0x382c5957bbd2ea9dfcdc067d83abf0db0a42a03713db43de66908b21df173a78f25b1820e60715903af0070b38e210fe,
    0xe5011a17da33c36a2a1e1de3c6b08c87caabd32dbd6c87d0c5ebb0dd1880798b1483d83cc495022ff61cf51f4fe87c14,
    0x80dc91593f4d85bb838a54bb939ea58bd89fc3e25be45fe29d32254efeb64e06c552705f6ff21521e148f460f5938b01,
    0x20d06c6ca966b17b3605e590931e8ab35c2fb0cd4dd7c1bb42b3bda31d7908460c036e55fbb9d341a00304dfa071dd3b,
    0xcbbf7023f7407f0817c816e4a5b68c925fa8ad9cdd5f787dd1e4021ebb5adfd3e1520a4a40ff0b58164db49c9dfbbfb2,
    0x3c9ae2f934340bb17277142164aac80359cd1b08b0a2ead4ad620f16544e626eee598f12427628fa00a03a82e13b6ede] ++
  hex 32 [0x46be7d90c0ad57e35894c5acd5ac1a6b2944832d8ad568047705dffa356141f0]

theorem sigLife_iq : iqOf ownerPub (sigLife.drop 4) = iqLife := by decide +kernel
theorem sigLife_digest : lmsHash false (iqLife ++ [0x81, 0x81] ++ slice (sigLife.drop 4) 8 32 ++ msgLife) = digLife := by
  decide +kernel
theorem sigLife_full : lmsFull digLife = fullLife := by decide +kernel
theorem sigLife_ends0 : lmsEnds false iqLife fullLife 4 14 0 valsLife0 = endsLife0 := by decide +kernel
theorem sigLife_ends1 : lmsEnds false iqLife fullLife 4 14 14 valsLife1 = endsLife1 := by decide +kernel
theorem sigLife_ends2 : lmsEnds false iqLife fullLife 4 13 28 valsLife2 = endsLife2 := by decide +kernel
theorem sigLife_ends3 : lmsEnds false iqLife fullLife 4 13 41 valsLife3 = endsLife3 := by decide +kernel
theorem sigLife_ends4 : lmsEnds false iqLife fullLife 4 13 54 valsLife4 = endsLife4 := by decide +kernel
theorem sigLife_chains : slice (sigLife.drop 4) 40 ((sigLife.drop 4).length - 44 - 32 * 10)
    = valsLife0 ++ (valsLife1 ++ (valsLife2 ++ (valsLife3 ++ (valsLife4 ++ [])))) := by decide +kernel
theorem sigLife_root : lmsRoot ownerPub (sigLife.drop 4) (endsLife0 ++ (endsLife1 ++ (endsLife2 ++ (endsLife3 ++ (endsLife4 ++ []))))) = true := by decide +kernel

theorem sigLife_verifies : hssVerify (ownerKey.drop 8) msgLife sigLife = true :=
  hss_passes (by decide +kernel) (by decide +kernel) sigLife_iq sigLife_digest sigLife_full sigLife_chains
    (by decide +kernel) (ends_of (by decide +kernel) sigLife_ends0 sigLife_ends1 sigLife_ends2 sigLife_ends3 sigLife_ends4)
    sigLife_root

/-- The message of `sigPower`, its digest, with the checksum, and the ends of its chains. -/
def msgPower : Bytes :=
  hex 48 [0x4743413101000100840a0000600000000108000000000000000000000000000007070707070707070707070707070707,
    0x07070707070707070707070707070707e9270dee3181fcb263e766d9cecc20315612a9ec6221b1394eb385cea21adce0]
def digPower : Bytes := hex 32 [0xfc9b8f7af6fade1820cdfbfefafe37decabcd61ed1fcae8c8dfdfd6ae4314b61]
def fullPower : Bytes := hex 34 [0xfc9b8f7af6fade1820cdfbfefafe37decabcd61ed1fcae8c8dfdfd6ae4314b6113d0]
def iqPower : Bytes := hex 20 [0x000102030405060708090a0b0c0d0e0f00000004]
def endsPower0 : Bytes :=
  hex 48 [0xe7460b0220ed1625f5dd653a8c93ba9b03962f8d16913e66098cbe7fc215a7dcf83bc672e15ce063d45d79f6f02ef927,
    0x69b1706aa844a159c5a1c3d3180fcefe5d0ac1fc6dac54256ab845129fa4ac7651f69d2068e8ec50eaae3c7fbac4bf3d,
    0xa128b4e3a8028c0560bdaceef8f980876540c7dd04dc781686e3a80db3e6424edc63130157075f2ae3c3d9a51bacd6c4,
    0xbbdb24a038776235540892d76ac50ff6a027088a986610f712596388b2f9be1472df43c766c3fbdb5bf7cf0e215460a0,
    0x93581c3a6613addaf079f00f054280757e2fc85da6eddd54cb4d4f8af303ede791d57b9328d62ee6a039cd86ba0a81d2,
    0x2edb73205e407e2049f3d8e735fcb8040052f486dab84b58d104867d3ab3694713ac314ad5bc4bb99e7a13b17816707d,
    0x8367ba06deb3eb5f72b5914a98cabcefab5d4f96497785589d65f7fee96a2dd804ec88d7e9c6775ccb695a6cc86ac8bf,
    0x99be1cdc493565187e5df3c1e2da9515c55fac565f47bf76ab9a4563220a68de41d0fbf12a881944e0d76eda06de46a0,
    0xaa8027f3eee79df3bce2ef151cb9ce8e5c1e2467bfb3cb2ccc957786a1c48be79ed6166d7e936cf1f12a1313b93782d6] ++
  hex 16 [0x107c9920d78ce6937e674f1c98daa211]
def endsPower1 : Bytes :=
  hex 48 [0xfc5657bc1530b9fddc6e3887c118e8c06e611a629516ea7f875e491647ab489fe10b697d45e534c44cfa768d713c58f7,
    0x38b5f28e6c284de594ce9d2a7a0543e6199872c20820282dd251a6b598c9eaa75c5953940c560c3d74ec4a8aa1f9e59c,
    0x93dad4745287454b29a34b1ab838d8c3d08e9e5902a1e7ad36ce0f909fa0c7f9ab01abd8ca69edb594fa215ea43cf804,
    0x455c7b69e418c6b40e3846b1d8a1c9e28d247b4955e8344960e7473f58771d29cb8bcb6182b218645b402f22fd4c659c,
    0xbfc0a59367fffe804ae7ffbefe261497692406884f2b46fe86fd233e4d21a768bc61911441d6be78e6e276b171af14d9,
    0xf8c1c8538225a2ee6a175e923aaf27997dc7ccbf70e75dc4cce0b81ef28ba3dc12f7251cd9d47dcfddb741db572e6769,
    0x103a1f0e9a08de550a16e4c1556a8678819b849136f7497fa554af2e4e7e42e8fd53ac76a61ef5a880f5a9b72c2e0159,
    0x8dd664c92c62282c56ccbeda8dcad1ee2a9b0dfeabed11eabc3bb5517d47d1f19666d7f52abc824a5ef51038b85cbe0a,
    0xc056f9e7d674da1b23421af5ca27945a00b3e85fa1fcae0b63b7bc6413c8c15b407fef4c96efcd52e4736b8fb9a40984] ++
  hex 16 [0x0d94a7231da1ff05b6f48cb956886faa]
def endsPower2 : Bytes :=
  hex 48 [0xb5a002f28a0a4ac289867df0d3e8eb6ee0a6cb90e5d12cf1be6151a20a197c151050ac7a8efa3cbc3b1e256d87949622,
    0x5423602782bc62ae0a8958ab26ee8d60bdc714cd6454f361091d77b542f46b4cd921e2431b105a1b42e2d5eaf9f7ae29,
    0xfa451ba9153b435b309faca6270c0b6ead080f2a61f60e62ad4b245ed1ca55eff41ee2bdff8553877637d6ef9af46652,
    0x95aba82124ae966c77544137c0180f5ffb72ed1a4d322f5a9bf1e363d4b0237787be2703db95423896320cb87b1b5421,
    0x42c6794f7d9976782f1e2122701f321b10b8801dd582fc74bb72ce71f539966ff8454fa0b6caeb3fc95b928d68691c65,
    0x1541003c3338876631a8c05e7bc50829c6d4601bf3c68543383f31daf758bc16f33cfa8c78522790b48665aac1a8f137,
    0x7c5322fcd460994b7dad8888af7e264126583116955cd316f50cfe088a0a042fd38a440b0c11b098c80051811e2baff8,
    0xfcc99757ceb128a4284779d3e9193e35456adc88d095301a999ff953bc5be3a729253328371420d92ddfdea7268a17fe] ++
  hex 32 [0x2119bf8ebbf10ead3492cc48e2f138cacf6deef817ca994d6ed985c925a3b925]
def endsPower3 : Bytes :=
  hex 48 [0x7a52a794a25d116547dc685d00f6f4d7c22adc6b4d88a59213f070ca546451b3694e0a7347bc6bc3299efc7d6b6c031e,
    0x33b5c907c9a6b7c572cb63dfbd9a258346f0421c0b4abd153c0e88a8f193c433e3a7eda832f369427b5e0f2638597032,
    0x95adfcf67ca79d0c6b3a52fafd4c9e37ee37a09ce79311517d53a7056e9c2a6fcf65bbd71125adddd5c4b79da48e2639,
    0x892f2d8859a0b8ab5631b7717c0546be889c00b659d1cc93840ad090188641de06fcc7c66b6826cdfc7ae2fd85fcf963,
    0xacde1327e0756eced0095858c515d90fb686f0837d0d6bc88561ff3c1e28150df590764a80187ad434fd028778b48556,
    0x89da5a86d835866806594790b905d02953194e7d055f9d9895ee8797272d83079adb89eabad739e56a96c991f4d7690e,
    0x6db267dee38fce454e771e7807e67c90c364b224cde3234ef97c9475565f9b0e27f66bde7811f534813acfebfd71eac5,
    0x45b2841a9bb3770b9983037ce36b50a9c212a196e239ac7713afff21c489ea88a881ff8c69d54d63ef945924accbbbef] ++
  hex 32 [0x97044feab2c00da31d54d14b73fe491048a49c1d6858de7ea07542602b2001b7]
def endsPower4 : Bytes :=
  hex 48 [0x4e495018f4726d6fc320ded57da76a29bdd7ac9969d00bf1cfcd3230aae6fd1c8eb111f91e443ed85ce7dc6548f7a3ac,
    0xdb320adc86528d2a2b43b9a2ebc40f24b8512d516f96e59d5ddf8f1ff9863427962e675130ae34ec86b7f8dd3b32b591,
    0x29b31d8b4be37ddc88da067f68a5679d6704e7cf2c47d790259c7f6855b851896108e8907b6089e32783812f72d35b52,
    0xee77451f1a13701f945179b3780c15828bc30e2300c6bfd9d87361689c82d6c127a8ccdb3fdbd1ad3fe471b018c05c13,
    0x3671a496e477d369f949706d3baba840f883f5fa94d6c8f6aa6774f5dc1fd3d68817709e240833fe7b033f443aeb951f,
    0xaf9fe276cd0a114dca8906165e5fd8b03337fc871c29732d2938637c5d6ddfdade0c02035b34cc24beb5bbec3fc7e9cd,
    0xe79fcffea72133d8f27ff3712718a5d2d817b80f5e0b6f5b943906b32ebfde05755799706468a1e58e2b1ab8742fb2ad,
    0xa6bf4ef61487f20495977c32ba4e700e574f304e587ea7374ad94be10f5cb6b98f1e2c8dd71acfe62c4c39697824fe56] ++
  hex 32 [0x8e46fc12b716428bc2d07427ba5d93780dd9a08b4ac5682e4621f0c14ead36d8]

theorem sigPower_iq : iqOf ownerPub (sigPower.drop 4) = iqPower := by decide +kernel
theorem sigPower_digest : lmsHash false (iqPower ++ [0x81, 0x81] ++ slice (sigPower.drop 4) 8 32 ++ msgPower) = digPower := by
  decide +kernel
theorem sigPower_full : lmsFull digPower = fullPower := by decide +kernel
theorem sigPower_ends0 : lmsEnds false iqPower fullPower 4 14 0 valsPower0 = endsPower0 := by decide +kernel
theorem sigPower_ends1 : lmsEnds false iqPower fullPower 4 14 14 valsPower1 = endsPower1 := by decide +kernel
theorem sigPower_ends2 : lmsEnds false iqPower fullPower 4 13 28 valsPower2 = endsPower2 := by decide +kernel
theorem sigPower_ends3 : lmsEnds false iqPower fullPower 4 13 41 valsPower3 = endsPower3 := by decide +kernel
theorem sigPower_ends4 : lmsEnds false iqPower fullPower 4 13 54 valsPower4 = endsPower4 := by decide +kernel
theorem sigPower_chains : slice (sigPower.drop 4) 40 ((sigPower.drop 4).length - 44 - 32 * 10)
    = valsPower0 ++ (valsPower1 ++ (valsPower2 ++ (valsPower3 ++ (valsPower4 ++ [])))) := by decide +kernel
theorem sigPower_root : lmsRoot ownerPub (sigPower.drop 4) (endsPower0 ++ (endsPower1 ++ (endsPower2 ++ (endsPower3 ++ (endsPower4 ++ []))))) = true := by decide +kernel

theorem sigPower_verifies : hssVerify (ownerKey.drop 8) msgPower sigPower = true :=
  hss_passes (by decide +kernel) (by decide +kernel) sigPower_iq sigPower_digest sigPower_full sigPower_chains
    (by decide +kernel) (ends_of (by decide +kernel) sigPower_ends0 sigPower_ends1 sigPower_ends2 sigPower_ends3 sigPower_ends4)
    sigPower_root

/-- The message of `sigUnlock`, its digest, with the checksum, and the ends of its chains. -/
def msgUnlock : Bytes :=
  hex 48 [0x47434131010002008f270000600000000509000000000000000000000000000007070707070707070707070707070707,
    0x070707070707070707070707070707076ef928680c674f51d81c264d43c5f68f5142476fd1e2e90626ae63d21b2ec949]
def digUnlock : Bytes := hex 32 [0xf4ace02b9f8ce79f0a2bd8eebe7edc84df48fe63b0aead3cfc7bef455faf5ffa]
def fullUnlock : Bytes := hex 34 [0xf4ace02b9f8ce79f0a2bd8eebe7edc84df48fe63b0aead3cfc7bef455faf5ffa1440]
def iqUnlock : Bytes := hex 20 [0x000102030405060708090a0b0c0d0e0f00000005]
def endsUnlock0 : Bytes :=
  hex 48 [0x050dbb4f510e7cd6dd50ceab8e623af0452e6f57d3aafad527a71a8789137c7120f94e03960c8e4c96d1df981064f2b9,
    0xc5effa85113720fcdbf872788b6926c4e41d64966ea1563e68beb6e888ca4ef3934ee412bb01954698ce2232156356bf,
    0x75d628760defa2a95f9bdf0d7e29117e26b6c7912aa55fb81f3bf16b36468d18cd64ac35b4bb3a86949c6e81f42a77ea,
    0x58933c0fbb746b79344bf27dcf74d7d1a6a3b7608acf7ce69326b2a2643ccd49e531e66424cdff3e2f4f5dfde290b628,
    0xdc7dd36b5a4d93165c4e64748760476abc6f1f91e50968e7c66a649a239d2390202d3d2a731e585e33c1ab211254233b,
    0xa18ec271264d4e5877cd306c49b915861fb643887f3988be16f9963a6b173932047b963426d79c35572a4d43106f7590,
    0x1c1115b129d4bc19c1bf16cbe0ff81d80edd66019fe468628f650fd024ccfafcc25f862cc03a8d827a22c5b1ce4a66c9,
    0x55254f12e73558e2b55a3c47b03accb3aec248359cfe0dd6e6742c313f864eeaa321dc83ffe59f4e086204bb913a0bdc,
    0xcb31580c5596df296e66118def026332da0e089d4367c0edc3a09e60c37c9fcfa1c0c53eee934d006654d8d4611b94f4] ++
  hex 16 [0xe80dc447b4c0299ee338373832ac91ef]
def endsUnlock1 : Bytes :=
  hex 48 [0x91affbc8ca963caafc7eba103fb780115e455b594ec8ab396d81d938b109486db2fcee23e88eb41fe2aa828df255cabd,
    0xecf48cdd871a0bf86d354cc88369e5d47e2bf49a635d97390ff280aec08c8d8016cd296b39274c48db53ad9ac2ce10ab,
    0xef7ffbaafa0c398985f24b2179e4a68043578726887df3c21855b6b2198cac18473d3d9f30693c4c4dd29c8fadc94aa4,
    0x179a3d14d08c04002c0ec08d13260a741a35d98267465931989d996c6f22d828298ba44d72e7eff8323e150f8d5b8778,
    0xfec491c3d38fdc44a90aae78ee280ea47636f2d7cf09c9d72e0bf235d55289c100412cddf6b7ea2135a5e2a4a938e32c,
    0x009c4dfb662678084c973f06894edd4997b43d6c797cc479490e497bfca5e4f8168ecca0f3b8271843df4c5bca5d831d,
    0x544f7df4f6d7ac040e8afce3699ea09a63a36ffe35595f5cc1a9694026d9544f89ddeaae21e2e0c49768816f487e35eb,
    0x60b0a8db0e57f87acf90bf8f85a99b5e4cdc6ca321193349841677998c60d919624ca9da37bac2fe988363dfecb84c94,
    0x499c430a6c5af7115ac54a5c63d80ce776d8be9ad6439e3f2b8d32fa79af7ab0869b3fdfe5668bb23ab5367537257a8f] ++
  hex 16 [0x6f18c271d966b89811778ba66f6b3622]
def endsUnlock2 : Bytes :=
  hex 48 [0x5c27818430813d1a7f26a4f2aa0f7a4a482023039626cdd281bae3027ef4217e255783622c42cf79295f97e1b7bfd135,
    0x805425b5fbb0341147a10b3fcb397c3add0171e0ff3637bce00bedb354a60a9b1f1d20ac25bfb4a8870af596288e1c7e,
    0x2582a23bf6ea19cdd4c060e1a0001085808293bf9903d2a6da36a50a35e7ec8ae103c28b3744372e2c2a6ab909caa4b8,
    0x2f5d88ff33cc9bea5a5594f1e38b7d17086c72e5ed7fd177ecb291722f42ca96d02d1b806fc69bae6d2c3a25d1fea139,
    0x926d585d0a58c9df672dfdb068f4544e8a83a6103b618700820a3497273070540e2853ac3900efe1459bb1d434e637f3,
    0x17b88a1c748b0d3d6d7ac2681bced25e40516b8e513324bc8432180a50c9d9ce8e9e01b97cb4e4a20005d78bc2485fbe,
    0x31edb14c61901453350aefe1b2df63f3523e06f0d60608d2110c92d4fa5c0a420d6bff2920a2b0b17b473f6ae9441136,
    0x413275a4c2a3b712fff6eedb55c72c6bf5c1b56fe7b2d0e3df529383ee914abdf6975efec510feb96cf3553b03a91a26] ++
  hex 32 [0x37526267445042284833b938deb604212889bb6b5a4d200672423b4c890ef7f1]
def endsUnlock3 : Bytes :=
  hex 48 [0x679fcc966fb645c6f869f8e5b7462c0e348f1bd43619beb768da0d6e96cd29a5ba4d46cbac5cfbfb4d1cb74e6253bde0,
    0x5231a3ff22d7a9c54ceebfccf36be5ed989bf45fcae2673587e52c8c33940528ee7a760487a4d68cb6110abb54e1aac8,
    0x1346b5fba3ccb7dc45255e3a16a842d4bba30ff86f2478542af2acf3539c573cbdce81df18fe222709f2f7b21e6b953a,
    0xc0b4f9536e1d59f50176d7dcb08f4bdec02cbee7d843f634428845f2d0859e0a00a2a85f25faf7ac4710affafb42a12e,
    0xc114f94f5136de0cefd6ef7ea829a7d5544e93ef5a474c33de49054fc66fe47cc9d75d73397e7bb21b757876779e1f75,
    0xb203aa29b095543ca0e02449482663697738bb5f86a7c362ac9cce1652580b53ad004caece841247bd8370185d062b2b,
    0x9609d6dd25d0a062527882f1cb2e3a199ab358849c1b8d16f573fe53fccec2bd3ca5c5a9fac263e949218f314bf221ba,
    0xc222fa169923e6f8807ccdca1f704d076f1afd3510b1e9f5fc30f54e21cc0ca05095e13f3c3938ea751f6f0293671230] ++
  hex 32 [0xe556e757e5a131bc9741773c61fdde9b7b2a9a2842c709e5fcae48b4d08eaf30]
def endsUnlock4 : Bytes :=
  hex 48 [0xaf5897e9a0ddd742c8413cdc0bed10d438eb9997a90eebefc62d920fe8aa81bd794885ff5978694c0055ddd6e53d0c55,
    0x871c878d9cb30a39bd0280ea1e7fb692c84265c1a820007cf450b45943a23376e68b55a68335321e3e57f6567a5af94f,
    0xa72d261e933a590fa7beac16bdd4d33d8c83006679dd0274ea3366b761d2ac7486d1771e1fbdb7ff9c88644b499b0bfb,
    0xe5cf465fd701d05da28ac3729a38eab048239294c2f3552b1d84af29575bba761c45c2d6f8d5002de2ca85d17876bac3,
    0xda229aec1d6eae10efb7344f09f636e67d6f0de8c4025764630818b15eb134eae2156c5bb2fa3d265f7e42c59decd7d8,
    0xe6323371f269cbcfe2e344420ad783164d944a538b383c695911df6374ae5bc2c86f33aa6f8fadee411ad782df54f7e2,
    0x9dd2a2d87627d4637f28cddb7e0575d124de71e917a5fbfccea5b13d23be414f003801e515757e354865c09d1826856e,
    0xce11c9511c7cb86a42b1e5604634a8fdd8ae3beb3f613191e017fda82247690c1af7d414f2745ff318dd0c341ff752d2] ++
  hex 32 [0x93e4b024acdf114a850ac076381dc7473026023347e27a1e3972e74b1b88e111]

theorem sigUnlock_iq : iqOf ownerPub (sigUnlock.drop 4) = iqUnlock := by decide +kernel
theorem sigUnlock_digest : lmsHash false (iqUnlock ++ [0x81, 0x81] ++ slice (sigUnlock.drop 4) 8 32 ++ msgUnlock) = digUnlock := by
  decide +kernel
theorem sigUnlock_full : lmsFull digUnlock = fullUnlock := by decide +kernel
theorem sigUnlock_ends0 : lmsEnds false iqUnlock fullUnlock 4 14 0 valsUnlock0 = endsUnlock0 := by decide +kernel
theorem sigUnlock_ends1 : lmsEnds false iqUnlock fullUnlock 4 14 14 valsUnlock1 = endsUnlock1 := by decide +kernel
theorem sigUnlock_ends2 : lmsEnds false iqUnlock fullUnlock 4 13 28 valsUnlock2 = endsUnlock2 := by decide +kernel
theorem sigUnlock_ends3 : lmsEnds false iqUnlock fullUnlock 4 13 41 valsUnlock3 = endsUnlock3 := by decide +kernel
theorem sigUnlock_ends4 : lmsEnds false iqUnlock fullUnlock 4 13 54 valsUnlock4 = endsUnlock4 := by decide +kernel
theorem sigUnlock_chains : slice (sigUnlock.drop 4) 40 ((sigUnlock.drop 4).length - 44 - 32 * 10)
    = valsUnlock0 ++ (valsUnlock1 ++ (valsUnlock2 ++ (valsUnlock3 ++ (valsUnlock4 ++ [])))) := by decide +kernel
theorem sigUnlock_root : lmsRoot ownerPub (sigUnlock.drop 4) (endsUnlock0 ++ (endsUnlock1 ++ (endsUnlock2 ++ (endsUnlock3 ++ (endsUnlock4 ++ []))))) = true := by decide +kernel

theorem sigUnlock_verifies : hssVerify (ownerKey.drop 8) msgUnlock sigUnlock = true :=
  hss_passes (by decide +kernel) (by decide +kernel) sigUnlock_iq sigUnlock_digest sigUnlock_full sigUnlock_chains
    (by decide +kernel) (ends_of (by decide +kernel) sigUnlock_ends0 sigUnlock_ends1 sigUnlock_ends2 sigUnlock_ends3 sigUnlock_ends4)
    sigUnlock_root

/-! ### What those signatures let pass -/

/-- An option that holds something a test passes. -/
theorem some_of_any {α : Type} {o : Option α} {f : α → Bool} (h : o.any f = true) : ∃ x, o = some x ∧ f x = true := by
  cases o with
  | none => simp at h
  | some x => exact ⟨x, rfl, by simpa using h⟩

/-- A block of the owner's key without a chain, with the signature given, whose scope covers a need. -/
def ownerBlock (sig : Bytes) (need : SignNeed) (root : Option KeyScope) (o : SigBlk) : Bool :=
  decide (o.chain = []) && decide (o.root.alg ≠ 1) && o.root.bytes.drop 8 == ownerKey.drop 8 && o.sig == sig
    && root.any fun sc => scopeCovers sc need

theorem block_passes {s : State} {sc : KeyScope} {msg : Bytes} {need : SignNeed} {b : SigBlk} (hc : b.chain = [])
    (hv : verifySig b.root msg b.sig = true) (hn : scopeCovers sc need = true) :
    checkBlkUnder s (some sc) msg need b = none := by
  simp [checkBlkUnder, hc, chainInScope, chainVerifies, signingKey, hv, hn]

theorem owner_passes {s : State} {root : Option KeyScope} {msg sig : Bytes} {need : SignNeed} {o : SigBlk}
    (hv : hssVerify (ownerKey.drop 8) msg sig = true) (ho : ownerBlock sig need root o = true) :
    checkBlkUnder s root msg need o = none := by
  simp only [ownerBlock, Bool.and_eq_true, decide_eq_true_eq, beq_iff_eq] at ho
  obtain ⟨⟨⟨⟨hc, ha⟩, hk⟩, hs⟩, hr⟩ := ho
  obtain ⟨sc, rfl, hn⟩ := some_of_any hr
  refine block_passes hc ?_ hn
  simp [verifySig, ha, hk, hs, hv]

/-- A record passes where each part of its check does. -/
theorem record_passes {s : State} {op lanes : Nat} {level : Level} {payload cmd : Bytes} {a : AuthRec}
    (h1 : readAuth payload = some (a, cmd)) (h2 : signersOk level.signers a.blks = true) (h3 : a.opcode = op)
    (h4 : a.serial = s.fuses.serial.toNat) (h5 : a.digest = hH (0x05 :: leBytes 2 op ++ cmd))
    (h6 : s.challengeOpen a.challenge = true) (h7 : lanes &&& a.lanes = lanes)
    (h8 : checkRecordBlks s level cmd a.signed { purpose := purposeCommand, lanes := a.lanes } a.blks = none) :
    checkRecord s op level lanes payload = .ok a.challenge := by
  subst h3
  simp [checkRecord, h1, h2, h4, h6, h7, h8]
  exact h5

/-- What a record shows apart from its signatures. -/
def recordFacts (s : State) (op lanes : Nat) (level : Level) (chal msg : Bytes) (x : AuthRec × Bytes) : Bool :=
  signersOk level.signers x.1.blks && x.1.opcode == op && x.1.serial == s.fuses.serial.toNat
    && x.1.digest == hH (0x05 :: leBytes 2 op ++ x.2) && s.challengeOpen x.1.challenge && lanes &&& x.1.lanes == lanes
    && x.1.challenge == chal && x.1.signed == msg

/-- A record of the owner alone passes. -/
theorem owner_record {s : State} {op lanes : Nat} {level : Level} {chal msg sig payload : Bytes}
    (hv : hssVerify (ownerKey.drop 8) msg sig = true)
    (hf : (readAuth payload).any (fun x => recordFacts s op lanes level chal msg x && match x.1.blks with
      | [o] => ownerBlock sig { purpose := purposeCommand, lanes := x.1.lanes } (recordScope s level x.2 o) o
      | _ => false) = true) :
    checkRecord s op level lanes payload = .ok chal := by
  obtain ⟨⟨a, cmd⟩, h1, hf⟩ := some_of_any hf
  simp only [recordFacts, Bool.and_eq_true, beq_iff_eq] at hf
  obtain ⟨⟨⟨⟨⟨⟨⟨⟨h2, h3⟩, h4⟩, h5⟩, h6⟩, h7⟩, h8⟩, hm⟩, h9⟩ := hf
  subst h8
  refine record_passes h1 h2 h3 h4 h5 h6 h7 ?_
  split at h9
  · next o hb =>
    rw [hb, hm]
    simp [checkRecordBlks, owner_passes hv h9]
  · contradiction

/-- A record of owner and vendor passes where the ML-DSA half of the vendor's signature does. -/
theorem both_record {s : State} {op lanes : Nat} {chal msg sig payload : Bytes}
    (h : ∀ pk mu sig, Config.mldsaVerify 87 pk mu sig = true) (hv : hssVerify (ownerKey.drop 8) msg sig = true)
    (hf : (readAuth payload).any (fun x => recordFacts s op lanes .ownerVendor chal msg x && match x.1.blks with
      | [o, v] =>
        let need : SignNeed := { purpose := purposeCommand, lanes := x.1.lanes }
        ownerBlock sig need (rootScope s o) o && decide (rootScope s v = some vendorScope) && decide (v.chain = [])
          && decide (v.root.alg = 1) && scopeCovers vendorScope need
          && mldsaFormOk 87 (v.sig.drop 96)
          && decide (ecdsaVerify .p384 ((v.root.bytes.drop 8).take 96) (v.sig.take 48) (slice v.sig 48 48) (sha384 msg) = .done)
      | _ => false) = true) :
    checkRecord s op .ownerVendor lanes payload = .ok chal := by
  obtain ⟨⟨a, cmd⟩, h1, hf⟩ := some_of_any hf
  simp only [recordFacts, Bool.and_eq_true, beq_iff_eq] at hf
  obtain ⟨⟨⟨⟨⟨⟨⟨⟨h2, h3⟩, h4⟩, h5⟩, h6⟩, h7⟩, h8⟩, hm⟩, h9⟩ := hf
  subst h8
  refine record_passes h1 h2 h3 h4 h5 h6 h7 ?_
  split at h9
  · next o v hb =>
    simp only [Bool.and_eq_true, decide_eq_true_eq] at h9
    obtain ⟨⟨⟨⟨⟨⟨ho, hr⟩, hc⟩, hk⟩, hn⟩, hz⟩, he⟩ := h9
    have hw : verifySig v.root msg v.sig = true := by
      simp [verifySig, hk, he, mldsaVerify, hz, h]
    have hz : checkBlkUnder s (rootScope s v) msg { purpose := purposeCommand, lanes := a.lanes } v = none := by
      rw [hr]
      exact block_passes hc hw hn
    rw [hb, hm]
    simp [checkRecordBlks, recordScope, owner_passes hv ho, hz]
  · contradiction

/-- An authorised call passes R390 with its challenge. -/
theorem call_passes {c : Cmd} {r : Req} {s : State} {chal : Bytes} {level : Level} {op lanes need : Nat}
    (h1 : s.tagBusy r.port r.tag (reqFrame c r) = false)
    (h2 : (s.stolik.inFlight.filter fun x => x.1 == r.port).length < 64) (h3 : r.flags.getLsbD 0 = true)
    (h4 : max 12 (cmdOffset r) ≤ r.payload.length) (h5 : c.need s (callOf r) = need) (h6 : (callOf r).cmd.length = need)
    (h7 : recordReserved r.payload = none) (h8 : c.badField s (callOf r).cmd = none) (h9 : c.life s (callOf r).cmd = true)
    (h10 : c.level s (callOf r).cmd = level) (h11 : levelPort r.port level = true) (h12 : level ≠ .structure_)
    (h13 : c.lanes s (callOf r).cmd = lanes) (h14 : c.op = op) (h15 : c.locks s (callOf r) = none)
    (h16 : checkRecord s op level lanes r.payload = .ok chal) :
    checkCall c r (callOf r) s = .ok (some chal) := by
  have hp : (callOf r).port = r.port := rfl
  have ha : authorise c true r.payload (callOf r) s = .ok (some chal) := by
    unfold authorise
    simp only [h10, hp, h11, Bool.not_true, Bool.false_eq_true, if_false, if_true, h13, h14, h16, Except.map]
  have h3' : r.flags[0] = true := h3
  unfold checkCall
  simp [h1, Nat.not_le.mpr h2, h3', Nat.not_lt.mpr h4, h5, h6, h7, h8, h9, ha, h15]

/-- A call that carries a structure passes R390 where the structure is accepted. -/
theorem structure_passes {c : Cmd} {r : Req} {s : State} {need : Nat} (h1 : s.tagBusy r.port r.tag (reqFrame c r) = false)
    (h2 : (s.stolik.inFlight.filter fun x => x.1 == r.port).length < 64) (h3 : r.flags.getLsbD 0 = false)
    (h5 : c.need s (callOf r) = need) (h6 : (callOf r).cmd.length = need)
    (h8 : c.badField s (callOf r).cmd = none) (h9 : c.life s (callOf r).cmd = true)
    (h10 : c.level s (callOf r).cmd = .structure_) (h15 : c.locks s (callOf r) = none)
    (h16 : c.accept s (callOf r) = none) : checkCall c r (callOf r) s = .ok none := by
  have ha : authorise c false r.payload (callOf r) s = .ok none := by
    unfold authorise
    simp [h10, levelPort, levelFree, h16]
  have h3' : r.flags[0] = false := h3
  unfold checkCall
  simp [h1, Nat.not_le.mpr h2, h3', h5, h6, h8, h9, ha, h15]

/-- A host manifest of the owner is accepted. -/
theorem manifest_accepted {s : State} {n : Fin 8} {b msg sig : Bytes} {p : Option LanePolicy} {m : HostManifest}
    (hv : hssVerify (ownerKey.drop 8) msg sig = true) (hl : s.lc = .owned) (hm : b.take (u32 b 0x0C) = msg)
    (hf : (readHostManifest b).any (fun x => decide (x.1 = m) && match x.2 with
      | [o] => ownerBlock sig { purpose := 0, lanes := 2 ^ n.val, counter := some m.counter, version := m.secVersion } (rootScope s o) o
      | _ => false) = true)
    (hc : s.counter m.counter ≤ m.secVersion)
    (hk : (match p with
      | none => spanFits n (s.lane n).cfg m
      | some q => spanFits n q.cfg m && rulesOk s n q (some m)) = true) : acceptManifest s n b p = .ok m := by
  obtain ⟨⟨m', blks⟩, h1, hf⟩ := some_of_any hf
  simp only [Bool.and_eq_true, decide_eq_true_eq] at hf
  obtain ⟨rfl, h9⟩ := hf
  split at h9
  · clear hf
    have ho := owner_passes (s := s) hv h9
    unfold acceptManifest
    rw [h1]
    simp only [hl, hm, checkBlks, checkBlk, ho, Nat.not_lt.mpr hc, ne_eq, not_true_eq_false, if_false]
    exact if_pos hk
  · contradiction

/-- A lane policy of the owner is accepted. -/
theorem policy_accepted {s : State} {n : Fin 8} {b msg sig : Bytes} {m : Option HostManifest} {p : LanePolicy}
    (hv : hssVerify (ownerKey.drop 8) msg sig = true) (hl : s.lc = .owned) (hm : b.take (u32 b 0x0C) = msg)
    (hf : (readLanePolicy b).any (fun x => decide (x.1 = p) && policyStep11 s n p x.2.1 m && match x.2.2 with
      | [o] => ownerBlock sig { purpose := 2, lanes := 2 ^ p.lane, counter := some p.counter, version := p.secVersion } (rootScope s o) o
      | _ => false) = true)
    (hc : s.counter p.counter ≤ p.secVersion) : acceptPolicy s n b m = .ok p := by
  obtain ⟨⟨p', known, blks⟩, h1, hf⟩ := some_of_any hf
  simp only [Bool.and_eq_true, decide_eq_true_eq] at hf
  obtain ⟨⟨rfl, hs⟩, h9⟩ := hf
  split at h9
  · clear hf
    have ho := owner_passes (s := s) hv h9
    unfold acceptPolicy
    rw [h1]
    simp only [hl, hm, checkBlks, checkBlk, ho, Nat.not_lt.mpr hc, ne_eq, not_true_eq_false, if_false]
    rw [if_pos hs]
  · contradiction

theorem hyp_ownershipAndDebug_0 :
    Admitted cmdTakeOwnership takeIt unowned (some (List.replicate 32 7)) ∧ payloadAnchors (callOf takeIt).cmd ≠ [] ∧
      (payloadAnchors (callOf takeIt).cmd).length ≤ 4 ∧
      (begun cmdTakeOwnership takeIt (some (List.replicate 32 7)) unowned).platformOff = true := by
  refine ⟨⟨by decide +kernel, by decide +kernel, by decide +kernel, ?_⟩, by decide +kernel, by decide +kernel, by decide +kernel⟩
  exact call_passes (need := 44) (by decide +kernel) (by decide +kernel) rfl (by decide +kernel) (by decide +kernel)
    (by decide +kernel) (by decide +kernel) (by decide +kernel) (by decide +kernel) rfl rfl (by decide) rfl rfl rfl
    (owner_record sigOwnership_verifies (by decide +kernel))

theorem hyp_ownershipAndDebug_4 :
    Admitted cmdLifecycle giveUp ownedPart (some (List.replicate 32 7)) ∧
      ownedPart.transition (callOf giveUp).cmd = some (.unowned, .owner) ∧
      (begun cmdLifecycle giveUp (some (List.replicate 32 7)) ownedPart).platformOff = true := by
  refine ⟨⟨by decide +kernel, by decide +kernel, by decide +kernel, ?_⟩, by decide +kernel, by decide +kernel⟩
  exact call_passes (need := 4) (level := .owner) (by decide +kernel) (by decide +kernel) rfl (by decide +kernel) rfl
    (by decide +kernel) (by decide +kernel) (by decide +kernel) (by decide +kernel) (by decide +kernel) rfl (by decide) rfl rfl rfl
    (owner_record sigLife_verifies (by decide +kernel))

theorem hyp_ownershipAndDebug_5 (h : ∀ pk mu sig, Config.mldsaVerify 87 pk mu sig = true) :
    Admitted cmdDebugUnlock unlock returned (some (List.replicate 32 7)) := by
  refine ⟨by decide +kernel, by decide +kernel, by decide +kernel, ?_⟩
  exact call_passes (need := 4) (by decide +kernel) (by decide +kernel) rfl (by decide +kernel) rfl (by decide +kernel)
    (by decide +kernel) (by decide +kernel) (by decide +kernel) rfl rfl (by decide) rfl rfl rfl
    (both_record h sigUnlock_verifies (by decide +kernel))

theorem hyp_platformCommands_0 :
    Admitted cmdPowerAny powerUp poweredOff (some (List.replicate 32 7)) ∧ u8 (callOf powerUp).cmd 0 = 0 ∧
      (begun cmdPowerAny powerUp (some (List.replicate 32 7)) poweredOff).platformOff = true ∧ poweredOff.startable = true ∧
      storedPlatform poweredOff = some plat0 := by
  refine ⟨⟨by decide +kernel, by decide +kernel, by decide +kernel, ?_⟩, by decide +kernel, by decide +kernel, by decide +kernel,
    by decide +kernel⟩
  exact call_passes (need := 4) (by decide +kernel) (by decide +kernel) rfl (by decide +kernel) rfl
    (by decide +kernel) (by decide +kernel) (by decide +kernel) (by decide +kernel) rfl rfl (by decide) rfl rfl rfl
    (owner_record sigPower_verifies (by decide +kernel))

/-- An UPDATE_BEGIN of a window over a management bus passes where its manifest is accepted. -/
theorem begin_passes {s : State} {c : Call} {n w : Fin 8} {k : Fin 16} {b : Bytes} {m : HostManifest}
    (ht : beginManifest c.cmd = b) (hk : targetKind (u8 c.cmd 0) = some (.window n w)) (hp : c.port = .mb k)
    (h7 : s.lockedBy (u8 c.cmd 0) (.mb k) = false) (h8 : (u8 c.cmd 0 == headwaterCode) = false)
    (ha : acceptManifest s n b (some (s.policyInForce n)) = .ok m) (hm : m.target = n.val) : acceptBegin s c = none := by
  simp [acceptBegin, ht, hk, hp, h7, h8, ha, hm]

/-- A stored manifest starts a lane where it is accepted. -/
theorem start_of {s : State} {n : Fin 8} {b : Bytes} {m : HostManifest} (ha : s.activeManifest n = some b)
    (hm : acceptManifest s n b none = .ok m) : manifestForStart s n = some (b, m, false) := by
  simp [manifestForStart, storedManifest, ha, hm]

theorem manifest_message : manifestBytes.take (u32 manifestBytes 0x0C) = msgManifest := by decide +kernel

theorem accepting_manifest : acceptManifest accepting 0 manifestBytes (some (accepting.policyInForce 0)) = .ok manifest0 :=
  manifest_accepted sigManifest_verifies (by decide +kernel) manifest_message (by decide +kernel) (by decide +kernel)
    (by decide +kernel)

theorem begin_admitted {src : Byte} (ht : beginManifest (callOf (begin_ src)).cmd = manifestBytes)
    (hk : targetKind (u8 (callOf (begin_ src)).cmd 0) = some (.window 0 0))
    (h : serviceState cmdBegin (begin_ src).port (callOf (begin_ src)).cmd accepting = .serve ∧
      (accepting.received (begin_ src).port (reqFrame cmdBegin (begin_ src)) = true ∨ accepting.deviceLoad < 1024) ∧
      headerOk (begin_ src) = true ∧
      accepting.tagBusy (begin_ src).port (begin_ src).tag (reqFrame cmdBegin (begin_ src)) = false ∧
      (callOf (begin_ src)).cmd.length = cmdBegin.need accepting (callOf (begin_ src)) ∧
      cmdBegin.badField accepting (callOf (begin_ src)).cmd = none ∧
      accepting.lockedBy (u8 (callOf (begin_ src)).cmd 0) (.mb 0) = false ∧
      (u8 (callOf (begin_ src)).cmd 0 == headwaterCode) = false) :
    Admitted cmdBegin (begin_ src) accepting none := by
  obtain ⟨h1, h2, h3, h4, h5, h6, h7, h8⟩ := h
  refine ⟨h1, h2, h3, ?_⟩
  refine structure_passes h4 (show (accepting.stolik.inFlight.filter fun x => x.1 == Port.mb 0).length < 64 by decide +kernel)
    (show BitVec.getLsbD (0 : Half) 0 = false by decide) rfl h5 h6 rfl rfl rfl ?_
  exact begin_passes ht hk rfl h7 h8 accepting_manifest (by decide)

theorem hyp_updateCommandsAnswer_0 :
    Admitted cmdBegin (begin_ 1) accepting none ∧ targetKind (u8 (callOf (begin_ 1)).cmd 0) ≠ none ∧
      ((begun cmdBegin (begin_ 1) none accepting).target (u8 (callOf (begin_ 1)).cmd 0)).xfer = .none ∧
      beginOk (begun cmdBegin (begin_ 1) none accepting) (callOf (begin_ 1)).cmd = true ∧
      streamBlocked (begun cmdBegin (begin_ 1) none accepting) (callOf (begin_ 1)).cmd = false :=
  ⟨begin_admitted (by decide +kernel) (by decide +kernel) (by decide +kernel), by decide +kernel, by decide +kernel,
    by decide +kernel, by decide +kernel⟩

theorem hyp_updateCommandsAnswer_1 :
    Admitted cmdBegin (begin_ 2) accepting none ∧ targetKind (u8 (callOf (begin_ 2)).cmd 0) ≠ none ∧
      ((begun cmdBegin (begin_ 2) none accepting).target (u8 (callOf (begin_ 2)).cmd 0)).xfer = .none ∧
      beginOk (begun cmdBegin (begin_ 2) none accepting) (callOf (begin_ 2)).cmd = false :=
  ⟨begin_admitted (by decide +kernel) (by decide +kernel) (by decide +kernel), by decide +kernel, by decide +kernel,
    by decide +kernel⟩

/-- The states in which the stored structures are accepted, their flashes' tables empty. -/
def noTables : FlashTables := ⟨[], [], []⟩
def started : State := flashesRead 0 false false noTables noTables starting
def startedBare : State := flashesRead 0 false false noTables noTables startingBare

theorem started_policy : acceptPolicy started 0 policyBytes (some manifest0) = .ok policy0 :=
  policy_accepted sigPolicy_verifies (by decide +kernel) (by decide +kernel) (by decide +kernel) (by decide +kernel)

theorem started_bare_policy : acceptPolicy startedBare 0 policyBytes none = .ok policy0 :=
  policy_accepted sigPolicy_verifies (by decide +kernel) (by decide +kernel) (by decide +kernel) (by decide +kernel)

theorem started_manifest : manifestForStart started 0 = some (manifestBytes, manifest0, false) :=
  start_of (by decide +kernel) (manifest_accepted sigManifest_verifies (by decide +kernel) manifest_message (by decide +kernel)
    (by decide +kernel) (by decide +kernel))

theorem hyp_platformAcceptance_2 :
    startingBare.spindleServes 0 = true ∧ (startingBare.lane 0).pv.active = true ∧ (startingBare.lane 0).pv.accepted = false ∧
      (startingBare.lane 0).pv.keepMirrored = false ∧ startingBare.acceptanceWaits 0 = false ∧ startingBare.lc = .owned ∧
      manifestForStart (flashesRead 0 false false noTables noTables startingBare) 0 = none ∧
      startingBare.nvm.lanePolicy[(0 : Fin 8)] = some policyBytes ∧
      acceptPolicy (flashesRead 0 false false noTables noTables startingBare) 0 policyBytes none = .ok policy0 :=
  ⟨by decide +kernel, by decide +kernel, by decide +kernel, by decide +kernel, by decide +kernel, by decide +kernel,
    by decide +kernel, by decide +kernel, started_bare_policy⟩

theorem hyp_platformAcceptance_3 :
    starting.spindleServes 0 = true ∧ (starting.lane 0).pv.active = true ∧ (starting.lane 0).pv.accepted = false ∧
      (starting.lane 0).pv.keepMirrored = false ∧ starting.acceptanceWaits 0 = false ∧ starting.lc = .owned ∧
      manifestForStart (flashesRead 0 false false noTables noTables starting) 0 = some (manifestBytes, manifest0, false) ∧
      starting.nvm.lanePolicy[(0 : Fin 8)] = some policyBytes ∧
      acceptPolicy (flashesRead 0 false false noTables noTables starting) 0 policyBytes (some manifest0) = .ok policy0 :=
  ⟨by decide +kernel, by decide +kernel, by decide +kernel, by decide +kernel, by decide +kernel, by decide +kernel,
    started_manifest, by decide +kernel, started_policy⟩

theorem hyp_linksTrain_6 (c : ChainCert) (h : sha384 c.der = identityRoot) :
    (authed.link 0).st = .auth ∧ (authed.link 0).peer = some authKeyB ∧ authed.fabricRuns = true ∧ peerChainOk [c] = true ∧
      linkKeys authed (authed.link 0) authKeyB = some (keys384.1, keys384.2) :=
  ⟨by decide +kernel, by decide +kernel, by decide +kernel, by simp [peerChainOk, h], by decide +kernel⟩

/-! ### Steps -/



theorem hyp_stepKeepsTheInvariant_0 : ∃ t, State.reset.Inv ∧ step State.reset = .next t :=
  ⟨_, ⟨by decide +kernel, by decide +kernel, by decide +kernel⟩, rfl⟩

theorem hyp_deviceTimeNeverDecreases_0 : ∃ t, step State.reset = .next t := ⟨_, rfl⟩

theorem hyp_nothingGoesBack_0 : ∃ t, step State.reset = .next t := ⟨_, rfl⟩
theorem hyp_nothingGoesBack_1 : ∃ t, exec .heldObjectExpiry State.reset = .next t := ⟨_, rfl⟩

/-! ### Ill-formed commands that WellFormed refuses -/

theorem test_wf_read_needs_clock : Instr.wf (.read { txn 0x03 with sckKHz := 0 } 0 1 (env [])) = false := by decide +kernel
theorem test_wf_read_needs_length : Instr.wf (.read (txn 0x03) 0 0 (env [])) = false := by decide +kernel
theorem test_wf_program_needs_data : Instr.wf (.program (txn 0x02) 0 []) = false := by decide +kernel
theorem test_wf_program_needs_clock :
    Instr.wf (.program { txn 0x02 with sckKHz := 0 } 0 [1]) = false := by decide +kernel
theorem test_wf_erase_needs_units : Instr.wf (.erase (txn 0x20) 0 0) = false := by decide +kernel
theorem test_wf_erase_needs_clock :
    Instr.wf (.erase { txn 0x20 with sckKHz := 0 } 0 1) = false := by decide +kernel
theorem test_wf_mailbox_needs_data : Instr.wf (.mbOpWrite (txn 0xF1) []) = false := by decide +kernel
theorem test_wf_mailbox_needs_clock : Instr.wf (.mbOpWrite { txn 0xF1 with sckKHz := 0 } [1]) = false := by decide +kernel
theorem test_wf_weir_code : Instr.wf (.weirEvent [⟨0, .ce, 1, 0, 0⟩]) = false := by decide +kernel
theorem test_wf_injection_code : Instr.wf (.weirInject 0 [⟨63, .ce, 0x7F, 0, 0⟩]) = false := by decide +kernel
theorem test_wf_alarm_detector : Instr.wf (.leveeAlarm ⟨3, false, false, 0, 0, 0, 0⟩) = false := by decide +kernel
theorem test_wf_backup_alarm_detector : Instr.wf (.leveeBackupAlarm ⟨3, false, false, 0, 0, 0, 0⟩) = false := by decide +kernel
theorem test_wf_announce_hops : Instr.wf (.announce 0 ⟨1, 1, 63, false, 1⟩) = false := by decide +kernel
theorem test_wf_routed_hops : Instr.wf (.routed 0 ⟨1, false, 2, 64, 0, 0, true, 1⟩ [] .good) = false := by decide +kernel
theorem test_wf_routed_length :
    Instr.wf (.routed 0 ⟨1, false, 2, 1, 0, 0, true, 1⟩ (zeros 4085) .good) = false := by decide +kernel
theorem test_wf_recovery_get_length : Instr.wf (.recoveryGet 0 0 65537) = false := by decide +kernel
theorem test_wf_recovery_data_length : Instr.wf (.recoveryData 0 0 (zeros 4081)) = false := by decide +kernel
theorem test_wf_auth_key_length : Instr.wf (.auth 0 ⟨[], 0, zeros 32, false, 0, 0, false⟩) = false := by decide +kernel
theorem test_wf_auth_owner_length : Instr.wf (.auth 0 ⟨zeros 96, 0, [], false, 0, 0, false⟩) = false := by decide +kernel
theorem test_wf_read_good : Instr.wf (.read (txn 0x03) 0 1 (env [])) = true := by decide +kernel

/-! ### Worked values of the manual and of its standards -/

/-- R388: the check value of CRC-32C over "123456789". -/
theorem test_crc32c_check : crc32c [0x31, 0x32, 0x33, 0x34, 0x35, 0x36, 0x37, 0x38, 0x39] = 0xE3069283 := by decide +kernel

/-- FIPS 180-4: SHA-256 of "abc". -/
theorem test_sha256_abc : hash .sha256 [0x61, 0x62, 0x63] =
    hex 32 [0xba7816bf8f01cfea414140de5dae2223b00361a396177a9cb410ff61f20015ad] := by decide +kernel

/-- FIPS 180-4: SHA-384 of "abc". -/
theorem test_sha384_abc : sha384 [0x61, 0x62, 0x63] = hex 48
    [0xcb00753f45a35e8bb5a03d699ac65007272c32ab0eded1631a8b605a43ff5bed8086072ba1e7cc2358baeca134c825a7] := by decide +kernel

/-- R107: a lane after reset has no rule and refuses every READ. -/
theorem test_reset_lane_denies : (State.reset.lane 3).denyReset = true ∧ (State.reset.lane 3).denyNoPolicy = true := by
  decide +kernel

/-- A tick of an empty queue (R7, R515). -/
theorem test_idle_tick : (idleTick run).time = 30517 ∧ (idleTick run).tick = 1 ∧ (idleTick run).timeFrac = 74 := by
  decide +kernel

end Sys2Proof.Tests
end

section
/-! SUPPORT. Updates of one lane put together, the frames OnlyLane and OnlyLaneRes as relations that updates keep and that
compose, and what the facts of a lane read of the state. -/
namespace Sys2Proof.Machine
open Sys2Proof

/-! ### Updates of one lane -/

theorem vmod_vmod {α : Type} {n : Nat} (v : Vector α n) (i : Fin n) (f g : α → α) :
    vmod (vmod v i f) i g = vmod v i fun x => g (f x) := by
  simp [vmod]

theorem modLane_modLane (s : State) (n : Fin 8) (f g : Lane → Lane) :
    (s.modLane n f).modLane n g = s.modLane n fun l => g (f l) := by
  simp [State.modLane, vmod_vmod]

/-- An update that leaves the lane as it is leaves the state as it is. -/
theorem modLane_self {s : State} {n : Fin 8} {f : Lane → Lane} (h : f (s.lane n) = s.lane n) : s.modLane n f = s := by
  have hv : vmod s.lanes n f = s.lanes := by
    show s.lanes.set n.val (f s.lanes[n]) = s.lanes
    rw [show f s.lanes[n] = s.lanes[n] from h]
    exact Vector.set_getElem_self n.isLt
  rw [State.modLane, hv]

@[simp] theorem lane_answer (n : Fin 8) (r : Option Bytes) (fp : FpAct) (s : State) :
    (answer n r fp s).lane n = { s.lane n with rsp := r, fp := fp, wait := 0 } := lane_modLane_same _ _ _

@[simp] theorem lane_setWait (n : Fin 8) (w : Nat) (s : State) :
    (setWait n w s).lane n = { s.lane n with wait := w } := lane_modLane_same _ _ _

/-- The state of a chip after a change of some chips. -/
theorem Lane.modChips_at (l : Lane) (fs : List (Fin 2)) (f : FlashChip → FlashChip) (k : Fin 2) :
    (l.modChips fs f).chips[k] = if fs.contains k then f l.chips[k] else l.chips[k] := vmapI_at _ _ _

theorem Lane.modChips_at_mem {l : Lane} {fs : List (Fin 2)} {k : Fin 2} (f : FlashChip → FlashChip) (h : k ∈ fs) :
    (l.modChips fs f).chips[k] = f l.chips[k] := by
  rw [Lane.modChips_at, if_pos (by simpa using h)]

/-! ### The frames -/

theorem OnlyLane.refl (n : Fin 8) (s : State) : OnlyLane n s s := ⟨rfl, fun _ _ => rfl⟩

theorem OnlyLane.trans {n : Fin 8} {s t u : State} (h : OnlyLane n s t) (k : OnlyLane n t u) : OnlyLane n s u := by
  obtain ⟨h1, h2⟩ := h
  obtain ⟨k1, k2⟩ := k
  refine ⟨?_, fun m hm => (k2 m hm).trans (h2 m hm)⟩
  calc { u with lanes := s.lanes, free := s.free }
      = { { u with lanes := t.lanes, free := t.free } with lanes := s.lanes, free := s.free } := rfl
    _ = s := by rw [k1, h1]

theorem OnlyLane.modLane {n : Fin 8} {s t : State} (h : OnlyLane n s t) (f : Lane → Lane) : OnlyLane n s (t.modLane n f) :=
  h.trans (onlyLane_modLane n f t)

theorem OnlyLane.answer {n : Fin 8} {s t : State} (h : OnlyLane n s t) (r : Option Bytes) (fp : FpAct) :
    OnlyLane n s (answer n r fp t) := h.modLane _

theorem OnlyLane.setWait {n : Fin 8} {s t : State} (h : OnlyLane n s t) (w : Nat) : OnlyLane n s (setWait n w t) := h.modLane _

theorem onlyLane_drawBytes (n : Fin 8) (k : Nat) (s : State) : OnlyLane n s (drawBytes k s).2 := ⟨rfl, fun _ _ => rfl⟩

theorem OnlyLane.res {n : Fin 8} {s t : State} (h : OnlyLane n s t) : OnlyLaneRes n s t := by
  obtain ⟨h1, h2⟩ := h
  refine ⟨?_, h2⟩
  have ha : t.resA = s.resA := (congrArg State.resA h1 : _)
  have hb : t.resB = s.resB := (congrArg State.resB h1 : _)
  rw [← ha, ← hb]
  exact h1

theorem OnlyLaneRes.trans {n : Fin 8} {s t u : State} (h : OnlyLaneRes n s t) (k : OnlyLaneRes n t u) : OnlyLaneRes n s u := by
  obtain ⟨h1, h2⟩ := h
  obtain ⟨k1, k2⟩ := k
  refine ⟨?_, fun m hm => (k2 m hm).trans (h2 m hm)⟩
  calc { u with lanes := s.lanes, free := s.free, resA := s.resA, resB := s.resB }
      = { { u with lanes := t.lanes, free := t.free, resA := t.resA, resB := t.resB } with
          lanes := s.lanes, free := s.free, resA := s.resA, resB := s.resB } := rfl
    _ = s := by rw [k1, h1]

theorem onlyLaneRes_modRes (n : Fin 8) (x : Sel) (f : Reservoir → Reservoir) (s : State) : OnlyLaneRes n s (s.modRes x f) := by
  cases x <;> exact ⟨rfl, fun _ _ => rfl⟩

@[simp] theorem lane_modRes (s : State) (x : Sel) (f : Reservoir → Reservoir) (n : Fin 8) :
    (s.modRes x f).lane n = s.lane n := by
  cases x <;> rfl

/-! ### What the facts of a lane read -/

/-- The chips that a host chip select reaches depend on the lane's configuration and remap windows alone. -/
theorem reachList_congr {s t : State} {n : Fin 8} (k : Fin 2) (hc : (t.lane n).cfg = (s.lane n).cfg)
    (hr : (t.lane n).remap = (s.lane n).remap) : t.reachList n k = s.reachList n k := by
  have h : ∀ f, t.reaches n k f = s.reaches n k f := fun f => by simp only [State.reaches, hc, hr]
  simp only [State.reachList, h]

theorem mem_chipUnion {a b : List (Fin 2)} {k : Fin 2} : k ∈ chipUnion a b ↔ k ∈ a ∨ k ∈ b := by
  simp [chipUnion, fins]

end Sys2Proof.Machine
end

section
/-! SUPPORT. What passes the checks before a decision, and what the answers of a lane leave: the refusals, the refused
writes, the changes that a claimed Reservoir follows. -/
namespace Sys2Proof.Machine
open Sys2Proof

/-! ### The checks before a decision -/

/-- A command whose meaning is a guarded transaction that passes ends in its decision. -/
theorem completes_passed {i : Instr} {c : OpClass} {t : Txn} {s : State} {u : Option Nat} {no : Nat → State → State}
    {go : State → State} {P : State → Prop} (hi : exec i s = guarded c t u no go s) (hp : Passed c t s) (hP : P (go s)) :
    Completes i s P :=
  ⟨go s, hi.trans (guarded_passed hp u no go), hP⟩

/-- A transaction that passes, or that its opcode alone refuses, met no fault of its lookup (R74 to R76). -/
theorem gate_look {c : OpClass} {t : Txn} {s s' : State} {g : Gate} (h : gate c t s = (g, s'))
    (hg : g = .pass ∨ g = .refuse rOpcode) :
    t.look.disagree = false ∧ t.look.tableErr = false ∧ t.look.frontEnd = none := by
  simp only [gate] at h
  repeat' split at h
  all_goals
    rcases hg with rfl | rfl <;>
      simp_all [rDenyAll, rSck, rCsHigh, rDisagree, rTable, rOpcode, Option.isSome_iff_ne_none]

/-- A transaction that passes is of the class that its row names. -/
theorem passed_class {c : OpClass} {t : Txn} {s : State} (h : Passed c t s) :
    opClass (s.lane t.lane) t.cs t.op t.op2 = c := by
  refine Decidable.byContradiction fun hc => ?_
  have h' : gate c t s = (.pass, s) := h
  simp [gate, hc] at h'
  repeat' split at h'
  all_goals simp at h'

/-- The faults of a lookup that met none change nothing. -/
theorem lookFaults_clean {t : Txn} (h : t.look.disagree = false ∧ t.look.tableErr = false ∧ t.look.frontEnd = none)
    (u : Option Nat) (s : State) : lookFaults t u s = s := by
  obtain ⟨h1, h2, h3⟩ := h
  simp [lookFaults, h1, h2, h3]

/-- A chip select that does not answer, or a lane without power, is silent (R49, R216). -/
theorem gate_silent (c : OpClass) {t : Txn} {s : State}
    (h : s.lanesPowered = false ∨ csAnswers (s.lane t.lane).cfg t.cs = false) : gate c t s = (.silent, s) := by
  rcases h with h | h <;> simp [gate, h]

/-! ### Every host command is a guarded transaction of its class -/

/-- A READ_ID past the gate (R34). -/
def idDecided (t : Txn) (len : Nat) (s : State) : State :=
  answer t.lane (some (padTo ((idBytes (s.lane t.lane) s).1.take len) len)) .idle (idBytes (s.lane t.lane) s).2

/-- Where the poison of a refused SECURITY_REGISTER begins (R47). -/
def securityFrom (s : State) (t : Txn) (addr : Word) : Nat :=
  if opClass (s.lane t.lane) t.cs t.op t.op2 = .security then
    laneAddr (s.lane t.lane) t.cs (hostAddr (s.lane t.lane) t addr) else 0

/-- An MB_OP_WRITE past the gate (R68). -/
def mbWriteDecided (t : Txn) (data : Bytes) (s : State) : State := appendInbound t.lane data (answer t.lane (some []) .idle s)

/-- An MB_OP_READ past the gate (R68, R396). -/
def mbReadDecided (t : Txn) (len : Nat) (s : State) : State :=
  (setWait t.lane mbDummy (answer t.lane (some (padTo ((s.lane t.lane).mb.outBuf.take len) len)) .idle s)).modLane t.lane
    fun l => { l with mb := { l.mb with outBuf := l.mb.outBuf.drop len } }

/-- An MB_OP_STATUS past the gate (R71). -/
def mbStatusDecided (t : Txn) (len : Nat) (s : State) : State :=
  setWait t.lane mbDummy
    (answer t.lane (some (padTo ((leBytes 8 (mailboxStatus (s.lane t.lane))).take len) len)) .idle s)

theorem exec_read (t : Txn) (addr : Word) (len : Nat) (e : ReadEnv) (s : State) :
    exec (.read t addr len e) s =
      guarded .read t (unitOf s t addr) (fun r => refuseFrom t r (readFrom s t addr) len) (readDecided t addr len e) s := rfl
theorem exec_readSfdp (t : Txn) (addr : Word) (len : Nat) (s : State) :
    exec (.readSfdp t addr len) s =
      guarded .sfdp t none (fun r => refuseFrom t r addr.toNat len) (sfdpDecided t addr len) s := rfl
theorem exec_readId (t : Txn) (len : Nat) (s : State) :
    exec (.readId t len) s =
      guarded .ident t none (fun r => refusePlain t r len) (idDecided t len) s := rfl
theorem exec_readStatus (t : Txn) (len : Nat) (sr0 sr1 : Byte) (s : State) :
    exec (.readStatus t len sr0 sr1) s =
      guarded .status t none (fun r => refusePlain t r len) (statusDecided t len sr0 sr1) s := rfl
theorem exec_writeEnable (t : Txn) (s : State) :
    exec (.writeEnable t) s =
      guarded .writeEnable t none (fun r => refusePlain t r 0) (writeEnableDecided t) s := rfl
theorem exec_program (t : Txn) (addr : Word) (data : Bytes) (s : State) :
    exec (.program t addr data) s =
      guarded .program t (unitOf s t addr) (refuseWriteAt t) (programDecided t addr data) s := rfl
theorem exec_erase (t : Txn) (addr : Word) (k : Nat) (s : State) :
    exec (.erase t addr k) s =
      guarded .erase t (unitOf s t addr) (refuseWriteAt t) (eraseDecided t addr k) s := rfl
theorem exec_eraseChip (t : Txn) (s : State) :
    exec (.eraseChip t) s =
      guarded .eraseChip t none (fun r => refuseFrom t r 0 0) (refuseFrom t rOpcode 0 0) s := rfl
theorem exec_writeConfig (t : Txn) (data : Bytes) (s : State) :
    exec (.writeConfig t data) s =
      guarded .config t none (refuseWriteAt t) (configDecided t data) s := rfl
theorem exec_addressMode (t : Txn) (s : State) :
    exec (.addressMode t) s =
      guarded .addrMode t none (fun r => refusePlain t r 0) (addressModeDecided t) s := rfl
theorem exec_reset (t : Txn) (s : State) :
    exec (.reset t) s =
      guarded .reset t none (fun r => refusePlain t r 0) (resetDecided t) s := rfl
theorem exec_suspend (t : Txn) (s : State) :
    exec (.suspend t) s =
      guarded .suspend t none (fun r => refusePlain t r 0) (suspendDecided t) s := rfl
theorem exec_resume (t : Txn) (s : State) :
    exec (.resume t) s =
      guarded .resume t none (fun r => refusePlain t r 0) (resumeDecided t) s := rfl
theorem exec_power (t : Txn) (len : Nat) (s : State) :
    exec (.power t len) s =
      guarded .power t none (fun r => refuseFrom t r 0 len) (refuseFrom t rOpcode 0 len) s := rfl
theorem exec_securityRegister (t : Txn) (addr : Word) (len : Nat) (s : State) :
    exec (.securityRegister t addr len) s =
      guarded .security t none (fun r => refuseFrom t r (securityFrom s t addr) len)
        (refuseFrom t rOpcode (securityFrom s t addr) len) s := rfl
theorem exec_unknown (t : Txn) (len : Nat) (s : State) :
    exec (.unknown t len) s =
      guarded .unknown t none (fun r => refuseFrom t r 0 len) (refuseFrom t rOpcode 0 len) s := rfl
theorem exec_mbOpWrite (t : Txn) (data : Bytes) (s : State) :
    exec (.mbOpWrite t data) s =
      guarded .mbWrite t none (fun r => refusePlain t r 0) (mbWriteDecided t data) s := rfl
theorem exec_mbOpRead (t : Txn) (len : Nat) (s : State) :
    exec (.mbOpRead t len) s =
      guarded .mbRead t none (fun r => refusePlain t r len) (mbReadDecided t len) s := rfl
theorem exec_mbOpStatus (t : Txn) (len : Nat) (s : State) :
    exec (.mbOpStatus t len) s =
      guarded .mbStatus t none (fun r => refusePlain t r len) (mbStatusDecided t len) s := rfl

/-! ### What the lane's answers leave -/

/-- A cut command is forwarded in no form (R43). -/
theorem cutAct_ne_forwarded (l : Lane) (t : Txn) (r : Nat) (p : CutPhase) (k : FwdKind) (o : Byte)
    (a : Option (Fin 2 × Nat)) (m : Option Byte) (d : Bytes) : cutAct l t r p ≠ .forwarded k o a m d := by
  simp only [cutAct]
  split <;> simp

/-- A command refused for its opcode is cut in its command phase, whatever its class (R43). -/
theorem cutAct_opcode (l : Lane) (t : Txn) :
    cutAct l t rOpcode (cutPhase l t rOpcode) = if l.drives then .truncated t.op .command else .idle := by
  have hp : cutPhase l t rOpcode = .command := by
    simp only [cutPhase]
    split <;> rfl
  rw [cutAct, hp]
  cases l.drives <;> rfl

/-- What a refusal leaves of its lane (R43, R47). -/
@[simp] theorem lane_refuseFrom (t : Txn) (r a len : Nat) (s : State) :
    (refuseFrom t r a len s).lane t.lane =
      { s.lane t.lane with
        rsp := some (poison t.lane r a len)
        fp := cutAct (s.lane t.lane) t r (cutPhase (s.lane t.lane) t r)
        wait := 0 } := lane_answer _ _ _ _

theorem onlyLane_refuseFrom (t : Txn) (r a len : Nat) (s : State) : OnlyLane t.lane s (refuseFrom t r a len s) :=
  onlyLane_modLane _ _ _

/-- What a refused write leaves of its lane (R46). -/
theorem lane_refuseWrite (t : Txn) (r : Nat) (p : CutPhase) (s : State) :
    (refuseWrite t r p s).lane t.lane =
      { (s.lane t.lane).modChips (s.reachList t.lane t.cs) (fun c => { c with wel := false }) with
        rsp := some []
        fp := cutAct (s.lane t.lane) t r p
        wait := 0
        wrdi := if (s.lane t.lane).drives then chipUnion (s.lane t.lane).wrdi (s.reachList t.lane t.cs)
          else (s.lane t.lane).wrdi } := by
  rw [refuseWrite, lane_modLane_same, lane_answer]
  rfl

@[simp] theorem refuseWrite_rsp (t : Txn) (r : Nat) (p : CutPhase) (s : State) :
    ((refuseWrite t r p s).lane t.lane).rsp = some [] := by rw [lane_refuseWrite]

@[simp] theorem refuseWrite_fp (t : Txn) (r : Nat) (p : CutPhase) (s : State) :
    ((refuseWrite t r p s).lane t.lane).fp = cutAct (s.lane t.lane) t r p := by rw [lane_refuseWrite]

@[simp] theorem refuseWrite_mode (t : Txn) (r : Nat) (p : CutPhase) (s : State) :
    ((refuseWrite t r p s).lane t.lane).mode = (s.lane t.lane).mode := by rw [lane_refuseWrite]; rfl

@[simp] theorem refuseWrite_counts (t : Txn) (r : Nat) (p : CutPhase) (s : State) :
    ((refuseWrite t r p s).lane t.lane).counts = (s.lane t.lane).counts := by rw [lane_refuseWrite]; rfl

@[simp] theorem refuseWrite_staging (t : Txn) (r : Nat) (p : CutPhase) (s : State) :
    (refuseWrite t r p s).staging = s.staging := rfl

/-- A refused write clears WEL in the shadow of every reached chip (R46). -/
theorem refuseWrite_wel {t : Txn} {s : State} {k : Fin 2} (hk : k ∈ s.reachList t.lane t.cs) (r : Nat) (p : CutPhase) :
    (((refuseWrite t r p s).lane t.lane).chips[k]).wel = false := by
  rw [lane_refuseWrite]
  dsimp only
  rw [Lane.modChips_at_mem _ hk]

/-- A refused write owes a WRDI to every reached chip of a lane that drives its flash side (R46). -/
theorem refuseWrite_wrdi {t : Txn} {s : State} {k : Fin 2} (hd : (s.lane t.lane).drives = true)
    (hk : k ∈ s.reachList t.lane t.cs) (r : Nat) (p : CutPhase) : k ∈ ((refuseWrite t r p s).lane t.lane).wrdi := by
  rw [lane_refuseWrite]
  dsimp only
  rw [if_pos hd]
  exact mem_chipUnion.mpr (.inr hk)

theorem onlyLane_refuseWrite (t : Txn) (r : Nat) (p : CutPhase) (s : State) : OnlyLane t.lane s (refuseWrite t r p s) :=
  ((OnlyLane.refl _ _).answer _ _).modLane _

/-- A claimed Reservoir that follows the lane's mode changes no lane (R141). -/
@[simp] theorem lane_followMode (n m : Fin 8) (cs : Fin 2) (s : State) : (followMode n cs s).lane m = s.lane m := by
  unfold followMode
  split
  · rfl
  · exact lane_modRes _ _ _ _

theorem onlyLaneRes_followMode {n : Fin 8} {cs : Fin 2} {s t : State} (h : OnlyLane n s t) :
    OnlyLaneRes n s (followMode n cs t) := by
  unfold followMode
  split
  · exact h.res
  · exact h.res.trans (onlyLaneRes_modRes _ _ _ _)

end Sys2Proof.Machine
end

section
/-! SUPPORT. The host commands that the lane answers by itself, that it sends to every reached chip, and that it refuses
(R34 to R38, R46, R49, R59, R63, R66, R600). -/
namespace Sys2Proof.Machine
open Sys2Proof

/-- Settles O12: every host command is a guarded transaction, and a silent one changes the lane's answer alone. -/
theorem silentTransactions : Obligations.silentTransactions := by
  intro t addr len k data e b0 b1 s h
  have silent : ∀ {i : Instr} {c : OpClass} {u : Option Nat} {no : Nat → State → State} {go : State → State},
      exec i s = guarded c t u no go s → exec i s = .next (noAnswer t.lane s) := fun hi =>
    hi.trans (guarded_silent (gate_silent _ h) _ _ _)
  simp only [List.forall_mem_cons, List.not_mem_nil, false_implies, implies_true, and_true]
  exact ⟨silent (exec_read ..), silent (exec_readSfdp ..), silent (exec_readId ..), silent (exec_readStatus ..),
    silent (exec_writeEnable ..), silent (exec_program ..), silent (exec_erase ..), silent (exec_eraseChip ..),
    silent (exec_writeConfig ..), silent (exec_addressMode ..), silent (exec_reset ..), silent (exec_suspend ..),
    silent (exec_resume ..), silent (exec_power ..), silent (exec_securityRegister ..), silent (exec_unknown ..),
    silent (exec_mbOpWrite ..), silent (exec_mbOpRead ..), silent (exec_mbOpStatus ..)⟩

/-! ### The commands that the lane answers by itself -/

/-- The status byte that a host sees: bits [7:2] of the register, WIP and WEL in bits [1:0]. -/
theorem statusByte_bits (sr : Byte) (wip wel : Bool) :
    let low : Byte := BitVec.ofNat 8 (b2n wip + 2 * b2n wel)
    low &&& 0xFC = 0 ∧ low.getLsbD 0 = wip ∧ low.getLsbD 1 = wel ∧
      (sr &&& 0xFC ||| low) &&& 0xFC = sr &&& 0xFC ∧ (sr &&& 0xFC ||| low).getLsbD 0 = wip ∧
      (sr &&& 0xFC ||| low).getLsbD 1 = wel := by
  intro low
  have hlow : low &&& 0xFC = 0 ∧ low.getLsbD 0 = wip ∧ low.getLsbD 1 = wel := by
    cases wip <;> cases wel <;> decide
  obtain ⟨h1, h2, h3⟩ := hlow
  refine ⟨h1, h2, h3, ?_, by simpa using h2, by simpa using h3⟩
  calc (sr &&& 0xFC ||| low) &&& 0xFC = sr &&& 0xFC &&& 0xFC ||| low &&& 0xFC := BitVec.and_or_distrib_right
    _ = sr &&& 0xFC := by rw [h1, BitVec.and_assoc, BitVec.and_self]; exact BitVec.or_zero

/-- The status byte of a READ_STATUS (R66): bits [7:2] are those of the primary flash's register, or zero for a chip in
VIRUND; WIP and WEL are those of the shadows as the read leaves them. -/
theorem statusDecided_rsp (t : Txn) (len : Nat) (sr0 sr1 : Byte) (s : State) :
    let x := (statusDecided t len sr0 sr1 s).lane t.lane
    let p := primaryFlash (s.lane t.lane).cfg t.cs
    let reach := s.reachList t.lane t.cs
    ∃ v : Byte, x.rsp = some (List.replicate len v) ∧
      v &&& 0xFC = (if ((s.lane t.lane).chips[p]).st = .virund then 0 else (if p = 0 then sr0 else sr1) &&& 0xFC) ∧
      v.getLsbD 0 = reach.any (fun f => (x.chips[f]).wip) ∧
      v.getLsbD 1 = (!reach.isEmpty && reach.all fun f => (x.chips[f]).wel) := by
  simp only [statusDecided, lane_answer, lane_modLane_same, beq_iff_eq]
  refine ⟨_, rfl, ?_⟩
  split
  · next hv =>
    obtain ⟨h1, h2, h3, -⟩ := statusByte_bits 0 ((s.reachList t.lane t.cs).any fun f => ((s.lane t.lane).chips[f]).wip)
      (!(s.reachList t.lane t.cs).isEmpty && (s.reachList t.lane t.cs).all fun f => ((s.lane t.lane).chips[f]).wel)
    simp only [hv] at *
    exact ⟨by simpa using h1, by simpa using h2, by simpa using h3⟩
  · next hv =>
    obtain ⟨-, -, -, h⟩ := statusByte_bits _ _ _
    exact h

/-- The shadows after a READ_STATUS (R63, R66): the primary flash's follows a read of opcode 0x05, but not in VIRUND. -/
theorem statusDecided_chips (t : Txn) (len : Nat) (sr0 sr1 : Byte) (s : State) :
    let p := primaryFlash (s.lane t.lane).cfg t.cs
    ((statusDecided t len sr0 sr1 s).lane t.lane).chips =
      if t.op = 0x05 ∧ ((s.lane t.lane).chips[p]).st ≠ .virund then
        ((s.lane t.lane).modChips [p] (statusSeen (if p = 0 then sr0 else sr1))).chips
      else (s.lane t.lane).chips := by
  simp only [statusDecided, lane_answer, lane_modLane_same, beq_iff_eq, Bool.not_eq_true', beq_eq_false_iff_ne]
  split <;> rfl

/-- Settles O7: READ_SFDP, READ_ID and READ_STATUS are answers of the lane, and the shadow follows a status read of opcode
0x05 alone. -/
theorem readingHostCommands : Obligations.readingHostCommands := by
  intro t addr len sr0 sr1 s
  dsimp only
  refine ⟨fun hp hi => completes_passed (exec_readSfdp ..) hp ?_, fun hp hi => completes_passed (exec_readSfdp ..) hp ?_,
    fun hp hj => completes_passed (exec_readId ..) hp ?_, fun hp hj hf => completes_passed (exec_readId ..) hp ?_,
    fun hp hv => completes_passed (exec_readStatus ..) hp ?_, fun hp hv => completes_passed (exec_readStatus ..) hp ?_⟩
  · rw [sfdpDecided, if_pos hi]
    exact ⟨by simp, by simp, by simp, ((OnlyLane.refl _ _).answer _ _).setWait _⟩
  · rw [sfdpDecided, if_neg (by simp [hi])]
    exact ⟨by simp [rOpcode], by simp, onlyLane_refuseFrom _ _ _ _ _⟩
  · have hd : idBytes (s.lane t.lane) s = ((s.lane t.lane).cfg.jedec, s) := by simp [idBytes, hj]
    rw [idDecided, hd]
    exact ⟨by simp, by simp, by simp, (OnlyLane.refl _ _).answer _ _⟩
  · have hd : idBytes (s.lane t.lane) s = drawBytes 3 s := by simp [idBytes, hj, hf]
    rw [idDecided, hd]
    exact ⟨by simp, by simp, by rw [lane_answer]; rfl, (onlyLane_drawBytes _ _ _).answer _ _⟩
  · obtain ⟨v, h1, h2, h3, h4⟩ := statusDecided_rsp t len sr0 sr1 s
    rw [if_neg hv] at h2
    refine ⟨fun f => ?_, ⟨v, h1, h2, h3, h4⟩, ((OnlyLane.refl _ _).modLane _).answer _ _⟩
    rw [statusDecided_chips]
    by_cases ho : t.op = 0x05
    · rw [if_pos ⟨ho, hv⟩, Lane.modChips_at]
      simp [ho]
    · rw [if_neg fun h => ho h.1, if_neg fun h => ho h.2]
  · obtain ⟨v, h1, h2, h3, h4⟩ := statusDecided_rsp t len sr0 sr1 s
    have hc : ((statusDecided t len sr0 sr1 s).lane t.lane).chips = (s.lane t.lane).chips :=
      (statusDecided_chips t len sr0 sr1 s).trans (if_neg fun h => h.2 hv)
    rw [if_pos hv] at h2
    rw [hc] at h3 h4
    refine ⟨⟨v, h1, h2, h3, h4⟩, ?_, hc, ((OnlyLane.refl _ _).modLane _).answer _ _⟩
    simp only [statusDecided, lane_answer, hv, beq_self_eq_true, Bool.true_or, if_true]

/-! ### The commands sent to every reached chip -/

/-- RESET_CONFIG_RESTORE clears the chip's note of the restore it waits for (R38). -/
theorem completes_resetConfigRestore (n : Fin 8) (f : Fin 2) (s : State) :
    Completes (.resetConfigRestore n f) s fun x =>
      (x.lane n).chips[f] = { (s.lane n).chips[f] with restorePending := false } ∧ OnlyLane n s x := by
  refine ⟨_, rfl, ?_, onlyLane_modLane _ _ _⟩
  rw [lane_modLane_same, Lane.modChips_at_mem _ (by simp)]

/-- What a forwarded WRITE_CONFIG leaves of its lane (R37, R63). -/
theorem lane_configForward (t : Txn) (cmd : Bytes) (q : List Bytes) (m : Proto) (s : State) :
    let l := s.lane t.lane
    let reach := s.reachList t.lane t.cs
    let seen := if (l.switchSeen[t.cs] ++ [cmd]).isPrefixOf q then l.switchSeen[t.cs] ++ [cmd] else [cmd]
    let x := (configForward t cmd q m s).lane t.lane
    x.chips = (l.modChips reach fun c => { c with st := .hostBusy, wip := true }).chips ∧ x.rsp = some [] ∧
      x.fp = castAct l t.op reach (cmd.drop 1) ∧
      x.mode = (if seen.length = q.length then l.mode.set t.cs.val m else l.mode) ∧
      x.switchSeen[t.cs] = if seen.length = q.length then [] else seen := by
  simp only [configForward, lane_modLane_same, lane_answer]
  refine ⟨rfl, rfl, rfl, ?_, ?_⟩
  · simp [Lane.modChips]
  · simp

theorem configDecided_forward {t : Txn} {data : Bytes} {s : State} {q : List Bytes} {m : Proto} (ha : allHost t s = true)
    (hq : configMatch (s.lane t.lane) t.cs (t.op :: data) = some (q, m)) :
    configDecided t data s = followMode t.lane t.cs (configForward t (t.op :: data) q m s) := by
  simp [configDecided, ha, hq]

theorem configDecided_refused {t : Txn} {data : Bytes} {s : State} (ha : allHost t s = true)
    (hq : configMatch (s.lane t.lane) t.cs (t.op :: data) = none) :
    configDecided t data s = refuseWrite t rOpcode .heldData
      (s.modLane t.lane fun l => { l with switchSeen := l.switchSeen.set t.cs.val [] }) := by
  simp [configDecided, ha, hq]

/-- Settles O8: each command is an answer of the lane and a change of the reached chips; a mode-switch sequence switches at
its last command. -/
theorem configuringHostCommands : Obligations.configuringHostCommands := by
  intro t s data q m n f
  dsimp only
  refine ⟨fun hp hb => completes_passed (exec_writeEnable ..) hp ?_, fun hp ha => completes_passed (exec_addressMode ..) hp ?_,
    fun hp ha => completes_passed (exec_reset ..) hp ?_, completes_resetConfigRestore n f s,
    fun hp ha hq => completes_passed (exec_writeConfig ..) hp ?_, fun hp ha hq => completes_passed (exec_writeConfig ..) hp ?_⟩
  · rw [writeEnableDecided, if_neg (by simp [hb])]
    refine ⟨fun k => ?_, by simp [Lane.modChips], by simp [Lane.modChips], ((OnlyLane.refl _ _).answer _ _).modLane _⟩
    rw [lane_modLane_same, lane_answer, Lane.modChips_at]
    split <;> rfl
  · rw [addressModeDecided, if_neg (by simp [ha])]
    exact ⟨by simp, by simp, by simp, onlyLaneRes_followMode (((OnlyLane.refl _ _).answer _ _).modLane _)⟩
  · rw [resetDecided, if_neg (by simp [ha])]
    refine ⟨fun k hk => ?_, by simp [Lane.modChips], by simp [Lane.modChips], by simp [Lane.modChips],
      onlyLaneRes_followMode (((OnlyLane.refl _ _).answer _ _).modLane _)⟩
    rw [lane_followMode, lane_modLane_same]
    dsimp only
    rw [Lane.modChips_at_mem _ (by simpa using hk)]
    exact ⟨rfl, rfl⟩
  · obtain ⟨h1, h2, h3, h4, h5⟩ := lane_configForward t (t.op :: data) q m s
    rw [configDecided_forward ha hq, lane_followMode]
    refine ⟨fun k hk => ?_, h2, h3, fun he => ?_, fun hpre hne => ?_,
      onlyLaneRes_followMode (((OnlyLane.refl _ _).answer _ _).modLane _)⟩
    · rw [h1, Lane.modChips_at_mem _ (by simpa using hk)]
    · have hm : ((configForward t (t.op :: data) q m s).lane t.lane).mode = (s.lane t.lane).mode.set t.cs.val m := by
        rw [h4, he, if_pos (by simp)]
      rw [hm]
      simp
    · have hl : ((s.lane t.lane).switchSeen[t.cs] ++ [t.op :: data]).length ≠ q.length := fun hl =>
        hne ((List.isPrefixOf_iff_prefix.mp hpre).eq_of_length hl)
      rw [h4, h5, if_pos hpre, if_neg hl, if_neg hl]
      exact ⟨rfl, rfl⟩
  · rw [configDecided_refused ha hq]
    have hr : ∀ k : Fin 2, (s.reachList t.lane t.cs).contains k = true → k ∈ (s.modLane t.lane fun l =>
        { l with switchSeen := l.switchSeen.set t.cs.val [] }).reachList t.lane t.cs := fun k hk => by
      rw [reachList_congr t.cs (s := s) (by simp) (by simp)]
      simpa using hk
    refine ⟨fun k hk => refuseWrite_wel (hr k hk) _ _, fun hd k hk => ?_, by simp, by simp,
      (onlyLane_modLane _ _ _).trans (onlyLane_refuseWrite _ _ _ _)⟩
    exact List.contains_iff_mem.mpr (refuseWrite_wrdi (by simpa [Lane.drives] using hd) (hr k hk) _ _)

/-! ### SUSPEND and RESUME, and the classes that are refused -/

/-- A class that is always refused ends in the poison of reason 0x02, cut in its command (R35, R43, R47). -/
theorem completes_alwaysRefused {i : Instr} {c : OpClass} {t : Txn} {s : State} {u : Option Nat} {no : Nat → State → State}
    {a len : Nat} (hi : exec i s = guarded c t u no (refuseFrom t rOpcode a len) s) (hp : Passed c t s) :
    Completes i s fun x =>
      (x.lane t.lane).rsp = some (poison t.lane 0x02 a len) ∧
        (x.lane t.lane).fp = (if (s.lane t.lane).drives then .truncated t.op .command else .idle) ∧
        (x.lane t.lane).chips = (s.lane t.lane).chips ∧ OnlyLane t.lane s x := by
  refine completes_passed hi hp ⟨by simp [rOpcode], ?_, by simp, onlyLane_refuseFrom _ _ _ _ _⟩
  rw [lane_refuseFrom]
  exact cutAct_opcode _ _

/-- Settles O10: SUSPEND and RESUME are sent and change the chips concerned; the other classes are always refused, and an
opcode of no class is refused at the gate. -/
theorem suspendResumeAndRefused : Obligations.suspendResumeAndRefused := by
  intro t addr len s
  dsimp only
  refine ⟨fun hp hb hr => completes_passed (exec_suspend ..) hp ?_, fun hp hh hr => completes_passed (exec_resume ..) hp ?_,
    fun hp => completes_alwaysRefused (exec_eraseChip ..) hp, fun hp => completes_alwaysRefused (exec_power ..) hp,
    fun hp => ?_, fun hg => ?_⟩
  · rw [suspendDecided, if_neg (by rw [hr]; exact Bool.false_ne_true), if_neg hb]
    refine ⟨by simp [Lane.modChips], fun f hf => ?_, by simp [Lane.modChips], ((OnlyLane.refl _ _).answer _ _).modLane _⟩
    rw [lane_modLane_same, Lane.modChips_at_mem _ hf]
  · rw [resumeDecided, if_neg (by rw [hr]; exact Bool.false_ne_true), if_neg hh]
    refine ⟨by simp [Lane.modChips], fun f hf => ?_, by simp [Lane.modChips], ((OnlyLane.refl _ _).answer _ _).modLane _⟩
    rw [lane_modLane_same, Lane.modChips_at_mem _ hf]
    exact ⟨rfl, rfl⟩
  · have hf : securityFrom s t addr = laneAddr (s.lane t.lane) t.cs (hostAddr (s.lane t.lane) t addr) :=
      if_pos (passed_class hp)
    rw [← hf]
    exact completes_alwaysRefused (exec_securityRegister ..) hp
  · refine ⟨refuseFrom t 0x02 0 len s, ?_, by simp, ?_, by simp, onlyLane_refuseFrom _ _ _ _ _⟩
    · rw [exec_unknown, guarded_refused hg, lookFaults_clean (gate_look hg (.inr rfl))]
    · rw [lane_refuseFrom]
      exact cutAct_opcode _ _

end Sys2Proof.Machine
end

section
/-! SUPPORT. The mailbox opcodes of a lane, the hand-on of a whole frame, and the gap timeout (R68 to R71, R391, R392, R599). -/
namespace Sys2Proof.Machine
open Sys2Proof

/-! ### The mailbox opcodes -/

/-- The lanes do not depend on the power state (R216). -/
@[simp] theorem lane_wakeIdle (s : State) (n : Fin 8) : (wakeIdle s).lane n = s.lane n := by
  unfold wakeIdle
  split <;> rfl

theorem wakeIdle_run {s : State} (h : s.chuck.power = .run) : wakeIdle s = s := if_neg (by simp [h])

/-- A port that is not served hands on no frame. -/
theorem takeFrames_paused {n : Fin 8} {s : State} (h : (s.lane n).mb.paused = true) (fuel : Nat) :
    takeFrames n fuel s = s := by
  cases fuel with
  | zero => rfl
  | succ k => simp [takeFrames, h]

/-- A write that finds room in the buffer of a port that is not served is appended whole (R68, R69). -/
theorem appendInbound_paused {n : Fin 8} {s : State} {data : Bytes} (hp : (s.lane n).mb.paused = true)
    (hd : (s.lane n).mb.discard = false) (hr : (s.lane n).mb.inBuf.length + data.length ≤ 4096) :
    appendInbound n data s = (if data = [] then s else wakeIdle s).modLane n fun l =>
      { l with mb := { l.mb with discard := false, zeroRun := 0, inBuf := l.mb.inBuf ++ data } } := by
  generalize hs : (if data = [] then s else wakeIdle s) = s1
  have hl : s1.lane n = s.lane n := by rw [← hs]; split <;> simp
  have hroom : data.length ≤ inSpace (s.lane n).mb := by simp only [inSpace]; omega
  simp only [appendInbound, hs, hl, hp, hd, Bool.false_eq_true, if_false, Bool.true_or, if_true, Nat.min_eq_right hroom,
    List.take_length, List.drop_length, discardBytes]
  rw [takeFrames_paused (by simp [hl, hp])]
  exact modLane_self (by simp [hl, frameWaits, hp])

/-- Zero bytes before a frame are skipped, and a frame that begins with another byte stands as it is (R70). -/
theorem skipZeros_of_head {b : Bytes} (h : b.head? ≠ some 0) : skipZeros b = b := by
  cases b with
  | nil => rfl
  | cons x xs =>
    have hx : (x == 0) = false := beq_eq_false_iff_ne.mpr fun e => h (by simp [e])
    simp only [skipZeros, List.dropWhile_cons, hx, Bool.false_eq_true, if_false]

/-! ### A whole frame -/

/-- The state in which a frame that filled the buffer has been handed on (R391). -/
def handedOn (n : Fin 8) (f : Bytes) (s : State) : State :=
  (s.modLane n fun l => { l with mb := { l.mb with inBuf := [], taken := f.length } }).modStolik fun k =>
    { k with waiting := k.waiting ++ [⟨.hp n, f⟩] }

/-- An empty buffer hands on nothing. -/
theorem takeFrames_empty {n : Fin 8} {s : State} (hb : (s.lane n).mb.inBuf = []) (hl : (s.lane n).mb.lost = false)
    (fuel : Nat) : (takeFrames n fuel s).stolik = s.stolik ∧ ((takeFrames n fuel s).lane n).mb.inBuf = [] := by
  cases fuel with
  | zero => exact ⟨rfl, hb⟩
  | succ k =>
    simp only [takeFrames, hb, hl, skipZeros, List.dropWhile_nil]
    split
    · exact ⟨rfl, hb⟩
    · simp

section
variable {n : Fin 8} {s : State} {f : Bytes} (hp : (s.lane n).mb.paused = false) (hd : (s.lane n).mb.discard = false)
  (hb : (s.lane n).mb.inBuf = f) (hz : f.head? ≠ some 0) (h16 : 16 ≤ f.length)
include hp hd hb hz h16

/-- A whole frame with a right CRC that finds room is handed on, and leaves the buffer empty (R391, R599). -/
theorem takeFrames_whole (hlen : f.length = 16 + u32 f 8) (hh : headerBad f = false) (hc : crcOk f = true)
    (hr : s.portRoom (.hp n) = true) (fuel : Nat) :
    takeFrames n (fuel + 1) s = takeFrames n fuel (handedOn n f s) := by
  have hr' : (s.modLane n fun l => { l with mb := { l.mb with inBuf := f, taken := f.length } }).portRoom (.hp n) = true := hr
  rw [takeFrames]
  simp [hp, hd, hb, skipZeros_of_head hz, Nat.not_lt.mpr h16, hh, ← hlen, hc, hr', modLane_modLane, handedOn]

theorem completes_mailboxFrameRelease (hlen : f.length = 16 + u32 f 8) (hl : (s.lane n).mb.lost = false)
    (hh : headerBad f = false) (hc : crcOk f = true) (hr : s.portRoom (.hp n) = true) :
    Completes (.mailboxFrameRelease n) s fun x =>
      x.stolik.waiting = s.stolik.waiting ++ [⟨.hp n, f⟩] ∧ (x.lane n).mb.inBuf = [] := by
  have hlane : (handedOn n f s).lane n = { s.lane n with mb := { (s.lane n).mb with inBuf := [], taken := f.length } } :=
    lane_modLane_same _ _ _
  obtain ⟨h1, h2⟩ := takeFrames_empty (s := handedOn n f s) (n := n) (by rw [hlane]) (by rw [hlane]; exact hl)
    ((s.lane n).mb.inBuf.length + 1)
  refine ⟨_, rfl, ?_⟩
  rw [takeFrames_whole hp hd hb hz h16 hlen hh hc hr]
  exact ⟨by rw [h1]; rfl, h2⟩

/-- A frame that stays incomplete for T_gap fails (R391). -/
theorem exec_mailboxGapTimeout (hlen : f.length < 16 + u32 f 8) :
    exec (.mailboxGapTimeout n) s = .next (failFrame n (if (s.lane n).mb.lost then .badFrame else .lengthShort) []
      (s.modLane n fun l => { l with mb := { l.mb with inBuf := f } })) := by
  show execMailboxGapTimeout n s = _
  simp [execMailboxGapTimeout, hp, hd, hb, skipZeros_of_head hz, Nat.not_lt.mpr h16, Nat.not_le.mpr hlen]

end

/-! ### A frame that stays incomplete -/

/-- A failed frame with nothing behind it is answered, and its port enters DISCARD with an empty buffer (R391, R392). -/
theorem failFrame_nil (n : Fin 8) (r : Res) (s : State) :
    ((failFrame n r [] s).stolik.outbox.head?.map fun x => (x.port, x.result)) = some (.hp n, r) ∧
      ((failFrame n r [] s).lane n).mb.discard = true ∧ ((failFrame n r [] s).lane n).mb.inBuf = [] := by
  refine ⟨?_, ?_, ?_⟩
  · simp only [failFrame, State.modLane_stolik, respond, sendResp_outbox]
    rfl
  · simp [failFrame, enterDiscard, resync]
  · simp [failFrame, enterDiscard, resync]

/-- Settles O11: the mailbox opcodes are answers of the lane; a whole frame is handed on, and an incomplete one fails. -/
theorem mailboxPortsAndFrames : Obligations.mailboxPortsAndFrames := by
  refine ⟨fun t data len s => ⟨fun hp hm hd hr => completes_passed (exec_mbOpWrite ..) hp ?_,
    fun hp => completes_passed (exec_mbOpRead ..) hp ?_, fun hp => completes_passed (exec_mbOpStatus ..) hp ?_⟩,
    fun n f s hp hd => ⟨fun hb hz h16 hlen hl hh hc hr => completes_mailboxFrameRelease hp hd hb hz h16 hlen hl hh hc hr,
      fun hb hz h16 hlen => ⟨_, exec_mailboxGapTimeout hp hd hb hz h16 hlen, failFrame_nil ..⟩⟩⟩
  · rw [mbWriteDecided, appendInbound_paused (by simpa using hm) (by simpa using hd) (by simpa using hr)]
    generalize hw : (if data = [] then answer t.lane (some []) .idle s else wakeIdle (answer t.lane (some []) .idle s)) = s1
    have hl : s1.lane t.lane = (answer t.lane (some []) .idle s).lane t.lane := by rw [← hw]; split <;> simp
    refine ⟨by simp [hl], by simp [hl], by simp [hl], fun hrun => ?_⟩
    have hs : s1 = answer t.lane (some []) .idle s := by
      rw [← hw, wakeIdle_run (by exact hrun), ite_self]
    rw [hs]
    exact ((OnlyLane.refl _ _).answer _ _).modLane _
  · exact ⟨by simp [mbReadDecided], by simp [mbReadDecided], (((OnlyLane.refl _ _).answer _ _).setWait _).modLane _⟩
  · exact ⟨by simp [mbStatusDecided], by simp [mbStatusDecided], ((OnlyLane.refl _ _).answer _ _).setWait _⟩

end Sys2Proof.Machine
end

section
/-! SUPPORT. The lane's own steps: WRDI, the status poll, Virund's ownership of a chip, and the steps of a takeover (R46, R63
to R67, R75, R79 to R81). -/
namespace Sys2Proof.Machine
open Sys2Proof

/-- A step of the lane that only changes its lane. -/
theorem completes_modLane {i : Instr} {n : Fin 8} {s : State} {f : Lane → Lane} {P : State → Prop}
    (hi : exec i s = .next (s.modLane n f)) (hP : OnlyLane n s (s.modLane n f) → P (s.modLane n f)) : Completes i s P :=
  ⟨_, hi, hP (onlyLane_modLane n f s)⟩

/-! ### A chip's shadow -/

/-- What a status read shows of a chip that is HOST_BUSY (R63). -/
theorem statusSeen_hostBusy {c : FlashChip} (h : c.st = .hostBusy) (sr : Byte) :
    (statusSeen sr c).wip = sr.getLsbD 0 ∧ (statusSeen sr c).wel = sr.getLsbD 1 ∧
      (sr.getLsbD 0 = true → (statusSeen sr c).st = .hostBusy) ∧
      (sr.getLsbD 0 = false → c.restorePending = false →
        (statusSeen sr c).st = .host ∧ (statusSeen sr c).suspended = (c.suspended || c.suspendSent)) := by
  simp only [statusSeen, h, true_and]
  split
  · next hc => exact ⟨rfl, rfl, fun hw => absurd hc (by simp only [hw, Bool.not_true]; simp), fun _ _ => ⟨rfl, rfl⟩⟩
  · next hc =>
    exact ⟨rfl, rfl, fun _ => rfl, fun hw hr => absurd (by simp only [hw, hr, Bool.not_false, and_self]) hc⟩

/-! ### WRDI, the status poll, and Virund's ownership of a chip -/

theorem exec_wrdiSend {n : Fin 8} {s : State} (hs : s.spindlesRun = true) (hw : (s.lane n).wrdi ≠ []) :
    exec (.wrdiSend n) s =
      let chips := (s.lane n).wrdi.filter fun f => ((s.lane n).chips[f]).st != .virund
      .next (s.modLane n fun l =>
        { l.modChips chips (fun c => { c with wel := false }) with
          wrdi := []
          fp := if chips = [] then l.fp else .own 0x04 chips }) := by
  show execWrdiSend n s = _
  rw [execWrdiSend, whileRunning_true hs]
  exact if_neg hw

theorem exec_flashStatusPoll {n : Fin 8} {f : Fin 2} {sr : Byte} {s : State} (hs : s.spindlesRun = true)
    (hc : ((s.lane n).chips[f]).st = .hostBusy) :
    exec (.flashStatusPoll n f sr) s = .next (s.modLane n fun l => l.modChips [f] (statusSeen sr)) := by
  show execFlashStatusPoll n f sr s = _
  rw [execFlashStatusPoll, whileRunning_true hs]
  exact if_pos hc

theorem exec_virundEnter {n : Fin 8} {f : Fin 2} {s : State} (hs : s.spindlesRun = true) (hm : s.mayEnter n f = true)
    (hw : s.writeWanted n f = true) : exec (.virundEnter n f) s =
      .next (s.modLane n fun l => l.modChips [f] fun c => { c with st := .virund, wip := false }) := by
  have hf : s.chipFree n f = true := by
    rw [State.mayEnter, Bool.and_eq_true] at hm
    exact hm.1
  show execVirundEnter n f s = _
  rw [execVirundEnter, whileRunning_true hs, if_neg (by simp [hf, hw]), if_pos hm]

theorem exec_virundExit {n : Fin 8} {f : Fin 2} {s : State} (hs : s.spindlesRun = true)
    (hc : ((s.lane n).chips[f]).st = .virund) : exec (.virundExit n f) s =
      .next (s.modLane n fun l =>
        { l.modChips [f] (fun c => { c with st := .host, wip := false }) with
          fp := .own (if ((s.lane n).chips[f]).wel then 0x06 else 0x04) [f] }) := by
  show execVirundExit n f s = _
  rw [execVirundExit, whileRunning_true hs]
  exact if_pos hc

/-! ### The steps of a takeover -/

/-- Step 4 of a takeover binds the lane's own Riffle where it is in service, the Weir record does not name it, and the lane
has bound no other (R79). -/
theorem bindRiffle_own {n : Fin 8} {s : State} (hi : (s.riffle (n.castLE (by decide))).inService = true)
    (hr : recordNamesRiffle n s.weir = false) (hb : ∀ i, (s.riffle i).boundTo ≠ some n) :
    bindRiffle n s = s.modLane n fun l => { l with riffle := some (n.castLE (by decide)) } := by
  have hf : ((fins 32).find? fun i => (s.riffle i).boundTo == some n && (s.riffle i).inService) = none := by
    simp [hb]
  simp only [bindRiffle, hf, hi, hr, Bool.not_false, Bool.and_self, if_true]

/-- A bound engine that takes a leaf leaves its lane's Riffle and takeover as they are (R120). -/
theorem startHash_binding (l : Lane) : (startHash l).riffle = l.riffle ∧ (startHash l).takeover = l.takeover := by
  simp only [startHash]
  split
  · exact ⟨rfl, rfl⟩
  · split <;> exact ⟨rfl, rfl⟩

/-- The BLOCK reset of a lane engine, with its Riffles as they are, touches no lane (R431). -/
theorem blockReset_engine_lanes (k : Fin 10) (h : Bool) (s : State) :
    (blockReset (k.castLE (by decide)) 0 h s).lanes = s.lanes := by
  have hk : (k.castLE (by decide) : Fin 64).val ≤ 9 := Nat.le_of_lt_succ k.isLt
  by_cases hb : s.inBlockReset (k.castLE (by decide)) (blockUnit (k.castLE (by decide)) 0) = true
  · exact congrArg State.lanes (if_pos hb)
  · by_cases h7 : (k.castLE (by decide) : Fin 64).val ≤ 7
    · have hu : blockUnit (k.castLE (by decide)) 0 ≠ 1 := by simp only [blockUnit, if_pos h7]; decide
      exact congrArg State.lanes ((if_neg hb).trans ((if_pos h7).trans (if_neg hu)))
    · refine (congrArg State.lanes ((if_neg hb).trans ((if_neg h7).trans (if_pos hk)))).trans ?_
      exact (apply_ite State.lanes _ _ _).trans (ite_self _)

@[simp] theorem logTakeover_lanes (n : Fin 8) (k : Option (Fin 10)) (r : Option (Fin 32)) (s : State) :
    (logTakeover n k r s).lanes = s.lanes := rfl

/-- Step 5 of a takeover: it ends with its entry and the BLOCK reset of the engine replaced (R78, R81). -/
theorem exec_spareTakeoverComplete {n : Fin 8} {k : Takeover} {s : State} (hs : s.spindleServes n = true)
    (ht : (s.lane n).takeover = some k) (hk : k.hashing = true) :
    exec (.spareTakeoverComplete n) s =
      let s1 := s.modLane n fun l => { l with takeover := none, tableBad := false }
      .next (blockReset (k.replaced.castLE (by decide)) 0 true (logTakeover n (some k.spare) (s1.lane n).riffle s1)) := by
  show execSpareTakeoverComplete n s = _
  simp only [execSpareTakeoverComplete, whileServing_true hs, ht, hk, Bool.not_true, Bool.false_eq_true, if_false]

/-- Step 4 of a takeover: the Riffle is bound, and hashing resumes (R79, R80). -/
theorem exec_shadowHashResume {n : Fin 8} {k : Takeover} {s : State} (hs : s.spindlesRun = true)
    (ht : (s.lane n).takeover = some k) (hk : k.hashing = false) :
    exec (.shadowHashResume n) s =
      .next ((bindRiffle n s).modLane n fun l => startHash { l with takeover := some { k with hashing := true } }) := by
  show execShadowHashResume n s = _
  simp only [execShadowHashResume, whileRunning_true hs, ht, hk, Bool.false_eq_true, if_false]

/-- Settles O13: each step that its conditions admit is an update of its lane; step 5 of a takeover also resets the engine
replaced, which no lane is served by. -/
theorem chipOwnershipAndTakeover : Obligations.chipOwnershipAndTakeover := by
  refine ⟨fun n f sr s hs => ⟨fun hw hc => ?_, fun hc => ?_, fun hm hw => ?_, fun hc => ?_⟩,
    fun n k s => ⟨fun hs => ?_, fun hs ht hk hi hr hb => ?_, fun hs ht hk => ?_⟩⟩
  · refine completes_modLane (exec_wrdiSend hs hw) fun ho => ⟨by simp, ?_, fun k => ?_, ho⟩
    · simp only [lane_modLane_same]
      exact if_neg hc
    · rw [lane_modLane_same]
      dsimp only
      rw [Lane.modChips_at]
      generalize (List.contains _ k) = b
      cases b <;> simp
  · refine completes_modLane (exec_flashStatusPoll hs hc) fun ho => ?_
    rw [lane_modLane_same, Lane.modChips_at_mem _ (by simp)]
    obtain ⟨h1, h2, h3, h4⟩ := statusSeen_hostBusy hc sr
    exact ⟨h1, h2, h3, h4, ho⟩
  · refine completes_modLane (exec_virundEnter hs hm hw) fun ho => ⟨?_, ho⟩
    rw [lane_modLane_same, Lane.modChips_at_mem _ (by simp)]
  · refine completes_modLane (exec_virundExit hs hc) fun ho => ⟨?_, by simp, ho⟩
    rw [lane_modLane_same]
    dsimp only
    rw [Lane.modChips_at_mem _ (by simp)]
  · exact completes_modLane (whileServing_true hs _) fun ho => ⟨by simp, ho⟩
  · obtain ⟨h1, h2⟩ := startHash_binding
      { s.lane n with riffle := some (n.castLE (by decide)), takeover := some { k with hashing := true } }
    refine ⟨_, exec_shadowHashResume hs ht hk, ?_⟩
    rw [bindRiffle_own hi hr hb, modLane_modLane]
    refine ⟨?_, ?_, onlyLane_modLane _ _ _⟩
    · rw [lane_modLane_same]; exact h1
    · rw [lane_modLane_same]; exact h2
  · refine ⟨_, exec_spareTakeoverComplete hs ht hk, ?_⟩
    generalize hx : blockReset _ _ _ _ = x
    have hn : x.lane n = { s.lane n with takeover := none, tableBad := false } := by
      rw [← hx, State.lane, blockReset_engine_lanes, logTakeover_lanes]
      exact lane_modLane_same _ _ _
    exact ⟨by rw [hn], by rw [hn], by rw [hn]⟩

end Sys2Proof.Machine
end

section
/-! SUPPORT. PROGRAM and ERASE: what a refused decision logs, what a decision counts, and the staging buffer (R45, R46, R63,
R88 to R94, R100). -/
namespace Sys2Proof.Machine
open Sys2Proof

/-! ### What a refused decision logs (R100) -/

/-- Two states differ, on a lane and in the staging buffer, in the rate limits of RULE_DENY entries alone. -/
structure DenyLogged (n : Fin 8) (s t : State) : Prop where
  staging : t.staging = s.staging
  lane : ∃ d, t.lane n = { s.lane n with denyLog := d }

theorem DenyLogged.refl (n : Fin 8) (s : State) : DenyLogged n s s := ⟨rfl, _, rfl⟩

theorem DenyLogged.trans {n : Fin 8} {s t u : State} (h : DenyLogged n s t) (k : DenyLogged n t u) : DenyLogged n s u := by
  obtain ⟨d, hd⟩ := h.lane
  obtain ⟨e, he⟩ := k.lane
  exact ⟨k.staging.trans h.staging, e, by rw [he, hd]⟩

theorem denyLogged_logDeny (n : Fin 8) (r u a : Nat) (s : State) : DenyLogged n s (logDeny n r u a s) := by
  unfold logDeny
  split
  · exact .refl n s
  · dsimp only
    split
    · exact .refl n s
    · split
      · exact ⟨rfl, _, lane_modLane_same _ _ _⟩
      · split
        · exact ⟨rfl, _, lane_modLane_same _ _ _⟩
        · exact ⟨rfl, _, lane_modLane_same _ _ _⟩

theorem denyLogged_logErase (t : Txn) (r u base : Nat) (vs : List Nat) (s : State) :
    DenyLogged t.lane s (logErase t r u base vs s) := by
  unfold logErase
  induction vs generalizing s with
  | nil => exact .refl _ s
  | cons v vs ih => exact (denyLogged_logDeny _ _ _ _ s).trans (ih _)

/-! ### What a decision counts (R95, R98) -/

/-- A decision counts in the hit counters, or in DEFAULT_HITS, alone. -/
theorem countHit_eq (u : Nat) (l : Lane) :
    ∃ h d, countHit u l = { l with hits := h, counts := { l.counts with defaultHits := d } } := by
  unfold countHit
  split
  · exact ⟨_, _, rfl⟩
  · exact ⟨_, _, rfl⟩

theorem countHits_eq (us : List Nat) (l : Lane) :
    ∃ h d, us.foldl (fun l u => countHit u l) l = { l with hits := h, counts := { l.counts with defaultHits := d } } := by
  induction us generalizing l with
  | nil => exact ⟨_, _, rfl⟩
  | cons u us ih =>
    obtain ⟨h, d, e⟩ := countHit_eq u l
    obtain ⟨h', d', e'⟩ := ih (countHit u l)
    exact ⟨h', d', by rw [List.foldl_cons, e', e]⟩

/-! ### Nothing is forwarded -/

/-- A write that is not forwarded: WEL is cleared in the shadow of every chip that was reached, and nothing is sent (R46). -/
structure NotSent (t : Txn) (s x : State) : Prop where
  wel : ∀ k : Fin 2, (s.reachList t.lane t.cs).contains k = true → ((x.lane t.lane).chips[k]).wel = false
  fp : ∀ k o a m d, (x.lane t.lane).fp ≠ .forwarded k o a m d
  rsp : (x.lane t.lane).rsp = some []

theorem notSent_refuseWrite {t : Txn} {s s1 : State} (h : s1.reachList t.lane t.cs = s.reachList t.lane t.cs) (r : Nat)
    (p : CutPhase) : NotSent t s (refuseWrite t r p s1) :=
  ⟨fun k hk => refuseWrite_wel (by rw [h]; simpa using hk) r p,
    fun k o a m d => by rw [refuseWrite_fp]; exact cutAct_ne_forwarded _ _ _ _ _ _ _ _ _, refuseWrite_rsp _ _ _ _⟩

theorem NotSent.logged {t : Txn} {s x y : State} (h : NotSent t s x) (hl : DenyLogged t.lane x y) : NotSent t s y := by
  obtain ⟨d, hd⟩ := hl.lane
  exact ⟨fun k hk => by rw [hd]; exact h.wel k hk, fun k o a m e => by rw [hd]; exact h.fp k o a m e,
    by rw [hd]; exact h.rsp⟩

/-! ### The staging buffer (R92) -/

theorem mem_stageProgram {n w : Fin 8} {k page off : Nat} {data : Bytes} {s : State} {y : StagedUnit}
    (h : y ∈ (stageProgram n w k page off data s).staging) : (y.lane = n ∧ y.window = w ∧ y.k = k) ∨ y ∈ s.staging := by
  unfold stageProgram at h
  split at h
  · obtain ⟨x, hx, rfl⟩ := List.mem_map.mp h
    split
    · next hm => exact .inl hm
    · exact .inr hx
  · rcases List.mem_append.mp h with h | h
    · exact .inr h
    · rw [List.mem_singleton.mp h]
      exact .inl ⟨rfl, rfl, rfl⟩

@[simp] theorem stageProgram_lane (n m w : Fin 8) (k page off : Nat) (data : Bytes) (s : State) :
    (stageProgram n w k page off data s).lane m = s.lane m := by
  unfold stageProgram
  split <;> rfl

/-- The staged unit after a program: the data combined by AND into what it held, or into an erased unit (R92). -/
theorem staged_stageProgram (n w : Fin 8) (k page off : Nat) (data : Bytes) (s : State) :
    ((stageProgram n w k page off data s).staged n w k).map (·.bytes) =
      some (andPage page off 0 data (((s.staged n w k).map (·.bytes)).getD (List.replicate 4096 0xFF))) := by
  unfold stageProgram
  split
  · next x hx =>
    rw [hx]
    simp only [State.staged, List.find?_map] at hx ⊢
    have hkeys : ((fun u => u.lane == n && u.window == w && u.k == k) ∘ fun u : StagedUnit =>
        if u.lane = n ∧ u.window = w ∧ u.k = k then { u with bytes := andPage page off 0 data u.bytes } else u) =
        fun u => u.lane == n && u.window == w && u.k == k := by
      funext u
      simp only [Function.comp]
      split <;> rfl
    rw [hkeys, hx]
    have hm : x.lane = n ∧ x.window = w ∧ x.k = k := by simpa [and_assoc] using List.find?_some hx
    simp only [Option.map_some, Option.getD_some, if_pos hm]
  · next hx =>
    have hnew : ([⟨n, w, k, andPage page off 0 data (List.replicate unitBytes 0xFF), false⟩] : List StagedUnit).find?
        (fun u => u.lane == n && u.window == w && u.k == k) =
        some ⟨n, w, k, andPage page off 0 data (List.replicate unitBytes 0xFF), false⟩ :=
      List.find?_cons_of_pos (by simp only [beq_self_eq_true, Bool.and_self])
    rw [hx]
    simp only [State.staged] at hx ⊢
    rw [List.find?_append, hx, hnew]
    rfl

/-! ### PROGRAM -/

/-- A unit of a class other than DENY has a winner of that class (R86, R88). -/
theorem winner_of_accessOf {rules : List RuleEntry} {u : Nat} {a : Access} (h : accessOf rules u = a) (ha : a ≠ .deny) :
    ∃ w, winner rules u = some w ∧ w.2.access = a := by
  unfold accessOf at h
  split at h
  · exact absurd h.symm ha
  · next w hw => exact ⟨w, hw, h⟩

@[simp] theorem lockedAway_modLane (s : State) (n m w : Fin 8) (f : Lane → Lane) :
    (s.modLane m f).lockedAway n w = s.lockedAway n w := rfl

@[simp] theorem staged_modLane (s : State) (n m w : Fin 8) (k : Nat) (f : Lane → Lane) :
    (s.modLane m f).staged n w k = s.staged n w k := rfl

@[simp] theorem stagingFree_modLane (s : State) (m : Fin 8) (f : Lane → Lane) :
    (s.modLane m f).stagingFree = s.stagingFree := rfl

/-- The lane unit that the host address of a transaction names. -/
def unitAt (t : Txn) (addr : Word) (s : State) : Nat :=
  mergeUnit (s.lane t.lane).cfg t.cs (hostAddr (s.lane t.lane) t addr / 4096)

/-- The chip that the host address of a transaction maps to. -/
def chipAt (t : Txn) (addr : Word) (s : State) : Fin 2 := (s.flashOf t.lane (unitAt t addr s)).1

/-- A write forwarded to the byte that the remap windows give leaves its chip HOST_BUSY (R52, R63). -/
def writeSent (k : FwdKind) (t : Txn) (addr : Word) (data : Bytes) (s s1 : State) : State :=
  (answer t.lane (some []) (.forwarded k t.op (some (s.flashByte t.lane (unitAt t addr s)
    (hostAddr (s.lane t.lane) t addr % 4096))) none data) s1).modLane t.lane fun l =>
      l.modChips [chipAt t addr s] fun c => { c with st := .hostBusy, wip := true }

section
variable {t : Txn} {addr : Word} {s : State} {data : Bytes} {w : Nat × RuleEntry}
  (hu : hostAddr (s.lane t.lane) t addr / 4096 < reachUnits (s.lane t.lane) t)
include hu

theorem programDecided_open (hw : winner (s.lane t.lane).rules (unitAt t addr s) = some w) (ha : w.2.access = .openFlash)
    (hc : ((s.lane t.lane).chips[chipAt t addr s]).st = .host) :
    programDecided t addr data s =
      writeSent .program t addr data s (s.modLane t.lane (countHit (unitAt t addr s))) := by
  unfold unitAt at hw
  unfold chipAt unitAt at hc
  unfold programDecided
  simp only [unitBytes, if_neg (Nat.not_le.mpr hu), hw, ha, hc, ne_eq, not_true_eq_false, if_false]
  rfl

theorem programDecided_stage (hw : winner (s.lane t.lane).rules (unitAt t addr s) = some w)
    (ha : w.2.access = .stageWrite) (hb : ((s.lane t.lane).chips[chipAt t addr s]).st ≠ .hostBusy)
    (he : ((s.lane t.lane).chips[chipAt t addr s]).wel = true) (hl : s.lockedAway t.lane w.2.window = false)
    (hf : ((s.staged t.lane w.2.window (unitAt t addr s - w.2.base)).isSome || s.stagingFree) = true) :
    programDecided t addr data s = refuseWrite t rRuleDeny .address
      ((stageProgram t.lane w.2.window (unitAt t addr s - w.2.base)
        (flashPage ((s.lane t.lane).flash[chipAt t addr s]).sfdp) (hostAddr (s.lane t.lane) t addr % 4096) data
        (s.modLane t.lane (countHit (unitAt t addr s)))).modLane t.lane fun l =>
          l.count fun c => { c with stageCaptured := inc48 c.stageCaptured }) := by
  have hfull : ¬ ((s.staged t.lane w.2.window (unitAt t addr s - w.2.base)).isNone = true ∧ (!s.stagingFree) = true) := by
    rintro ⟨h1, h2⟩
    simp_all
  unfold unitAt at hw hfull
  unfold chipAt unitAt at hb he
  unfold programDecided
  simp only [unitBytes, if_neg (Nat.not_le.mpr hu), hw, ha, if_neg hb, he, lockedAway_modLane, hl, staged_modLane,
    stagingFree_modLane, Bool.not_true, Bool.false_eq_true, false_or, if_neg hfull, if_false]
  rfl

theorem programDecided_refused (h1 : accessOf (s.lane t.lane).rules (unitAt t addr s) ≠ .openFlash)
    (h2 : accessOf (s.lane t.lane).rules (unitAt t addr s) ≠ .stageWrite) :
    ∃ r, DenyLogged t.lane (refuseWrite t r .address (s.modLane t.lane (countHit (unitAt t addr s))))
      (programDecided t addr data s) := by
  refine ⟨writeReason ((s.lane t.lane).chips[chipAt t addr s]), ?_⟩
  have hu' : ¬ reachUnits (s.lane t.lane) t ≤ hostAddr (s.lane t.lane) t addr / unitBytes := Nat.not_le.mpr hu
  unfold programDecided
  dsimp only
  rw [if_neg hu']
  split
  · exact .refl _ _
  · next w hw =>
    have hw' : winner (s.lane t.lane).rules (unitAt t addr s) = some w := hw
    simp only [accessOf, hw'] at h1 h2
    split
    · next ha => exact absurd ha h1
    · next ha => exact absurd ha h2
    · exact denyLogged_logDeny _ _ _ _ _

end

/-! ### ERASE -/

/-- The offsets of the covered units in a rule entry, from the units as the lane reaches them (R45, R90). -/
theorem mem_coveredOffsets {units : List (Option Nat)} {b k : Nat} :
    ((units.filterMap id).map fun z => z - b).contains k = true ↔ some k ∈ units.map fun v => v.map fun z => z - b := by
  rw [List.contains_iff_mem, List.mem_map, List.mem_map]
  constructor
  · rintro ⟨z, hz, rfl⟩
    obtain ⟨v, hv, hid⟩ := List.mem_filterMap.mp hz
    exact ⟨v, hv, congrArg (Option.map fun z => z - b) hid⟩
  · rintro ⟨v, hv, he⟩
    cases v with
    | none => cases he
    | some z => exact ⟨z, List.mem_filterMap.mpr ⟨some z, hv, rfl⟩, Option.some.inj he⟩

/-- An ERASE whose covered units are all open is forwarded (R90). -/
theorem eraseVerdict_open {l : Lane} {units : List (Option Nat)}
    (h : (units.all fun v => v.any fun y => accessOf l.rules y == .openFlash) = true) : eraseVerdict l units = .forwarded := by
  have hw : ∀ v ∈ units, ∃ u w, v = some u ∧ winner l.rules u = some w ∧ w.2.access = .openFlash := by
    intro v hv
    have ho := List.all_eq_true.mp h v hv
    cases v with
    | none => simp at ho
    | some u =>
      obtain ⟨w, h1, h2⟩ := winner_of_accessOf (by simpa using ho) (by simp)
      exact ⟨u, w, rfl, h1, h2⟩
  have hadm : ¬ (units.any fun v => !eraseAdmits l v) = true := by
    rw [List.any_eq_true]
    rintro ⟨v, hv, hn⟩
    obtain ⟨u, w, rfl, h1, h2⟩ := hw v hv
    simp [eraseAdmits, h1, h2] at hn
  have hwins : (((units.filterMap id).filterMap (winner l.rules)).all fun w => w.2.access == .openFlash) = true := by
    rw [List.all_eq_true]
    intro w hm
    obtain ⟨u, hu, hwin⟩ := List.mem_filterMap.mp hm
    obtain ⟨v, hv, hid⟩ := List.mem_filterMap.mp hu
    obtain ⟨u', w', rfl, h1, h2⟩ := hw v hv
    cases hid
    rw [h1] at hwin
    cases hwin
    simpa using h2
  rw [eraseVerdict, if_neg hadm, if_pos hwins]

/-- The lane units that decide an ERASE (R45). -/
def erasedUnits (t : Txn) (addr : Word) (size : Nat) (s : State) : List (Option Nat) :=
  (eraseUnits (s.lane t.lane) (s.flashOf t.lane (unitAt t addr s)) size).map (s.unitOfFlash t.lane t.cs)

/-- The state in which the decisions of an ERASE have been counted (R95). -/
def eraseCounted (t : Txn) (addr : Word) (size : Nat) (s : State) : State :=
  s.modLane t.lane fun l => ((erasedUnits t addr size s).filterMap id).foldl (fun l v => countHit v l) l

section
variable {t : Txn} {addr : Word} {size : Nat} {s : State}
  (hu : hostAddr (s.lane t.lane) t addr / 4096 < reachUnits (s.lane t.lane) t)
include hu

theorem eraseDecided_forwarded (hv : eraseVerdict (s.lane t.lane) (erasedUnits t addr size s) = .forwarded)
    (hc : ((s.lane t.lane).chips[chipAt t addr s]).st = .host) :
    eraseDecided t addr size s = writeSent .erase t addr [] s (eraseCounted t addr size s) := by
  unfold erasedUnits unitAt at hv
  unfold chipAt unitAt at hc
  unfold eraseDecided
  simp only [unitBytes, if_neg (Nat.not_le.mpr hu), hv, hc, ne_eq, not_true_eq_false, if_false]
  rfl

theorem eraseDecided_captured {w : RuleEntry} (hv : eraseVerdict (s.lane t.lane) (erasedUnits t addr size s) = .captured w)
    (hb : ((s.lane t.lane).chips[chipAt t addr s]).st ≠ .hostBusy)
    (he : ((s.lane t.lane).chips[chipAt t addr s]).wel = true) (hl : s.lockedAway t.lane w.window = false) :
    eraseDecided t addr size s = refuseWrite t rRuleDeny .heldAddress
      (({ eraseCounted t addr size s with
          staging := s.staging.filter fun x => !(x.lane == t.lane && x.window == w.window &&
            (((erasedUnits t addr size s).filterMap id).map fun v => v - w.base).contains x.k) } : State).modLane t.lane
        fun l => l.count fun c => { c with stageCaptured := inc48 c.stageCaptured }) := by
  unfold erasedUnits unitAt at hv
  unfold chipAt unitAt at hb he
  unfold eraseDecided
  simp only [unitBytes, if_neg (Nat.not_le.mpr hu), hv, if_neg hb, he, lockedAway_modLane, hl, Bool.not_true,
    Bool.false_eq_true, or_self, if_false]
  rfl

theorem eraseDecided_refused {vs : List Nat} (hv : eraseVerdict (s.lane t.lane) (erasedUnits t addr size s) = .refused vs) :
    ∃ r, DenyLogged t.lane (refuseWrite t r .heldAddress (eraseCounted t addr size s)) (eraseDecided t addr size s) := by
  have hu' : ¬ reachUnits (s.lane t.lane) t ≤ hostAddr (s.lane t.lane) t addr / unitBytes := Nat.not_le.mpr hu
  unfold erasedUnits unitAt at hv
  refine ⟨writeReason ((s.lane t.lane).chips[chipAt t addr s]), ?_⟩
  unfold eraseDecided
  dsimp only
  rw [if_neg hu']
  simp only [unitBytes, hv]
  exact denyLogged_logErase _ _ _ _ _ _

end

/-! ### Both -/

theorem writeSent_spec {k : FwdKind} {t : Txn} {addr : Word} {data : Bytes} {s s1 : State} (h : OnlyLane t.lane s s1) :
    let x := writeSent k t addr data s s1
    (x.lane t.lane).fp = .forwarded k t.op (some (s.flashByte t.lane (unitAt t addr s)
        (hostAddr (s.lane t.lane) t addr % 4096))) none data ∧
      ((x.lane t.lane).chips[chipAt t addr s]).st = .hostBusy ∧ (x.lane t.lane).rsp = some [] ∧ x.staging = s.staging ∧
      OnlyLane t.lane s x := by
  refine ⟨by simp [writeSent, Lane.modChips], ?_, by simp [writeSent, Lane.modChips], (congrArg State.staging h.1 :),
    (h.answer _ _).modLane _⟩
  rw [writeSent, lane_modLane_same, Lane.modChips_at_mem _ (by simp)]

theorem reachList_counted {s s1 : State} {n : Fin 8} (k : Fin 2)
    (h : ∃ x d, s1.lane n = { s.lane n with hits := x, counts := d }) : s1.reachList n k = s.reachList n k := by
  obtain ⟨x, d, h⟩ := h
  exact reachList_congr k (by rw [h]) (by rw [h])

theorem lane_counted (n : Fin 8) (us : List Nat) (s : State) : ∃ x d,
    (s.modLane n fun l => us.foldl (fun l v => countHit v l) l).lane n =
      { s.lane n with hits := x, counts := { (s.lane n).counts with defaultHits := d } } := by
  rw [lane_modLane_same]
  exact countHits_eq us _

/-- A captured write counts once, on top of what its decisions counted (R94, R98). -/
theorem lane_captured {s s1 s2 : State} {n : Fin 8} {x : List Nat} {d : Nat}
    (h : s1.lane n = { s.lane n with hits := x, counts := { (s.lane n).counts with defaultHits := d } })
    (h2 : s2.lane n = s1.lane n) :
    ∃ c, (s2.modLane n fun l => l.count fun c => { c with stageCaptured := inc48 c.stageCaptured }).lane n =
        { s.lane n with hits := x, counts := c } ∧ c.stageCaptured = inc48 (s.lane n).counts.stageCaptured := by
  rw [lane_modLane_same, h2, h]
  exact ⟨_, rfl, rfl⟩

/-- A program that is captured: its data goes into its staged unit, and nothing is forwarded (R92). -/
theorem programDecided_captures {t : Txn} {addr : Word} {data : Bytes} {s : State} {w : Nat × RuleEntry}
    (hu : hostAddr (s.lane t.lane) t addr / 4096 < reachUnits (s.lane t.lane) t)
    (hw : winner (s.lane t.lane).rules (unitAt t addr s) = some w) (ha : w.2.access = .stageWrite)
    (hb : ((s.lane t.lane).chips[chipAt t addr s]).st ≠ .hostBusy)
    (he : ((s.lane t.lane).chips[chipAt t addr s]).wel = true) (hl : s.lockedAway t.lane w.2.window = false)
    (hf : ((s.staged t.lane w.2.window (unitAt t addr s - w.2.base)).isSome || s.stagingFree) = true) :
    let x := programDecided t addr data s
    let k := unitAt t addr s - w.2.base
    (x.staged t.lane w.2.window k).map (·.bytes) =
        some (andPage (flashPage ((s.lane t.lane).flash[chipAt t addr s]).sfdp) (hostAddr (s.lane t.lane) t addr % 4096) 0 data
          (((s.staged t.lane w.2.window k).map (·.bytes)).getD (List.replicate 4096 0xFF))) ∧
      (∀ y ∈ x.staging, (y.lane = t.lane ∧ y.window = w.2.window ∧ y.k = k) ∨ y ∈ s.staging) ∧
      (x.lane t.lane).counts.stageCaptured = inc48 (s.lane t.lane).counts.stageCaptured ∧ NotSent t s x := by
  intro x k
  obtain ⟨h, d, h1⟩ := lane_counted t.lane [unitAt t addr s] s
  have hx : x = _ := programDecided_stage hu hw ha hb he hl hf
  generalize hs2 : stageProgram _ _ _ _ _ _ _ = s2 at hx
  have hlane : s2.lane t.lane = (s.modLane t.lane (countHit (unitAt t addr s))).lane t.lane := by
    rw [← hs2, stageProgram_lane]
  have hst : x.staging = s2.staging := by rw [hx, refuseWrite_staging, State.modLane_staging]
  obtain ⟨c, hc, hn⟩ := lane_captured h1 hlane
  refine ⟨?_, fun y hy => ?_, ?_, by rw [hx]; exact notSent_refuseWrite (reachList_counted t.cs ⟨_, _, hc⟩) _ _⟩
  · have hp := staged_stageProgram t.lane w.2.window k (flashPage ((s.lane t.lane).flash[chipAt t addr s]).sfdp)
      (hostAddr (s.lane t.lane) t addr % 4096) data (s.modLane t.lane (countHit (unitAt t addr s)))
    rw [hs2, staged_modLane] at hp
    rw [State.staged, hst]
    exact hp
  · rw [hst, ← hs2] at hy
    exact mem_stageProgram (s := s.modLane t.lane (countHit (unitAt t addr s))) hy
  · rw [hx, refuseWrite_counts]
    exact (congrArg (fun l : Lane => l.counts.stageCaptured) hc).trans hn

/-- Settles O9: a write is forwarded, captured or refused by what `programDecided` and `eraseVerdict` decide, and what is not
forwarded is a refused write. -/
theorem programAndErase : Obligations.programAndErase := by
  intro t addr data size s
  dsimp only
  intro hu
  obtain ⟨x1, d1, h1⟩ := lane_counted t.lane [unitAt t addr s] s
  obtain ⟨x2, d2, h2⟩ := lane_counted t.lane ((erasedUnits t addr size s).filterMap id) s
  refine ⟨fun hp ha hc => completes_passed (exec_program ..) hp ?_,
    fun i w hp hw ha hb he hl hf => completes_passed (exec_program ..) hp ?_,
    fun hp ho hs => completes_passed (exec_program ..) hp ?_, fun hp ho hc => completes_passed (exec_erase ..) hp ?_,
    fun w hp hv hb he hl => completes_passed (exec_erase ..) hp ?_, fun vs hp hv => completes_passed (exec_erase ..) hp ?_⟩
  · obtain ⟨w, hw, hwa⟩ := winner_of_accessOf ha (by simp)
    rw [programDecided_open hu hw hwa hc]
    exact writeSent_spec (onlyLane_modLane _ _ _)
  · obtain ⟨c1, c2, c3, hn⟩ := programDecided_captures (data := data) hu hw ha hb he hl hf
    exact ⟨c1, c2, c3, hn.wel, hn.fp, hn.rsp⟩
  · obtain ⟨r, hr⟩ := programDecided_refused (data := data) hu ho hs
    have hn := (notSent_refuseWrite (t := t) (s := s) (reachList_counted t.cs ⟨_, _, h1⟩) r .address).logged hr
    exact ⟨⟨hn.wel, hn.fp, hn.rsp⟩, hr.staging⟩
  · rw [eraseDecided_forwarded hu (eraseVerdict_open ho) hc]
    exact writeSent_spec (onlyLane_modLane _ _ _)
  · rw [eraseDecided_captured hu hv hb he hl]
    generalize hs2 : ({ eraseCounted t addr size s with staging := _ } : State) = s2
    obtain ⟨c, hc, hn⟩ := lane_captured h2 (s2 := s2) (by rw [← hs2]; rfl)
    obtain ⟨n1, n2, n3⟩ := notSent_refuseWrite (t := t) (s := s) (reachList_counted t.cs ⟨_, _, hc⟩) rRuleDeny .heldAddress
    refine ⟨fun y => ?_, ?_, n1, n2, n3⟩
    · rw [refuseWrite_staging, State.modLane_staging, ← hs2, List.mem_filter]
      refine and_congr_right fun _ => ?_
      rw [Bool.not_eq_true', ← Bool.not_eq_true, Bool.and_eq_true, Bool.and_eq_true, beq_iff_eq, beq_iff_eq,
        mem_coveredOffsets, and_assoc]
      rfl
    · rw [refuseWrite_counts]
      exact (congrArg (fun l : Lane => l.counts.stageCaptured) hc).trans hn
  · obtain ⟨r, hr⟩ := eraseDecided_refused hu hv
    have hn := (notSent_refuseWrite (t := t) (s := s) (reachList_counted t.cs ⟨_, _, h2⟩) r .heldAddress).logged hr
    exact ⟨⟨hn.wel, hn.fp, hn.rsp⟩, hr.staging⟩

end Sys2Proof.Machine
end

section
/-! SUPPORT. The flip of a window's select (R53, R260): what follows its commit-record write, in the manifest cache, the mirror
memory and the Reservoirs, writes no NVM and changes no lane's manifest. -/
namespace Sys2Proof.Machine
open Sys2Proof

/-! ### Steps that write no NVM and change no manifest -/

/-- NVM and the manifest of every lane are the same in two states. -/
structure KeepsManifests (s t : State) : Prop where
  nvm : t.nvm = s.nvm
  manifest : ∀ n, (t.lane n).manifest = (s.lane n).manifest

theorem KeepsManifests.refl (s : State) : KeepsManifests s s := ⟨rfl, fun _ => rfl⟩

theorem KeepsManifests.trans {s t u : State} (h : KeepsManifests s t) (k : KeepsManifests t u) : KeepsManifests s u :=
  ⟨k.nvm.trans h.nvm, fun n => (k.manifest n).trans (h.manifest n)⟩

theorem keepsManifests_foldl {α : Type} {f : State → α → State} (h : ∀ s a, KeepsManifests s (f s a)) (l : List α)
    (s : State) : KeepsManifests s (l.foldl f s) := by
  induction l generalizing s with
  | nil => exact .refl s
  | cons a l ih => exact (h s a).trans (ih _)

/-- An update of other fields than NVM and the lanes. -/
theorem KeepsManifests.of_eq {s t u : State} (h : KeepsManifests s t) (hn : u.nvm = t.nvm) (hl : u.lanes = t.lanes) :
    KeepsManifests s u :=
  h.trans ⟨hn, fun n => by rw [State.lane, State.lane, hl]⟩

/-- An update of a lane that is not of its manifest. -/
theorem KeepsManifests.modLane {s t : State} (h : KeepsManifests s t) {n : Fin 8} {f : Lane → Lane}
    (hf : ∀ l, (f l).manifest = l.manifest) : KeepsManifests s (t.modLane n f) := by
  refine h.trans ⟨rfl, fun m => ?_⟩
  by_cases hm : m = n
  · rw [hm, lane_modLane_same, hf]
  · rw [lane_modLane_other t f hm]

theorem KeepsManifests.modRes {s t : State} (h : KeepsManifests s t) (x : Sel) (f : Reservoir → Reservoir) :
    KeepsManifests s (t.modRes x f) := by
  cases x <;> exact h.of_eq rfl rfl

theorem KeepsManifests.publishSnap {s t : State} (h : KeepsManifests s t) : KeepsManifests s (publishSnap t) :=
  h.of_eq rfl rfl

theorem KeepsManifests.modStolik {s t : State} (h : KeepsManifests s t) (f : Stolik → Stolik) :
    KeepsManifests s (t.modStolik f) := h.of_eq rfl rfl

/-! ### The manifest cache (R113 to R118) -/

theorem keepsManifests_dropPage (n : Fin 8) (r p : Nat) (s : State) : KeepsManifests s (dropPage n r p s) := by
  refine KeepsManifests.modLane ?_ (by intro; rfl)
  exact (KeepsManifests.refl s).of_eq rfl rfl

theorem keepsManifests_makeRoom (pin : Bool) (s : State) : KeepsManifests s (makeRoom pin s).2 := by
  unfold makeRoom
  split
  · exact .refl s
  · exact keepsManifests_dropPage _ _ _ s
  · exact .refl s

theorem keepsManifests_loadPage (n : Fin 8) (r p : Nat) (b : Bytes) (s : State) : KeepsManifests s (loadPage n r p b s) := by
  refine (keepsManifests_dropPage n r p s).trans ?_
  have hm := keepsManifests_makeRoom ((dropPage n r p s).lane n).verify.pinPages (dropPage n r p s)
  unfold loadPage
  dsimp only
  split
  · next h => rw [h] at hm; exact hm
  · next h =>
    rw [h] at hm
    refine KeepsManifests.modLane ?_ (by intro; rfl)
    exact hm.of_eq rfl rfl

theorem keepsManifests_setDigests (n : Fin 8) (r : Nat) (ds top : List Bytes) (s : State) :
    KeepsManifests s (setDigests n r ds top s) := by
  refine KeepsManifests.trans ?_ (keepsManifests_foldl (fun _ _ => keepsManifests_loadPage _ _ _ _ _) _ _)
  exact (KeepsManifests.refl s).modLane (by intro; rfl)

theorem keepsManifests_settleCache (s : State) : KeepsManifests s (settleCache s) := by
  have drops : ∀ (l : List CachePage) (s : State),
      KeepsManifests s (l.foldl (fun s p => dropPage p.lane p.region p.page s) s) :=
    keepsManifests_foldl fun _ _ => keepsManifests_dropPage _ _ _ _
  unfold settleCache
  dsimp only
  refine .trans (.trans ?_ (keepsManifests_foldl (fun s p => ?_) _ _)) (drops _ _)
  · have h0 : KeepsManifests s { s with pages := s.pages.filter s.holdsPage } := (KeepsManifests.refl s).of_eq rfl rfl
    exact (h0.trans (drops _ _)).of_eq rfl rfl
  · have hm := keepsManifests_makeRoom true s
    split
    · next h => rw [h] at hm; exact hm.of_eq rfl rfl
    · next h => rw [h] at hm; exact hm.modLane (by intro; rfl)

/-! ### The mirror memory and the Reservoirs (R139, R601) -/

theorem keepsManifests_allocMirror (n : Fin 8) (m : HostManifest) (s : State) (r : LeafRef) :
    KeepsManifests s (allocMirror n m s r) := by
  unfold allocMirror
  split
  · exact .refl s
  · dsimp only
    split <;> exact (KeepsManifests.refl s).of_eq rfl rfl

theorem keepsManifests_mirrorNew (n : Fin 8) (rules : List RuleEntry) (m : HostManifest) (s : State) :
    KeepsManifests s (mirrorNew n rules m s) := by
  refine KeepsManifests.modLane ?_ (by intro; rfl)
  exact keepsManifests_foldl (fun _ _ => keepsManifests_allocMirror _ _ _ _) _ _

theorem keepsManifests_requestClaim (n : Fin 8) (r : Nat) (s : State) : KeepsManifests s (requestClaim n r s) := by
  have want : KeepsManifests s (s.modLane n fun l => { l with claimWanted := true }) :=
    (KeepsManifests.refl s).modLane (by intro; rfl)
  unfold requestClaim
  split
  · exact .refl s
  · dsimp only
    split
    · exact want.modRes _ _
    · split
      · exact want.modRes _ _
      · exact want

theorem keepsManifests_requestClaims (n : Fin 8) (s : State) : KeepsManifests s (requestClaims n s) :=
  keepsManifests_foldl (fun _ _ => keepsManifests_requestClaim _ _ _) _ _

/-! ### The flip -/

theorem foldl_modLeaf_manifest (f : LeafRef → LeafState → LeafState) (ls : List LeafRef) (l : Lane) :
    (ls.foldl (fun l r => l.modLeaf r (f r)) l).manifest = l.manifest := by
  induction ls generalizing l with
  | nil => rfl
  | cons r ls ih => exact ih _

/-- The commit-record write of a flip: the other select, and the other manifest slot (R260, R280). -/
def flipCommit (a : Activation) (s : State) : State :=
  (s.modWin a.lane a.window fun x =>
    { x with
      select := otherSel x.select
      phase := .flipped
      inactive := .previous
      pendingId := BitVec.ofNat 32 (((s.lane a.lane).manifest.map (·.manifestId.toNat)).getD 0) }).modCommit fun c =>
    { c with
      seq := c.seq + 1
      lanes := vmod c.lanes a.lane fun x => { x with active := !x.active } }

/-- The lane that works with a manifest has it, and NVM is as it was (R156). -/
theorem replaceManifest_spec (n : Fin 8) (m : HostManifest) (s : State) :
    (replaceManifest n m s).nvm = s.nvm ∧ ((replaceManifest n m s).lane n).manifest = some m := by
  unfold replaceManifest
  dsimp only
  refine ⟨(keepsManifests_settleCache _).nvm, ((keepsManifests_settleCache _).manifest n).trans ?_⟩
  exact (congrArg Lane.manifest (lane_modLane_same s n _) :)

/-- What follows the commit-record write of a flip leaves NVM and the incoming manifest as they are (R260). -/
theorem flipWindow_keeps (a : Activation) (m : HostManifest) (s : State) :
    KeepsManifests (replaceManifest a.lane m (flipCommit a s)) (flipWindow a m s) := by
  unfold flipWindow
  extract_lets n w win s1 s2 s3 ls s4 s5 s6 s7
  have h4 : KeepsManifests s3 s4 := by
    refine keepsManifests_foldl (fun s i => ?_) _ s3
    dsimp only
    split
    · exact .refl s
    · exact keepsManifests_setDigests _ _ _ _ _
  have h5 : KeepsManifests s3 s5 := h4.modLane fun l => foldl_modLeaf_manifest (fun _ st => { st with flash := .good }) ls l
  have h6 : KeepsManifests s3 s6 :=
    KeepsManifests.modLane (KeepsManifests.trans (h5.of_eq (u := freeMirrors n _ s5) rfl rfl) (keepsManifests_mirrorNew _ _ _ _))
      (by intro; rfl)
  have h7 : KeepsManifests s3 s7 := by
    have fills : KeepsManifests s6 ((ls.filter fun r => (s6.lane n).leafMirrored r).foldl (fun s r =>
        (storeMirror n r (leafInWindow m win r a.image) s).modLane n fun l =>
          { l.modLeaf r (fun st => { st with mirrorValid := true }) with fills := drop? l.fills fun x => x == r }) s6) := by
      refine keepsManifests_foldl (fun s r => ?_) _ s6
      exact KeepsManifests.modLane ((KeepsManifests.refl s).of_eq (u := storeMirror n r _ s) rfl rfl) (by intro; rfl)
    show KeepsManifests s3 (if a.now then _ else s6)
    split
    · exact h6.trans fills
    · exact h6
  exact ((h7.trans (keepsManifests_requestClaims _ _)).modStolik _).publishSnap

/-- The window's entry after the commit-record write of its flip (R260, R280). -/
theorem flipCommit_win (a : Activation) (s : State) :
    let e := (flipCommit a s).win a.lane a.window
    e.select = otherSel (s.win a.lane a.window).select ∧ e.phase = .flipped ∧ e.inactive = .previous := by
  have h : (flipCommit a s).win a.lane a.window = _ := vmod_same _ _ _
  dsimp only
  rw [h]
  exact ⟨rfl, rfl, rfl⟩

/-- The flip is due: the activation waits at step 5, and what holds it back has ended (R146, R249, R260). -/
theorem exec_activationFlip {n w : Fin 8} {a : Activation} {b : Bytes} {m : HostManifest} {s : State}
    (hs : s.spindlesRun = true) (ha : s.activationAt n w 5 = some a) (hn : a.lane = n) (hi : s.incoming n = some (b, m))
    (hp : s.flipProved a = true) (hh : a.now = true ∨ s.hostHeld n = true) (hf : (s.lane n).trackersFree = true) :
    exec (.activationFlip n w) s = .next (flipWindow a m s) := by
  have hhold : ¬ (!a.now && !s.hostHeld n) = true := by
    rcases hh with h | h <;> simp [h]
  show execActivationFlip n w s = _
  simp only [execActivationFlip, whileRunning_true hs, ha, tryFlip, hn, hi, hp, hf, if_neg hhold, Bool.not_true,
    Bool.false_eq_true, if_false]

/-- Settles O15: the commit-record write selects the other target, and nothing that follows it touches NVM again. -/
theorem activationFlipSelects : Obligations.activationFlipSelects := by
  intro n w a b m s hs ha hi hp hh hf
  have hfound := List.find?_some ha
  simp only [Bool.and_eq_true, beq_iff_eq] at hfound
  obtain ⟨⟨hn, hw⟩, -⟩ := hfound
  refine ⟨_, exec_activationFlip hs ha hn hi hp hh hf, ?_⟩
  subst hn hw
  have hk := flipWindow_keeps a m s
  obtain ⟨hr, hm⟩ := replaceManifest_spec a.lane m (flipCommit a s)
  have hnvm : (flipWindow a m s).nvm = (flipCommit a s).nvm := hk.nvm.trans hr
  obtain ⟨h1, h2, h3⟩ := flipCommit_win a s
  rw [show (flipWindow a m s).win a.lane a.window = (flipCommit a s).win a.lane a.window by rw [State.win, State.win, hnvm],
    hnvm]
  refine ⟨h1, h2, h3, ?_, (hk.manifest _).trans hm, rfl⟩
  exact congrArg LaneEntry.active (vmod_same _ _ _)

end Sys2Proof.Machine
end

section
/-! SUPPORT. A READ whose environment brings no byte of the flash: the host is answered zeros, and no tracker captures. -/
namespace Sys2Proof.Machine
open Sys2Proof

/-- A transaction whose clock is within its limit, on a lane whose flash side no host transaction drove before, passes where
its outcome is that of a pass (R33, R41). -/
theorem passed_of_inTime {c : OpClass} {t : Txn} {s : State} (hclk : t.sckKHz ≤ sckLimit (s.lane t.lane) t)
    (htail : lastTail (s.lane t.lane) = none) (h : (gate c t s).1 = .pass) : Passed c t s := by
  have hs : csHighShort t s = (false, s) := by simp only [csHighShort, htail]
  refine Prod.ext h ?_
  simp only [gate, if_pos hclk, hs]
  repeat' split
  all_goals rfl

/-- A manifest of one region with one leaf of one unit. -/
def oneLeafManifest : HostManifest := ⟨0, 0, 0, 0, 1, [⟨0, 1, 1, 1, []⟩]⟩

/-- Lane 0 with one GOOD leaf under READ_VERIFIED, its flash in HOST and every tracker FREE. -/
def oneLeafState : State :=
  State.reset.modLane 0 fun l =>
    { l with
      denyReset := false, denyNoPolicy := false
      cfg := { l.cfg with flash0 := 256 }
      rules := [⟨0, 256, .readVerified, .log, 1, 0, false, false, 0⟩], hits := [0]
      manifest := some oneLeafManifest, leaves := [[⟨.good, false⟩]] }

/-- A READ of opcode 0x03 on lane 0 at 1 MHz, with a clean lookup. -/
def plainRead : Txn := ⟨0, 0, 0x03, 0, 1000, 1000, ⟨false, false, none⟩⟩

/-- A read to which the flash brings no byte. -/
def noBytes : ReadEnv := ⟨[], [], none, none, none, none, none⟩

theorem passed_plainRead : Passed .read plainRead oneLeafState :=
  passed_of_inTime (by decide +kernel) (by decide +kernel) (by decide +kernel)

/-- After the read every tracker is FREE. -/
theorem plainRead_trackersFree :
    ∀ k : Fin 64, (((readDecided plainRead 0 2 noBytes oneLeafState).lane 0).trackers[k]).st = .free := by
  decide +kernel

/-- Refutes O6: its last clause asks for a tracker that captures bytes of the leaf, and an environment that brings no byte of
the flash is not excluded. Lane 0 reads two bytes of its one GOOD leaf, the flash bringing none, and every tracker stays
FREE. -/
theorem not_readServesOneUnit : ¬ Obligations.readServesOneUnit := by
  intro h
  obtain ⟨-, -, -, -, hcap⟩ := h plainRead 0 2 noBytes oneLeafState passed_plainRead (by decide) (by decide +kernel)
    (by decide +kernel) (by decide +kernel) (by decide +kernel) (by decide +kernel) (by decide +kernel) rfl rfl rfl rfl rfl
  obtain ⟨x, hx, k, -, hk, -⟩ := hcap ⟨0, 0⟩ oneLeafManifest (by decide +kernel) (by decide +kernel) (by decide +kernel)
    (by decide +kernel)
  rw [exec_read, guarded_passed passed_plainRead] at hx
  cases hx
  exact hk (plainRead_trackersFree k)

end Sys2Proof.Machine
end

section
/-! SUPPORT. What follows a mismatch of a leaf, and the rules of the trackers and of the bound engine (R120, R124, R130 to
R132, R139). -/
namespace Sys2Proof.Machine
open Sys2Proof

/-- A command whose next state is known completes with what that state satisfies. -/
theorem completes_next {i : Instr} {s x : State} {P : State → Prop} (hi : exec i s = .next x) (hP : P x) : Completes i s P :=
  ⟨x, hi, hP⟩

/-! ### Reservoirs and hosts with one entry changed -/

@[simp] theorem res_modRes_same (s : State) (x : Sel) (f : Reservoir → Reservoir) : (s.modRes x f).res x = f (s.res x) := by
  cases x <;> rfl

theorem res_modRes_other (s : State) {x y : Sel} (f : Reservoir → Reservoir) (h : y ≠ x) :
    (s.modRes x f).res y = s.res y := by
  match x, y, h with
  | .a, .b, _ => rfl
  | .b, .a, _ => rfl
  | .a, .a, h => exact absurd rfl h
  | .b, .b, h => exact absurd rfl h

@[simp] theorem res_modLane (s : State) (n : Fin 8) (f : Lane → Lane) (x : Sel) : (s.modLane n f).res x = s.res x := by
  cases x <;> rfl

@[simp] theorem host_modHost_same (s : State) (h : Fin 16) (f : HostState → HostState) :
    (s.modHost h f).host h = f (s.host h) := vmod_same _ _ _

/-! ### What follows the detection of a mismatch (R132, R139) -/

/-- Of every lane at most the wish for a claim and the log of its leaves differ between two states, and no Reservoir's
defect list does. -/
structure Acted (s t : State) : Prop where
  lane : ∀ n, ∃ w g, t.lane n = { s.lane n with claimWanted := w, leafLog := g }
  defects : ∀ x, (t.res x).defects = (s.res x).defects

theorem Acted.refl (s : State) : Acted s s := ⟨fun _ => ⟨_, _, rfl⟩, fun _ => rfl⟩

theorem Acted.trans {s t u : State} (h : Acted s t) (k : Acted t u) : Acted s u := by
  refine ⟨fun n => ?_, fun x => (k.defects x).trans (h.defects x)⟩
  obtain ⟨w, g, hl⟩ := h.lane n
  obtain ⟨w', g', kl⟩ := k.lane n
  exact ⟨w', g', by rw [kl, hl]⟩

theorem acted_foldl {α : Type} {f : State → α → State} (h : ∀ s a, Acted s (f s a)) (l : List α) (s : State) :
    Acted s (l.foldl f s) := by
  induction l generalizing s with
  | nil => exact .refl s
  | cons a l ih => exact (h s a).trans (ih _)

/-- An update of other parts than the lanes and the Reservoirs. -/
theorem acted_of_eq {s t : State} (hl : t.lanes = s.lanes) (ha : t.resA = s.resA) (hb : t.resB = s.resB) : Acted s t := by
  refine ⟨fun n => ⟨(s.lane n).claimWanted, (s.lane n).leafLog, ?_⟩, fun x => ?_⟩
  · rw [State.lane, hl]
    rfl
  · cases x
    · exact congrArg Reservoir.defects ha
    · exact congrArg Reservoir.defects hb

theorem acted_modLane (s : State) (n : Fin 8) {f : Lane → Lane}
    (hf : ∀ l, ∃ w g, f l = { l with claimWanted := w, leafLog := g }) : Acted s (s.modLane n f) := by
  refine ⟨fun m => ?_, fun x => by rw [res_modLane]⟩
  by_cases hm : m = n
  · rw [hm, lane_modLane_same]
    exact hf _
  · exact ⟨_, _, lane_modLane_other s f hm⟩

theorem acted_takeClaim (n : Fin 8) (x : Sel) (s : State) : Acted s (takeClaim n x s) := by
  refine ⟨fun m => ⟨_, _, lane_modRes s x _ m⟩, fun y => ?_⟩
  by_cases hy : y = x
  · rw [hy, takeClaim, res_modRes_same]
  · rw [takeClaim, res_modRes_other s _ hy]

/-- A request for a claim ends in one of these states (R139). -/
theorem requestClaim_cases (n : Fin 8) (region : Nat) (s : State) :
    requestClaim n region s = s ∨ requestClaim n region s = (s.modLane n fun l => { l with claimWanted := true }) ∨
      ∃ x, requestClaim n region s = takeClaim n x (s.modLane n fun l => { l with claimWanted := true }) := by
  unfold requestClaim
  split
  · exact .inl rfl
  · dsimp only
    split
    · exact .inr (.inr ⟨_, rfl⟩)
    · split
      · exact .inr (.inr ⟨_, rfl⟩)
      · exact .inr (.inl rfl)

theorem acted_requestClaim (n : Fin 8) (region : Nat) (s : State) : Acted s (requestClaim n region s) := by
  have hw : Acted s (s.modLane n fun l => { l with claimWanted := true }) := acted_modLane s n fun _ => ⟨_, _, rfl⟩
  obtain h | h | ⟨x, h⟩ := requestClaim_cases n region s <;> rw [h]
  · exact .refl s
  · exact hw
  · exact hw.trans (acted_takeClaim n x _)

theorem acted_assertReset (h : Fin 16) (s : State) : Acted s (assertReset h s) := by
  unfold assertReset
  dsimp only
  split <;> exact acted_of_eq rfl rfl rfl

theorem acted_logHold (h : Fin 16) (s : State) : Acted s (logHold h s) := acted_of_eq rfl rfl rfl

theorem acted_holdHost (f : HoldWord → HoldWord) (h : Fin 16) (s : State) : Acted s (holdHost f h s) := by
  have hm : Acted s (s.modHold h f) := acted_of_eq rfl rfl rfl
  exact (hm.trans (acted_assertReset h _)).trans (acted_logHold h _)

theorem acted_holdForLeaf (n : Fin 8) (r : LeafRef) (s : State) (h : Fin 16) : Acted s (holdForLeaf n r s h) := by
  unfold holdForLeaf
  dsimp only
  split
  · exact acted_of_eq rfl rfl rfl
  · refine Acted.trans ?_ (acted_holdHost _ h _)
    exact acted_of_eq rfl rfl rfl

theorem acted_takeAction (n : Fin 8) (r : LeafRef) (s : State) : Acted s (takeAction n r s) := by
  have hh : Acted s (if holds ((s.lane n).leafAction r) then (s.laneHosts n).foldl (holdForLeaf n r) s else s) := by
    split
    · exact acted_foldl (acted_holdForLeaf n r) _ s
    · exact .refl s
  unfold takeAction
  dsimp only
  split
  · exact hh.trans (acted_requestClaim n _ _)
  · exact hh

theorem acted_logLeaf (n : Fin 8) (cause : Nat) (r : LeafRef) (foundBy : Nat) (x : Option Sel) (s : State) :
    Acted s (logLeaf n cause r foundBy x s) := by
  unfold logLeaf
  dsimp only
  split
  · refine Acted.trans (t := logMismatch n cause r ((s.lane n).leafAction r) foundBy x s) (acted_of_eq rfl rfl rfl) ?_
    exact acted_modLane _ n fun _ => ⟨_, _, rfl⟩
  · exact .refl s

/-! ### Mismatches (R130, R131) -/

/-- The FLASH_STATE of a leaf at the detection of a mismatch: one that is not yet marked is BAD, or ERROR at a read fault
(R130). -/
def mismatchedFlash (fault : Bool) (f : FlashState) : FlashState :=
  if f = .good ∨ f = .unverified then (if fault then .error else .bad) else f

/-- What the detection of a mismatch of the flash leaves of its lane (R130). -/
structure Mismatched (r : LeafRef) (fault : Bool) (first : Option Bytes) (l x : Lane) : Prop where
  trackers : x.trackers = l.trackers
  checks : x.flashChecks = l.flashChecks
  counts : x.counts = { l.counts with mismatches := inc48 l.counts.mismatches }
  leaves : x.leaves = (l.modLeaf r fun st => { st with flash := mismatchedFlash fault st.flash }).leaves
  confirms : ∃ c, x.confirms = l.confirms ++ [c] ∧ c.leaf = r ∧ c.fault = fault ∧ c.firstRead = first

theorem Mismatched.acted {r : LeafRef} {fault : Bool} {first : Option Bytes} {l : Lane} {n : Fin 8} {s t : State}
    (h : Mismatched r fault first l (s.lane n)) (k : Acted s t) : Mismatched r fault first l (t.lane n) := by
  obtain ⟨w, g, hl⟩ := k.lane n
  rw [hl]
  exact ⟨h.trackers, h.checks, h.counts, h.leaves, h.confirms⟩

theorem mismatched_flashMismatch (n : Fin 8) (r : LeafRef) (foundBy : Nat) (fault : Bool) (first : Option Bytes)
    (s : State) : Mismatched r fault first (s.lane n) ((flashMismatch n r foundBy fault first s).lane n) := by
  unfold flashMismatch
  extract_lets mv due s1 s2
  have h1 : Mismatched r fault first (s.lane n) (s1.lane n) := by
    simp only [s1, lane_modLane_same]
    refine ⟨rfl, rfl, rfl, ?_, ⟨_, rfl, rfl, rfl, rfl⟩⟩
    refine congrArg (fun f => ((s.lane n).modLeaf r f).leaves) (funext fun st => ?_)
    generalize st.flash = f
    cases f <;> simp [mismatchedFlash]
  have h2 : Mismatched r fault first (s.lane n) (s2.lane n) := h1.acted (acted_logLeaf ..)
  split
  · exact h2
  · exact h2.acted (acted_takeAction ..)

/-- A mismatch of bytes that a Reservoir served counts, enters its defect list where it has room, and leaves the rest of the
lane but its wish for a claim and the log of its leaves (R131). -/
theorem reservoirMismatch_spec {n : Fin 8} {r : LeafRef} {x : Sel} {s : State} (h : (s.res x).defects.length < 256)
    (foundBy : Nat) :
    (n, r) ∈ ((reservoirMismatch n r x foundBy s).res x).defects ∧
      ∃ w g, (reservoirMismatch n r x foundBy s).lane n =
        { s.lane n with
          counts := { (s.lane n).counts with mismatches := inc48 (s.lane n).counts.mismatches }
          claimWanted := w, leafLog := g } := by
  unfold reservoirMismatch
  extract_lets s1 s2
  have hd : (n, r) ∈ (s2.res x).defects := by
    simp only [s2, s1, res_modRes_same, res_modLane, if_pos h]
    split
    · next hc => exact List.contains_iff_mem.mp hc
    · simp
  have ha : Acted s2 (takeAction n r (logLeaf n 5 r foundBy (some x) s2)) :=
    (acted_logLeaf ..).trans (acted_takeAction ..)
  refine ⟨by rw [ha.defects]; exact hd, ?_⟩
  obtain ⟨w, g, hl⟩ := ha.lane n
  refine ⟨w, g, ?_⟩
  rw [hl]
  simp only [s2, s1, lane_modRes, lane_modLane_same]
  rfl

/-! ### Trackers and the bound engine (R120, R124) -/

/-- A fold that at each entry keeps its choice or chooses that entry ends with an entry of the list, or its first choice. -/
theorem foldl_choice {α : Type} {f : Option α → α → Option α} (hf : ∀ b a, f b a = b ∨ f b a = some a) {l : List α}
    {b : Option α} {a : α} (h : l.foldl f b = some a) : b = some a ∨ a ∈ l := by
  induction l generalizing b with
  | nil => exact .inl h
  | cons c l ih =>
    obtain hb | ha := ih h
    · obtain hc | hc := hf b c <;> rw [hc] at hb
      · exact .inl hb
      · exact .inr (by simp [Option.some.inj hb])
    · exact .inr (List.mem_cons_of_mem _ ha)

theorem firstQueued_queued {l : Lane} {t : Fin 64} (h : l.firstQueued = some t) : (l.trackers[t]).st = .queued := by
  have hm := foldl_choice (fun b a => ?_) h
  · obtain h' | h' := hm
    · cases h'
    · simpa [fins] using h'
  · cases b with
    | none => exact .inr rfl
    | some c =>
      dsimp only
      split
      · exact .inr rfl
      · exact .inl rfl

@[simp] theorem trackers_modTracker_same (l : Lane) (k : Fin 64) (f : Tracker → Tracker) :
    (l.modTracker k f).trackers[k] = f l.trackers[k] := vmod_same _ _ _

/-- The bound engine may take a QUEUED tracker's leaf; it changes nothing else of the lane (R120, R124). -/
theorem startHash_spec (l : Lane) : ∃ ts, startHash l = { l with trackers := ts } ∧ ∀ k : Fin 64,
    ts[k] = l.trackers[k] ∨ (l.trackers[k]).st = .queued ∧ ts[k] = { l.trackers[k] with st := .hashing } := by
  unfold startHash
  split
  · exact ⟨_, rfl, fun _ => .inl rfl⟩
  · split
    · exact ⟨_, rfl, fun _ => .inl rfl⟩
    · next t ht =>
      refine ⟨_, rfl, fun k => ?_⟩
      by_cases hk : k = t
      · rw [hk]
        exact .inr ⟨firstQueued_queued ht, vmod_same _ _ _⟩
      · exact .inl (vmod_other _ _ hk)

/-- A tracker that is not QUEUED stays as it is when the bound engine takes the next leaf. -/
theorem startHash_keeps {l : Lane} {k : Fin 64} (h : (l.trackers[k]).st ≠ .queued) :
    (startHash l).trackers[k] = l.trackers[k] := by
  obtain ⟨ts, hl, hk⟩ := startHash_spec l
  rw [hl]
  exact (hk k).resolve_right fun hq => h hq.1

/-- The bound engine's choice changes no other field of the lane than its trackers. -/
theorem startHash_field {α : Type} {p : Lane → α} (hp : ∀ l ts, p { l with trackers := ts } = p l) (l : Lane) :
    p (startHash l) = p l := by
  obtain ⟨ts, hl, -⟩ := startHash_spec l
  rw [hl, hp]

end Sys2Proof.Machine
end

section
/-! SUPPORT. The end of a leaf's hash (R115, R120, R124, R126, R130, R131, R148, R150). -/
namespace Sys2Proof.Machine
open Sys2Proof

@[simp] theorem lane_leafJobDone (c : Fin 5) (n : Fin 8) (k : LeafJob) (s : State) (m : Fin 8) :
    (leafJobDone c n k s).lane m = s.lane m := rfl

@[simp] theorem res_leafJobDone (c : Fin 5) (n : Fin 8) (k : LeafJob) (s : State) (x : Sel) :
    (leafJobDone c n k s).res x = s.res x := by cases x <;> rfl

/-- The use of a page changes the order of the pages alone (R116). -/
@[simp] theorem lane_touchPage (n : Fin 8) (r : LeafRef) (s : State) (m : Fin 8) : (touchPage n r s).lane m = s.lane m := by
  unfold touchPage
  split <;> rfl

@[simp] theorem res_touchPage (n : Fin 8) (r : LeafRef) (s : State) (x : Sel) : (touchPage n r s).res x = s.res x := by
  unfold touchPage
  split
  · rfl
  · cases x <;> rfl

/-- A leaf that is noted as verified counts as scrubbed, and its next scheduled scrub is skipped (R148). -/
theorem mem_noteVerified (r : LeafRef) (l : Lane) : r ∈ (noteVerified r l).scrubbed ∧ r ∈ (noteVerified r l).skipNext := by
  simp only [noteVerified, noteScrubbed]
  constructor <;> split <;> simp_all

@[simp] theorem noteVerified_leaves (r : LeafRef) (l : Lane) : (noteVerified r l).leaves = l.leaves := rfl

@[simp] theorem noteVerified_confirms (r : LeafRef) (l : Lane) : (noteVerified r l).confirms = l.confirms := rfl

/-- A page that is not resident has been requested (R115). -/
theorem mem_requestPage {r : LeafRef} {l : Lane} (h : l.leafDigest? r = none) :
    (r.region, leafPage r) ∈ (requestPage r l).pageReqs := by
  simp only [requestPage, h, Option.isSome_none, Bool.false_or]
  split <;> simp_all

/-- A page request changes no other field of the lane. -/
theorem requestPage_eq (r : LeafRef) (l : Lane) : ∃ q, requestPage r l = { l with pageReqs := q } := by
  simp only [requestPage]
  split
  · exact ⟨_, rfl⟩
  · exact ⟨_, rfl⟩

@[simp] theorem requestPage_trackers (r : LeafRef) (l : Lane) : (requestPage r l).trackers = l.trackers := by
  obtain ⟨q, h⟩ := requestPage_eq r l
  rw [h]

@[simp] theorem requestPage_leaves (r : LeafRef) (l : Lane) : (requestPage r l).leaves = l.leaves := by
  obtain ⟨q, h⟩ := requestPage_eq r l
  rw [h]

/-! ### The compare of a tracker (R120, R124, R130, R131) -/

/-- The digest of a tracker's bytes. -/
def trackedDigest (m : HostManifest) (t : Tracker) : Bytes := leafDigest (cellRead t.data 0 (leafSize m t.region))

section
variable {n : Fin 8} {k : Fin 64} {m : HostManifest} {d : Bytes} {s : State} {t : Tracker} (ht : (s.lane n).trackers[k] = t)
include ht

theorem compareTracker_match (h : trackedDigest m t = d) :
    compareTracker n k m d s = s.modLane n fun l =>
      noteVerified t.ref
        ((l.modTracker k fun _ => .free).count fun c => { c with leavesVerified := inc48 c.leavesVerified }) := by
  subst ht
  exact (if_pos h).trans (modLane_modLane ..)

theorem compareTracker_flash (h : trackedDigest m t ≠ d) (hr : t.res = none) :
    compareTracker n k m d s =
      flashMismatch n t.ref t.foundBy t.fault none (s.modLane n fun l => l.modTracker k fun _ => .free) := by
  subst ht
  refine (if_neg h).trans ?_
  rw [hr]

theorem compareTracker_reservoir {y : Sel} (h : trackedDigest m t ≠ d) (hr : t.res = some y) :
    compareTracker n k m d s =
      reservoirMismatch n t.ref y t.foundBy (s.modLane n fun l => l.modTracker k fun _ => .free) := by
  subst ht
  refine (if_neg h).trans ?_
  rw [hr]

end

/-! ### LEAF_HASH_COMPLETE -/

/-- A tracker whose leaf's page is not resident waits for the page, which is requested; the bound engine takes the next
complete leaf (R115, R120). -/
theorem pageWait_spec {l : Lane} {k : Fin 64} (hd : l.leafDigest? (l.trackers[k]).ref = none) :
    let x := startHash (requestPage (l.trackers[k]).ref (l.modTracker k fun t => { t with st := .pageWait }))
    x.trackers[k] = { l.trackers[k] with st := .pageWait } ∧
      ((l.trackers[k]).region, (l.trackers[k]).leaf / 16) ∈ x.pageReqs ∧ x.leaves = l.leaves := by
  intro x
  have hk : (requestPage (l.trackers[k]).ref (l.modTracker k fun t => { t with st := .pageWait })).trackers[k] =
      { l.trackers[k] with st := .pageWait } := by
    rw [requestPage_trackers]
    exact trackers_modTracker_same ..
  refine ⟨(startHash_keeps (by rw [hk]; exact nofun)).trans hk, ?_, ?_⟩
  · rw [startHash_field (p := Lane.pageReqs) fun _ _ => rfl]
    exact mem_requestPage hd
  · rw [startHash_field (p := Lane.leaves) fun _ _ => rfl, requestPage_leaves]
    rfl

section
variable {n : Fin 8} {k : Fin 64} {m : HostManifest} {s : State} (hs : s.spindlesRun = true)
  (hk : (s.lane n).nextHash = some k) (hm : (s.lane n).manifest = some m) (hh : (s.lane n).hashing = true)
include hs hk hm hh

theorem exec_leafHashComplete_resident {d : Bytes} (hd : (s.lane n).leafDigest? ((s.lane n).trackers[k]).ref = some d) :
    exec (.leafHashComplete n) s =
      .next ((touchPage n ((s.lane n).trackers[k]).ref (compareTracker n k m d (leafJobDone 0 n .hash s))).modLane n
        startHash) := by
  show execLeafHashComplete n s = _
  simp only [execLeafHashComplete, whileRunning_true hs, hk, hm, hh, hd, Bool.not_true, Bool.false_eq_true, if_false]

theorem exec_leafHashComplete_absent (hd : (s.lane n).leafDigest? ((s.lane n).trackers[k]).ref = none) :
    exec (.leafHashComplete n) s = .next ((leafJobDone 0 n .hash s).modLane n fun l =>
      startHash (requestPage ((s.lane n).trackers[k]).ref (l.modTracker k fun x => { x with st := .pageWait }))) := by
  show execLeafHashComplete n s = _
  simp only [execLeafHashComplete, whileRunning_true hs, hk, hm, hh, hd, Bool.not_true, Bool.false_eq_true, if_false,
    modLane_modLane]

/-- The end of a compared leaf's hash: what the compare left of the lane, with the bound engine's next leaf. A tracker that
the compare freed stays FREE. -/
theorem completes_leafHash {d : Bytes} {c : State} {P : State → Prop}
    (hd : (s.lane n).leafDigest? ((s.lane n).trackers[k]).ref = some d)
    (hc : compareTracker n k m d (leafJobDone 0 n .hash s) = c) (hfree : (c.lane n).trackers[k] = .free)
    (hP : ∀ x ts, (∀ y, x.res y = c.res y) → x.lane n = { c.lane n with trackers := ts } → ts[k] = .free → P x) :
    Completes (.leafHashComplete n) s P := by
  refine ⟨_, exec_leafHashComplete_resident hs hk hm hh hd, ?_⟩
  rw [hc]
  obtain ⟨ts, hl, ht⟩ := startHash_spec (c.lane n)
  refine hP _ ts (fun y => by simp) (by simp [hl]) ?_
  rw [← hfree]
  refine (ht k).resolve_right fun hq => ?_
  rw [hfree] at hq
  cases hq.1

end

/-- Settles O16: the compare of the tracker whose hash ends counts and marks the leaf by its digest and its source, and a
tracker without a page waits; the bound engine's next leaf changes no other tracker and nothing else of the lane. -/
theorem leafHashCompares : Obligations.leafHashCompares := by
  intro n k m d y s l t got hs hk hm hh
  have ht : ((leafJobDone 0 n .hash s).lane n).trackers[k] = t := rfl
  have hfree : (l.modTracker k fun _ => Tracker.free).trackers[k] = .free := trackers_modTracker_same ..
  refine ⟨fun hd hg => ?_, fun hd hg hr => ?_, fun hd hg hr hy => ?_, fun hd => ?_⟩
  · obtain ⟨h1, h2⟩ := mem_noteVerified t.ref
      ((l.modTracker k fun _ => .free).count fun c => { c with leavesVerified := inc48 c.leavesVerified })
    refine completes_leafHash hs hk hm hh hd (compareTracker_match ht hg) ?_ fun x ts _ hx hf => ?_
    · rw [lane_modLane_same]
      exact hfree
    · rw [lane_modLane_same] at hx
      rw [hx]
      exact ⟨hf, rfl, h1, h2, noteVerified_leaves t.ref _, noteVerified_confirms t.ref _⟩
  · have hm' := mismatched_flashMismatch n t.ref t.foundBy t.fault none
      ((leafJobDone 0 n .hash s).modLane n fun l => l.modTracker k fun _ => .free)
    rw [lane_modLane_same] at hm'
    obtain ⟨c, hc1, hc2, hc3, -⟩ := hm'.confirms
    refine completes_leafHash hs hk hm hh hd (compareTracker_flash ht hg hr) ?_ fun x ts _ hx hf => ?_
    · rw [hm'.trackers]
      exact hfree
    · rw [hx]
      exact ⟨hf, by rw [hm'.counts]; rfl, hm'.leaves, c, hc1, hc2, hc3⟩
  · obtain ⟨hdef, w, g, hl⟩ := reservoirMismatch_spec (n := n) (r := t.ref) (x := y)
      (s := (leafJobDone 0 n .hash s).modLane n fun l => l.modTracker k fun _ => .free) (by simpa using hy) t.foundBy
    rw [lane_modLane_same] at hl
    refine completes_leafHash hs hk hm hh hd (compareTracker_reservoir ht hg hr) ?_ fun x ts hres hx hf => ?_
    · rw [hl]
      exact hfree
    · rw [hl] at hx
      rw [hx, hres]
      exact ⟨hf, rfl, hdef, rfl⟩
  · refine completes_next (exec_leafHashComplete_absent hs hk hm hh hd) ?_
    rw [lane_modLane_same]
    exact pageWait_spec hd

end Sys2Proof.Machine
end

section
/-! SUPPORT. A page that is read, the timeout of a capture, and fills (R114, R116, R120, R124, R127, R128, R179). -/
namespace Sys2Proof.Machine
open Sys2Proof

/-! ### Room in the manifest cache (R116, R214) -/

/-- The free slots depend on the pages, the powered banks, and of the lanes on their configuration, manifest and
verification record alone. -/
theorem freeSlot_congr {s t : State} (hp : t.pages = s.pages) (hb : t.cacheBanks = s.cacheBanks) (hw : t.chuck = s.chuck)
    (hl : ∀ n, (t.lane n).cfg = (s.lane n).cfg ∧ (t.lane n).manifest = (s.lane n).manifest ∧
      (t.lane n).verify = (s.lane n).verify) (pin : Bool) : t.freeSlot pin = s.freeSlot pin := by
  have hlanes : t.cacheLanes = s.cacheLanes := by
    simp only [State.cacheLanes]
    exact congrArg (fun f => (fins 8).filterMap f) (funext fun n => by rw [(hl n).1, (hl n).2.1])
  have hcop : t.copiesEnd = s.copiesEnd := by simp only [State.copiesEnd, hlanes]
  have hcap : t.capturesEnd = s.capturesEnd := by simp only [State.capturesEnd, hlanes, hcop]
  have hsec : t.secondAt = s.secondAt := by simp only [State.secondAt, hcap]
  have hpin : t.pinned = s.pinned := funext fun p => by simp only [State.pinned, (hl p.lane).2.2]
  have hfix : t.meetsFixed = s.meetsFixed := funext fun a => funext fun b => by
    simp only [State.meetsFixed, hcap, hsec, hcop]
  have hon : t.cacheBankOn = s.cacheBankOn := funext fun b => by
    simp only [State.cacheBankOn, hfix, hpin, hp, hw, hb]
  simp only [State.freeSlot, State.slotFixed, hcap, hsec, hcop, hfix, hon, hp]

theorem lane_dropPage_same (n : Fin 8) (region page : Nat) (s : State) :
    (dropPage n region page s).lane n = forgetPage region page (s.lane n) := lane_modLane_same _ _ _

theorem lane_dropPage_other {n m : Fin 8} (region page : Nat) (s : State) (h : m ≠ n) :
    (dropPage n region page s).lane m = s.lane m := lane_modLane_other _ _ h

theorem makeRoom_free {pin : Bool} {k : Nat} {s : State} (h : s.freeSlot pin = some k) : makeRoom pin s = (some k, s) := by
  unfold makeRoom
  rw [h]

/-- A page that finds a free slot is resident there (R113, R116). -/
theorem loadPage_room {n : Fin 8} {region page k : Nat} {s : State} (b : Bytes)
    (hk : (dropPage n region page s).freeSlot ((dropPage n region page s).lane n).verify.pinPages = some k) :
    (loadPage n region page b s).lane n = holdPage region page b (forgetPage region page (s.lane n)) := by
  unfold loadPage
  simp only [makeRoom_free hk, lane_modLane_same]
  exact congrArg (holdPage region page b) (lane_dropPage_same n region page s)

/-! ### The digests of a page (R113) -/

@[simp] theorem getElem?_lmod_same {α : Type} (l : List α) (i : Nat) (f : α → α) : (lmod l i f)[i]? = l[i]?.map f := by
  simp [lmod]

/-- A page's digests leave a region's list as long as it was. -/
theorem forgetPage_length (region page : Nat) (l : Lane) :
    ((forgetPage region page l).digests[region]?).map List.length = (l.digests[region]?).map List.length := by
  simp [forgetPage, Function.comp_def]

/-- The digests of a resident page are those of its bytes. -/
theorem leafDigest?_holdPage {region page count i : Nat} {l : Lane} (b : Bytes)
    (hlen : (l.digests[region]?).map List.length = some count) (hi : i < 16) (hc : 16 * page + i < count) :
    (holdPage region page b l).leafDigest? ⟨region, 16 * page + i⟩ = some (slice b (32 * i) 32) := by
  obtain ⟨ds, hds, rfl⟩ := Option.map_eq_some_iff.mp hlen
  have hpage : (16 * page + i) / 16 = page := by omega
  have hpos : (16 * page + i) % 16 = i := by omega
  simp [holdPage, Lane.leafDigest?, hds, List.getElem?_eq_getElem hc, hpage, hpos]

/-! ### PAGE_IN_COMPLETE, PARTIAL_TIMEOUT and TRACKER_FILL_COMPLETE -/

/-- A page that proves as the file of Reservoir A holds it is read from there (R114, R179). -/
theorem exec_pageInComplete {n : Fin 8} {region : Fin 256} {page : Nat} {fileA fileB : Bytes} {ls : List Bytes}
    {bad : List Nat} {m : HostManifest} {g : Region} {count : Nat} {b : Bytes} {s : State} (hs : s.spindlesRun = true)
    (hm : (s.lane n).manifest = some m) (hg : m.regions[region.val]? = some g)
    (hq : (s.lane n).pageReqs.contains (region.val, page) = true) (hf : s.fileReadable .a n = true)
    (hc : min 16 (g.leafCount - 16 * page) = count) (hb : slice fileA (pageOffset m region.val page) (32 * count) = b)
    (hp : pageProves (s.lane n) region.val page count b = true) :
    exec (.pageInComplete n region page fileA fileB ls bad) s = .next (pageRead n m region.val page b s) := by
  show execPageInComplete n region page fileA fileB ls bad s = _
  simp only [execPageInComplete, whileRunning_true hs, hm, hq, hg, hf, hc, hb, if_true, List.singleton_append,
    List.find?_cons, hp]

theorem exec_partialTimeout {n : Fin 8} {k : Fin 64} {s : State} (hs : s.spindlesRun = true)
    (hk : ((s.lane n).trackers[k]).st = .capturing)
    (ht : ((s.lane n).trackers[k]).lastCapture + (s.lane n).verify.partialTimeout ≤ s.tick) :
    exec (.partialTimeout n k) s =
      .next (s.modLane n fun l => l.modTracker k fun x => { x with st := .filling, filled := true }) := by
  show execPartialTimeout n k s = _
  rw [execPartialTimeout, whileRunning_true hs]
  exact if_pos ⟨hk, ht⟩

/-- The end of a leaf's job with an update of its lane leaves everything but the lanes and Confluence as it was. -/
theorem leafJobDone_modLane_frame (c : Fin 5) (n : Fin 8) (k : LeafJob) (f : Lane → Lane) (s : State) :
    { (leafJobDone c n k s).modLane n f with lanes := s.lanes, conf := s.conf } = s := by
  simp only [leafJobDone, jobDone, State.modConf, State.modLane]

/-- The bytes of a fill join the captured ones of a tracker, which stay (R127). -/
def filledTracker (leafBytes : Bytes) (fault : Bool) (t : Tracker) : Tracker :=
  { t with data := coverNew t.data 0 leafBytes, fault := t.fault || fault }

theorem exec_trackerFillComplete {n : Fin 8} {k : Fin 64} {b : Bytes} {fault : Bool} {m : HostManifest} {s : State}
    (hs : s.spindleServes n = true) (hm : (s.lane n).manifest = some m) (hk : ((s.lane n).trackers[k]).st = .filling)
    (hb : b.length = leafSize m ((s.lane n).trackers[k]).region)
    (hr : (s.fillSource n ((s.lane n).trackers[k]).region).isSome = true ∨
      s.leafReadable n ((s.lane n).trackers[k]).ref = true) :
    exec (.trackerFillComplete n k b fault) s = .next ((leafJobDone 0 n (.fill k) s).modLane n fun l =>
      startHash (complete? (leafSize m ((s.lane n).trackers[k]).region) k (l.modTracker k (filledTracker b fault)))) := by
  show execTrackerFillComplete n k b fault s = _
  simp only [execTrackerFillComplete, whileServing_true hs, hm]
  exact if_pos ⟨hk, hb, hr⟩

/-- A FILLING tracker that is covered in full is QUEUED (R124). -/
theorem complete?_filling {size : Nat} {k : Fin 64} {l : Lane} (hk : (l.trackers[k]).st = .filling)
    (hd : (l.trackers[k]).data.length = size) :
    (complete? size k l).trackers[k] = { l.trackers[k] with st := .queued, order := l.nextOrder } := by
  rw [complete?, if_pos ⟨hd, .inr hk⟩]
  exact trackers_modTracker_same ..

/-- A QUEUED tracker stays QUEUED, or a free engine hashes its leaf (R120, R124). -/
theorem startHash_queued {l : Lane} {k : Fin 64} {t : Tracker} (ht : l.trackers[k] = t) (h : t.st = .queued) :
    ∃ st, (st = .queued ∨ st = .hashing) ∧ (startHash l).trackers[k] = { t with st := st } := by
  obtain ⟨ts, hl, hk⟩ := startHash_spec l
  rw [hl]
  subst ht
  obtain hq | ⟨-, hq⟩ := hk k
  · exact ⟨_, .inl h, hq⟩
  · exact ⟨_, .inr rfl, hq⟩

/-- A page that is read is resident and requested no more, where no tracker waits for it (R114, R116). -/
theorem pageRead_spec {n : Fin 8} {m : HostManifest} {region page count : Nat} {s : State} (b : Bytes)
    (hw : (s.lane n).waitingFor region page = [])
    (hlen : ((s.lane n).digests[region]?).map List.length = some count)
    (hroom : ((dropPage n region page s).freeSlot (s.lane n).verify.pinPages).isSome = true) :
    let x := (pageRead n m region page b s).lane n
    (∀ i < 16, 16 * page + i < count → x.leafDigest? ⟨region, 16 * page + i⟩ = some (slice b (32 * i) 32)) ∧
      (region, page) ∉ x.pageReqs ∧ x.trackers = (s.lane n).trackers ∧ x.leaves = (s.lane n).leaves := by
  obtain ⟨k, hk⟩ := Option.isSome_iff_exists.mp hroom
  generalize hs1 : (s.modLane n fun l => { l with pageReqs := drop? l.pageReqs fun q => q == (region, page) }) = s1
  have hl : s1.lane n = { s.lane n with pageReqs := drop? (s.lane n).pageReqs fun q => q == (region, page) } := by
    rw [← hs1]
    exact lane_modLane_same ..
  have hfree : (dropPage n region page s1).freeSlot ((dropPage n region page s1).lane n).verify.pinPages = some k := by
    rw [lane_dropPage_same, hl, ← hk]
    refine freeSlot_congr (by rw [← hs1]; rfl) (by rw [← hs1]; rfl) (by rw [← hs1]; rfl) (fun j => ?_) _
    by_cases hj : j = n
    · rw [hj, lane_dropPage_same, lane_dropPage_same, hl]
      exact ⟨rfl, rfl, rfl⟩
    · rw [lane_dropPage_other _ _ _ hj, lane_dropPage_other _ _ _ hj, ← hs1, lane_modLane_other _ _ hj]
      exact ⟨rfl, rfl, rfl⟩
  have hx : (pageRead n m region page b s).lane n = holdPage region page b (forgetPage region page (s1.lane n)) := by
    simp only [pageRead, hw, List.foldl_nil, hs1]
    exact loadPage_room b hfree
  rw [hx]
  refine ⟨fun i hi hc => leafDigest?_holdPage b ?_ hi hc, ?_, ?_, ?_⟩
  · rw [forgetPage_length, hl]
    exact hlen
  · rw [hl]
    simp [holdPage, forgetPage, drop?]
  · rw [hl]
    rfl
  · rw [hl]
    rfl

/-- Settles O17: a page read from Reservoir A is resident in its free slot; a timeout is an update of its tracker; a fill
makes a tracker's coverage complete, which queues it. -/
theorem pagesAndFills : Obligations.pagesAndFills := by
  intro n k region page fileA fileB leafBytes ls bad fault m g s l t count b
  refine ⟨fun hs hm hg hpage hq hf hp hw hlen hroom => ?_, fun hs hk ht => ?_, fun hs hm hk hb hr hc => ?_⟩
  · refine ⟨_, exec_pageInComplete hs hm hg hq hf rfl rfl hp, ?_⟩
    obtain ⟨h1, h2, h3, h4⟩ := pageRead_spec (m := m) b hw hlen hroom
    exact ⟨fun i hi => h1 i (by omega) (by omega), h2, h3, h4⟩
  · refine completes_modLane (exec_partialTimeout hs hk ht) fun ho => ⟨?_, ho⟩
    rw [lane_modLane_same]
    exact trackers_modTracker_same ..
  · refine completes_next (exec_trackerFillComplete hs hm hk hb hr) ?_
    have hfill : (l.modTracker k (filledTracker leafBytes fault)).trackers[k] = filledTracker leafBytes fault t :=
      trackers_modTracker_same ..
    have hq := complete?_filling (l := l.modTracker k (filledTracker leafBytes fault)) (k := k)
      (size := leafSize m t.region) (by rw [hfill]; exact hk) (by rw [hfill]; exact hc.trans hb)
    obtain ⟨st, hst, hz⟩ := startHash_queued hq rfl
    rw [lane_modLane_same]
    simp only [lane_leafJobDone]
    rw [hz, hfill]
    exact ⟨hst, rfl, rfl, rfl, leafJobDone_modLane_frame ..⟩

end Sys2Proof.Machine
end

section
/-! SUPPORT. Flash checks, confirmation reads and scrubs (R111, R115, R129, R130, R147 to R150). -/
namespace Sys2Proof.Machine
open Sys2Proof

@[simp] theorem lane_logNow (y o : Nat) (b : Bytes) (s : State) (n : Fin 8) : (logNow y o b s).lane n = s.lane n := rfl

/-! ### Whole reads by Virund (R111, R130) -/

/-- A leaf that is noted as scrubbed counts as such (R147). -/
theorem mem_noteScrubbed (r : LeafRef) (l : Lane) : r ∈ (noteScrubbed r l).scrubbed := by
  simp only [noteScrubbed]
  split <;> simp_all

theorem judgeRead_match {b d : Bytes} (h : leafDigest b = d) (n : Fin 8) (r : LeafRef) (foundBy : Nat) (good : Lane → Lane)
    (s : State) :
    judgeRead n r foundBy b false d good s = (touchPage n r s).modLane n fun l => good (leafMatched r l) := if_pos h

theorem judgeRead_mismatch {b d : Bytes} (h : leafDigest b ≠ d) (n : Fin 8) (r : LeafRef) (foundBy : Nat)
    (good : Lane → Lane) (s : State) :
    judgeRead n r foundBy b false d good s = flashMismatch n r foundBy false (some b) (touchPage n r s) := if_neg h

/-- The FLASH_STATE of a leaf after a match does not depend on what else of the lane changed (R111). -/
theorem leafMatched_leaves {l k : Lane} (r : LeafRef) (h : k.leaves = l.leaves) :
    (leafMatched r k).leaves = (leafMatched r l).leaves := by
  simp only [leafMatched, Lane.modLeaf, h]

/-! ### FLASH_CHECK (R129) -/

/-- The oldest queued check is taken and counted. -/
def checkTaken (rest : List LeafRef) (l : Lane) : Lane :=
  { l with flashChecks := rest, counts := { l.counts with flashChecks := inc48 l.counts.flashChecks } }

theorem exec_flashCheck {n : Fin 8} {r : LeafRef} {rest : List LeafRef} {b d : Bytes} {s : State}
    (hs : s.spindleServes n = true) (hq : (s.lane n).flashChecks = r :: rest) (hd : (s.lane n).leafDigest? r = some d)
    (hr : s.leafReadable n r = true) :
    exec (.flashCheck n b false) s =
      .next (judgeRead n r 2 b false d (noteVerified r) (leafJobDone 0 n .check (s.modLane n (checkTaken rest)))) := by
  show execFlashCheck n b false s = _
  simp only [execFlashCheck, whileServing_true hs, hq, hr, hd, Bool.not_true, Bool.false_eq_true, if_false]
  rfl

/-! ### CONFIRMATION_READS (R130) -/

/-- The oldest leaf that waits for confirmation reads waits no more; one that its mismatch found not yet marked gets a
FLASH_STATE. -/
def confirmed (c : Confirm) (cs : List Confirm) (f : FlashState) (l : Lane) : Lane :=
  { (if c.fresh then l.modLeaf c.leaf fun st => { st with flash := if st.flash = .good then .good else f } else l) with
    confirms := cs }

theorem exec_confirmationReads {n : Fin 8} {c : Confirm} {cs : List Confirm} {b b2 : Bytes} {fault : Bool}
    {v : Nat × FlashState} {s : State} (hs : s.spindleServes n = true) (hq : (s.lane n).confirms = c :: cs)
    (hr : s.leafReadable n c.leaf = true)
    (hv : classify (c.fault || fault) (c.firstRead.getD b) b2 ((s.lane n).leafDigest? c.leaf) = v)
    (ha : v.2 ≠ .bad ∨ ((s.lane n).leafDigest? c.leaf).isSome = true) :
    ∃ x, exec (.confirmationReads n b b2 fault) s = .next x ∧ x.lane n = confirmed c cs v.2 (s.lane n) := by
  have hask : (v.2 == .bad && ((s.lane n).leafDigest? c.leaf).isNone) = false := by
    obtain h | h := ha
    · simp [h]
    · simp [Option.isNone_eq_false_iff.mpr h]
  have he : exec (.confirmationReads n b b2 fault) s = .next
      (if c.logged then ((leafJobDone 0 n .confirm s).modLane n (confirmed c cs v.2)).modLog fun g =>
          { g with queue := setCause g.queue n c.leaf v.1 }
        else (leafJobDone 0 n .confirm s).modLane n (confirmed c cs v.2)) := by
    show execConfirmationReads n b b2 fault s = _
    simp only [execConfirmationReads, whileServing_true hs, hq, hr, hv, hask, Bool.not_true, Bool.false_and,
      Bool.false_eq_true, if_false]
    rfl
  rw [he]
  split
  · exact ⟨_, rfl, lane_modLane_same ..⟩
  · exact ⟨_, rfl, lane_modLane_same ..⟩

/-! ### SCRUB and SCRUB_OVERRUN (R147 to R149) -/

/-- The next visit is made and counted. -/
def scrubTaken (l : Lane) : Lane :=
  { l with scrubAt := l.scrubAt + 1, counts := { l.counts with scrubLeaves := inc48 l.counts.scrubLeaves } }

theorem exec_scrub {n : Fin 8} {r : LeafRef} {b d : Bytes} {m : HostManifest} {q : Lane} {s : State}
    (hs : s.spindleServes n = true) (hm : (s.lane n).manifest = some m)
    (ht : s.tick < (s.lane n).scrubStart + (s.lane n).scrubTicks)
    (hp : scrubPass s n (allLeaves m) ((allLeaves m).length + 1) (s.lane n) = (some r, q))
    (hd : q.leafDigest? r = some d) :
    exec (.scrub n b false) s = .next (judgeRead n r 3 b false d (noteScrubbed r)
      (leafJobDone 4 n .scrub (s.modLane n fun _ => scrubTaken q))) := by
  have ho : decide ((s.lane n).scrubStart + (s.lane n).scrubTicks ≤ s.tick) = false := by simp [ht]
  show execScrub n b false s = _
  simp only [execScrub, whileServing_true hs, hm, ho, Bool.false_and, Bool.false_eq_true, if_false, hp, lane_modLane_same,
    hd, modLane_modLane]
  rfl

/-- A scrub period that left a leaf unscrubbed ends, with its overruns counted; the next one begins at that leaf. -/
def scrubOverran (i overruns : Nat) (l : Lane) : Lane :=
  { scrubRestart i (l.scrubStart + l.scrubTicks) l with counts := { l.counts with scrubOverruns := overruns } }

theorem exec_scrubOverrun {n : Fin 8} {i : Nat} {r : LeafRef} {m : HostManifest} {s : State} (hs : s.spindlesRun = true)
    (hm : (s.lane n).manifest = some m) (hu : (s.lane n).unscrubbed (allLeaves m) = some (i, r))
    (ht : (s.lane n).scrubStart + (s.lane n).scrubTicks ≤ s.tick) :
    exec (.scrubOverrun n) s = .next (logNow 0x0022 (originLane n)
      ([BitVec.ofNat 8 n.val, 0, 0, 0] ++ leBytes 4 r.leaf ++ leBytes 4 (inc48 (s.lane n).counts.scrubOverruns))
      (s.modLane n (scrubOverran i (inc48 (s.lane n).counts.scrubOverruns)))) := by
  show execScrubOverrun n s = _
  simp only [execScrubOverrun, whileRunning_true hs, hm, hu, Nat.not_lt.mpr ht, if_false]
  rfl

/-- Settles O18: a check and a scrub end in the judgement of a whole read; the confirmation reads classify; an overrun
restarts the period. -/
theorem checksAndScrubs : Obligations.checksAndScrubs := by
  intro n r rest c cs i b b2 d fault m q s l verdict
  refine ⟨fun hs hq hd hr hb => ⟨_, exec_flashCheck hs hq hd hr, ?_⟩,
    fun hs hq hd hr hb => ⟨_, exec_flashCheck hs hq hd hr, ?_⟩,
    fun hs hq hr ha => ?_, fun hs hm ht hp hd hb => ⟨_, exec_scrub hs hm ht hp hd, ?_⟩,
    fun hs hm hu ht => completes_next (exec_scrubOverrun hs hm hu ht) ?_⟩
  · obtain ⟨h1, h2⟩ := mem_noteVerified r (leafMatched r (checkTaken rest l))
    rw [judgeRead_match hb]
    simp only [lane_modLane_same, lane_touchPage, lane_leafJobDone]
    exact ⟨rfl, rfl, leafMatched_leaves r rfl, h1, h2⟩
  · rw [judgeRead_mismatch hb]
    have hx := mismatched_flashMismatch n r 2 false (some b)
      (touchPage n r (leafJobDone 0 n .check (s.modLane n (checkTaken rest))))
    simp only [lane_modLane_same, lane_touchPage, lane_leafJobDone] at hx
    obtain ⟨y, hy1, hy2, -, hy4⟩ := hx.confirms
    exact ⟨hx.checks, by rw [hx.counts]; rfl, y, hy1, hy2, hy4⟩
  · obtain ⟨x, hx, hl⟩ := exec_confirmationReads hs hq hr rfl ha
    refine completes_next hx ?_
    rw [hl]
    refine ⟨rfl, ?_⟩
    rw [confirmed]
    split <;> rfl
  · rw [judgeRead_match hb]
    simp only [lane_modLane_same, lane_touchPage, lane_leafJobDone]
    exact ⟨rfl, rfl, leafMatched_leaves r rfl, mem_noteScrubbed r _⟩
  · rw [lane_logNow, lane_modLane_same]
    exact ⟨rfl, rfl, rfl, rfl, rfl⟩

end Sys2Proof.Machine
end

section
/-! SUPPORT. Claims, mirror fills and the release of a mismatch hold (R134 to R136, R139, R141). -/
namespace Sys2Proof.Machine
open Sys2Proof

/-! ### Claims (R139, R141) -/

theorem exec_claimEffect_capable {x : Sel} {c : Claim} {s : State} (hs : s.spindlesRun = true)
    (hc : (s.res x).claim = some c) (he : c.inEffect = false) (hr : s.resAt33 x c.lane = false) :
    exec (.claimEffect x true) s =
      .next (setReservoir c.lane 0 x (s.modRes x fun r => { r with claim := some { c with inEffect := true } })) := by
  show execClaimEffect x true s = _
  simp only [execClaimEffect, whileRunning_true hs, hc, he, hr, Bool.false_eq_true, if_false, Bool.not_false, Bool.and_self,
    if_true]

theorem exec_claimEffect_refused {x : Sel} {c : Claim} {s : State} (hs : s.spindlesRun = true)
    (hc : (s.res x).claim = some c) (he : c.inEffect = false) (ho : (s.lane c.lane).outcome ≠ some .verifiedReservoir) :
    exec (.claimEffect x false) s = .next (s.modRes x fun r => { r with claim := none, suspended := false }) := by
  show execClaimEffect x false s = _
  simp only [execClaimEffect, whileRunning_true hs, hc, he, Bool.false_eq_true, if_false, Bool.false_and, lane_modRes]
  rw [if_neg fun h => ho h.1]

theorem exec_claimRelease {x : Sel} {c : Claim} {s : State} (hs : s.spindlesRun = true) (hc : (s.res x).claim = some c)
    (hn : claimNeeded c.lane s = false) : exec (.claimRelease x) s = .next (endClaim x s) := by
  show execClaimRelease x s = _
  simp only [execClaimRelease, whileRunning_true hs, hc, hn, Bool.false_eq_true, if_false]

/-- Every claim of a later state was there before, or is one that a lane of a kind took. -/
def ClaimsBy (p : Fin 8 → Prop) (s t : State) : Prop :=
  ∀ x c, (t.res x).claim = some c → (s.res x).claim = some c ∨ p c.lane

theorem ClaimsBy.refl (p : Fin 8 → Prop) (s : State) : ClaimsBy p s s := fun _ _ h => .inl h

theorem ClaimsBy.trans {p : Fin 8 → Prop} {s t u : State} (h : ClaimsBy p s t) (k : ClaimsBy p t u) : ClaimsBy p s u :=
  fun x c hc => (k x c hc).elim (h x c) .inr

theorem claimsBy_foldl {α : Type} {p : Fin 8 → Prop} {f : State → α → State} {l : List α}
    (h : ∀ s, ∀ a ∈ l, ClaimsBy p s (f s a)) (s : State) : ClaimsBy p s (l.foldl f s) := by
  induction l generalizing s with
  | nil => exact .refl p s
  | cons a l ih => exact (h s a (by simp)).trans (ih (fun s b hb => h s b (by simp [hb])) _)

theorem claimsBy_takeClaim {p : Fin 8 → Prop} {n : Fin 8} (hn : p n) (x : Sel) (s : State) :
    ClaimsBy p s (takeClaim n x s) := by
  intro y c hc
  by_cases hy : y = x
  · rw [hy, takeClaim, res_modRes_same] at hc
    cases hc
    exact .inr hn
  · rw [takeClaim, res_modRes_other s _ hy] at hc
    exact .inl hc

theorem claimsBy_requestClaim {p : Fin 8 → Prop} {n : Fin 8} (hn : p n) (region : Nat) (s : State) :
    ClaimsBy p s (requestClaim n region s) := by
  have hw : ClaimsBy p s (s.modLane n fun l => { l with claimWanted := true }) := fun x c hc =>
    .inl (by rwa [res_modLane] at hc)
  obtain h | h | ⟨x, h⟩ := requestClaim_cases n region s <;> rw [h]
  · exact .refl p s
  · exact hw
  · exact hw.trans (claimsBy_takeClaim hn x _)

theorem claimsBy_requestClaims {p : Fin 8 → Prop} {n : Fin 8} (hn : p n) (s : State) : ClaimsBy p s (requestClaims n s) :=
  claimsBy_foldl (fun s r _ => claimsBy_requestClaim hn r s) s

/-- A lane that does not need its claim has no leaf that needs a Reservoir (R139). -/
theorem needy_of_not_claimNeeded {n : Fin 8} {s : State} (h : claimNeeded n s = false) : (s.lane n).needy = [] := by
  rw [claimNeeded, Bool.or_eq_false_iff] at h
  simpa using h.1

/-- A claim that follows the end of a claim on its port is of another lane that needs it (R139, R273). -/
theorem endClaim_claim {x : Sel} {c e : Claim} {s : State} (hc : (s.res x).claim = some c)
    (hn : (s.lane c.lane).needy = []) (he : ((endClaim x s).res x).claim = some e) : e.lane ≠ c.lane := by
  unfold endClaim at he
  extract_lets s0 s1 wants s2 at he
  rw [res_modRes_same] at he
  have hs0 : s0 = s.modLane c.lane fun l => { l with claimWanted := false } := by simp only [s0, hc]
  have hlane : (s1.lane c.lane).needy = [] := by
    rw [lane_modRes, hs0, lane_modLane_same]
    exact hn
  have hby : ClaimsBy (· ≠ c.lane) s1 s2 := claimsBy_foldl (fun t m hm => claimsBy_requestClaims (fun hmc => ?_) t) s1
  · obtain h | h := hby x e he
    · simp [s1] at h
    · exact h
  · rw [List.mem_filter, hmc, hlane] at hm
    simp at hm

/-! ### Mirror fills (R135, R136) -/

/-- A filled leaf's extent holds its bytes, and the leaf waits for no fill and has a verified copy (R111, R135). -/
theorem mirrorFilled_spec (n : Fin 8) (r : LeafRef) (b : Bytes) (s : State) :
    let t := mirrorFilled n r b s
    (∀ e ∈ t.mirror, e.lane = n → e.leaf = r → e.bytes = b) ∧ t.mirror.length = s.mirror.length ∧ r ∉ (t.lane n).fills ∧
      (t.lane n).leaves = ((s.lane n).modLeaf r fun st => { st with mirrorValid := true }).leaves := by
  intro t
  have hl : t.lane n = _ := lane_modLane_same (storeMirror n r b s) n _
  refine ⟨fun e he hn hr => ?_, List.length_map _, ?_, ?_⟩
  · obtain ⟨e', -, rfl⟩ := List.mem_map.mp he
    by_cases h : e'.lane = n ∧ e'.leaf = r
    · rw [if_pos h]
    · rw [if_neg h] at hn hr
      exact absurd ⟨hn, hr⟩ h
  · rw [hl]
    simp [drop?]
  · rw [hl]
    rfl

theorem exec_mirrorFill_flash {n : Fin 8} {region : Fin 256} {leaf : Nat} {b d : Bytes} {s : State}
    (hs : s.spindleServes n = true) (hf : s.nextFill n = some ⟨region.val, leaf⟩)
    (hd : (s.lane n).leafDigest? ⟨region.val, leaf⟩ = some d) (hb : (s.lane n).leafBad ⟨region.val, leaf⟩ = false)
    (hr : s.leafReadable n ⟨region.val, leaf⟩ = true) (hm : leafDigest b = d) :
    exec (.mirrorFill n region leaf b false false) s = .next (mirrorFilled n ⟨region.val, leaf⟩ b
      ((leafJobDone 0 n (.mirror region leaf) s).modLane n (leafMatched ⟨region.val, leaf⟩))) := by
  show execMirrorFill n region leaf b false false s = _
  simp only [execMirrorFill, whileServing_true hs, hf, decide_true, hd, hb, hr, hm, Bool.not_true, Bool.not_false,
    Bool.or_self, Bool.false_eq_true, if_false, and_self, if_true]

theorem exec_mirrorFill_reservoir {n : Fin 8} {region : Fin 256} {leaf : Nat} {b d : Bytes} {y : Sel} {s : State}
    (hs : s.spindleServes n = true) (hf : s.nextFill n = some ⟨region.val, leaf⟩)
    (hd : (s.lane n).leafDigest? ⟨region.val, leaf⟩ = some d) (hb : (s.lane n).leafBad ⟨region.val, leaf⟩ = true)
    (hy : s.repairSource n ⟨region.val, leaf⟩ = some y) (hm : leafDigest b = d) :
    exec (.mirrorFill n region leaf b true false) s =
      .next ((mirrorFilled n ⟨region.val, leaf⟩ b (leafJobDone 0 n (.mirror region leaf) s)).modLane n fun l =>
        { l with pv := { l.pv with fillsFromReservoir := l.pv.active || l.pv.fillsFromReservoir } }) := by
  show execMirrorFill n region leaf b true false s = _
  simp only [execMirrorFill, whileServing_true hs, hf, decide_true, hd, hb, hy, hm, Bool.not_false, if_true, and_self]

/-! ### HOLD_AUTO_RELEASE (R134) -/

theorem exec_holdAutoRelease {h : Fin 16} {s : State} (hs : s.spindlesRun = true) (hm : (s.host h).hold.mismatch = true)
    (hc : (s.host h).causes.all (fun c => (s.lane c.1).verify.autoRelease && s.leafServed c.1 c.2) = true) :
    exec (.holdAutoRelease h) s = .next (releaseMismatch h s) := by
  show execHoldAutoRelease h s = _
  rw [execHoldAutoRelease, whileRunning_true hs]
  exact if_pos ⟨hm, hc⟩

/-- A host that POWER holds too stays held when its mismatch hold is released (R134, R242). -/
theorem releaseMismatch_power {h : Fin 16} {s : State} (hp : (s.host h).hold.power = true) :
    (releaseMismatch h s).host h =
      { s.host h with hold := { (s.host h).hold with mismatch := false }, causes := [] } := by
  have hx : ((s.modHold h fun w => { w with mismatch := false }).modHost h fun x => { x with causes := [] }).host h =
      { s.host h with hold := { (s.host h).hold with mismatch := false }, causes := [] } := by
    rw [host_modHost_same, State.modHold, host_modHost_same]
  rw [releaseMismatch, if_pos (by rw [hx]; simp [HoldWord.any, hp]), hx]

/-- Settles O19: a claim that takes effect sets its Reservoir to the lane's mode, and one that ends is followed by claims of
other lanes alone; a fill stores the leaf's bytes; a release clears MISMATCH on a host that POWER still holds. -/
theorem claimsFillsReleases : Obligations.claimsFillsReleases := by
  intro n x y cl region leaf b d h s r l
  refine ⟨fun hs hc he hr => ⟨_, exec_claimEffect_capable hs hc he hr, ?_⟩,
    fun hs hc he ho => ⟨_, exec_claimEffect_refused hs hc he ho, ?_⟩,
    fun hs hc hn => ⟨_, exec_claimRelease hs hc hn, ?_⟩,
    fun hs hf hd hb hr hm => ⟨_, exec_mirrorFill_flash hs hf hd hb hr hm, ?_⟩,
    fun hs hf hd hb hy hm => ⟨_, exec_mirrorFill_reservoir hs hf hd hb hy hm, ?_⟩,
    fun hs hm hc hp => completes_next (exec_holdAutoRelease hs hm hc) ?_⟩
  · simp [setReservoir]
  · simp
  · intro c' hc'
    exact endClaim_claim hc (needy_of_not_claimNeeded hn) hc'
  · obtain ⟨h1, h2, h3, h4⟩ := mirrorFilled_spec n r b
      ((leafJobDone 0 n (.mirror region leaf) s).modLane n (leafMatched r))
    rw [lane_modLane_same] at h4
    exact ⟨h1, h2, h3, h4⟩
  · obtain ⟨h1, -, h3, h4⟩ := mirrorFilled_spec n r b (leafJobDone 0 n (.mirror region leaf) s)
    rw [lane_modLane_same]
    exact ⟨h1, h3, h4⟩
  · rw [releaseMismatch_power hp]
    exact ⟨rfl, rfl, rfl⟩

end Sys2Proof.Machine
end

section
/-! SUPPORT. A change of one bus, the answers of the SPDM responder, and what the signature of a response leaves (R290, R295). -/
namespace Sys2Proof.Machine
open Sys2Proof

/-! ### Buses -/

theorem buses_modBus_same (s : State) (b : Fin 16) (f : Bus → Bus) : (s.modBus b f).buses[b] = f s.buses[b] :=
  vmod_same _ _ _

/-- Only one bus differs between two states. -/
def OnlyBus (b : Fin 16) (s t : State) : Prop := { t with buses := s.buses } = s ∧ ∀ c, c ≠ b → t.buses[c] = s.buses[c]

theorem onlyBus_modBus (b : Fin 16) (f : Bus → Bus) (s : State) : OnlyBus b s (s.modBus b f) :=
  ⟨rfl, fun _ hc => vmod_other _ _ hc⟩

theorem onlyBus_spdmAnswer (b : Fin 16) (out : Bytes) (f : Spdm → Spdm) (s : State) : OnlyBus b s (spdmAnswer b out f s) :=
  onlyBus_modBus _ _ _

theorem spdmOut_spdmAnswer (b : Fin 16) (out : Bytes) (f : Spdm → Spdm) (s : State) :
    ((spdmAnswer b out f s).buses[b]).spdmOut = some out :=
  congrArg Bus.spdmOut (buses_modBus_same ..)

theorem spdm_spdmAnswer (b : Fin 16) (out : Bytes) (f : Spdm → Spdm) (s : State) :
    ((spdmAnswer b out f s).buses[b]).spdm = f (s.buses[b]).spdm :=
  congrArg Bus.spdm (buses_modBus_same ..)

/-! ### Signatures of the Alias key (R290, R371) -/

/-- NVM, the admission policy and the snapshot are as they were. -/
def KeepsStores (s t : State) : Prop := t.nvm = s.nvm ∧ t.adm = s.adm ∧ t.snap = s.snap

theorem KeepsStores.trans {s t u : State} (h : KeepsStores s t) (k : KeepsStores t u) : KeepsStores s u :=
  ⟨k.1.trans h.1, k.2.1.trans h.2.1, k.2.2.trans h.2.2⟩

theorem KeepsStores.drawn {s t : State} (h : KeepsStores s t) (n : Nat) : KeepsStores s { t with free := n } := h

theorem keepsStores_powerEngine (e : Engine) (s : State) : KeepsStores s (powerEngine e s) := by
  unfold powerEngine
  dsimp only
  split
  · exact ⟨rfl, rfl, rfl⟩
  · cases e <;> exact ⟨rfl, rfl, rfl⟩

theorem keepsStores_keyJob (retain : Bool) (key : Bytes) (s : State) : KeepsStores s (keyJob retain key s) := by
  unfold keyJob
  split
  · exact ⟨rfl, rfl, rfl⟩
  · exact (keepsStores_powerEngine _ s).trans ⟨rfl, rfl, rfl⟩

theorem keepsStores_signEc (retain : Bool) (k : KeyPair) (m : Bytes) (s : State) : KeepsStores s (signEc retain k m s).2 := by
  unfold signEc
  dsimp only
  split <;> exact (keepsStores_keyJob _ _ s).trans ⟨rfl, rfl, rfl⟩

theorem keepsStores_signHybrid (retain : Bool) (k : KeyPair) (m : Bytes) (s : State) :
    KeepsStores s (signHybrid retain k m s).2 := by
  have h := (keepsStores_signEc retain k m s).trans (keepsStores_keyJob retain k.seed (signEc retain k m s).2)
  simp only [signHybrid]
  exact h.drawn _

theorem keepsStores_spdmSign (v : Byte) (context : String) (transcript : Bytes) (s : State) :
    KeepsStores s (spdmSign v context transcript s).2 := by
  unfold spdmSign
  split
  · exact ⟨rfl, rfl, rfl⟩
  · exact KeepsStores.trans ⟨rfl, rfl, rfl⟩ (keepsStores_signEc _ _ _ (jobDone 2 s))

end Sys2Proof.Machine
end

section
/-! SUPPORT. The SPDM responder (R292, R295 to R297). -/
namespace Sys2Proof.Machine
open Sys2Proof

section
variable {r : SpdmReq} {v : Byte} {s : State}

theorem exec_spdmGetVersion (hs : s.spdmServes r.bus = true) (hc : r.msg.getD 1 0 = 0x84) (hv : r.msg.headD 0 = 0x10) :
    exec (.spdmGetVersion r) s = .next (spdmAnswer r.bus [0x10, 0x04, 0, 0, 0, 2, 0x00, 0x12, 0x00, 0x13]
      (fun _ => { Spdm.none with stage := 1, vca := r.msg ++ [0x10, 0x04, 0, 0, 0, 2, 0x00, 0x12, 0x00, 0x13] }) s) := by
  show execSpdmGetVersion r s = _
  simp only [execSpdmGetVersion, hs, hc, hv]
  rfl

/-- CAPABILITIES of a version (R295). -/
def spdmCapabilities (v : Byte) : Bytes :=
  [v, 0x61, 0, 0, 0, 12, 0, 0] ++ leBytes 4 (spdmFlags v) ++ leBytes 4 1024 ++ leBytes 4 16384

theorem exec_spdmGetCapabilities (hg : spdmGate 0xE1 1 20 r s = .pass v) :
    exec (.spdmGetCapabilities r) s = .next (spdmAnswer r.bus (spdmCapabilities v)
      (fun x => { x with stage := 2, version := v, vca := x.vca ++ r.msg ++ spdmCapabilities v }) s) := by
  show execSpdmGetCapabilities r s = _
  rw [execSpdmGetCapabilities, hg]
  rfl

/-- ALGORITHMS of a version where the requester offers P-384 and SHA-384 and asks for the DMTF measurement format (R295). -/
def spdmAlgorithms (v : Byte) : Bytes :=
  [v, 0x63, 0, 0] ++ leBytes 2 36 ++ [1, 0] ++ leBytes 4 4 ++ leBytes 4 0x80 ++ leBytes 4 2 ++ zeros 16

theorem exec_spdmNegotiateAlgorithms (hg : spdmGate 0xE3 2 32 r s = .pass v) (ha : bit (u32 r.msg 8) 7 = true)
    (hh : bit (u32 r.msg 12) 1 = true) (hm : r.msg.getD 6 0 = 1) :
    exec (.spdmNegotiateAlgorithms r) s = .next (spdmAnswer r.bus (spdmAlgorithms v)
      (fun x => { x with stage := 3, vca := x.vca ++ r.msg ++ spdmAlgorithms v, certs := [], meas := [] }) s) := by
  show execSpdmNegotiateAlgorithms r s = _
  rw [execSpdmNegotiateAlgorithms, hg]
  dsimp only
  rw [ha, hh, hm]
  rfl

theorem exec_spdmGetDigests_ready (hg : spdmGate 0x81 3 4 r s = .pass v) (hc : s.certsReady = true) :
    exec (.spdmGetDigests r) s = .next (spdmAnswer r.bus
      ([v, 0x01, if v = 0x13 then 1 else 0, 1] ++ sha384 (spdmChain s))
      (fun x => { x with certs := r.msg ++ ([v, 0x01, if v = 0x13 then 1 else 0, 1] ++ sha384 (spdmChain s)) }) s) := by
  show execSpdmGetDigests r s = _
  rw [execSpdmGetDigests, hg]
  dsimp only
  rw [hc]
  rfl

theorem exec_spdmGetDigests_busy (hg : spdmGate 0x81 3 4 r s = .pass v) (hc : s.certsReady = false) :
    exec (.spdmGetDigests r) s = .next (spdmError r.bus v errBusy s) := by
  show execSpdmGetDigests r s = _
  rw [execSpdmGetDigests, hg]
  dsimp only
  rw [hc]
  rfl

/-- CERTIFICATE with the portion of the chain that the request asks for (R295). -/
def spdmCertificate (v : Byte) (r : SpdmReq) (s : State) : Bytes :=
  let p := slice (spdmChain s) (u16 r.msg 4) (u16 r.msg 6)
  [v, 0x02, 0, 0] ++ leBytes 2 p.length ++ leBytes 2 ((spdmChain s).length - u16 r.msg 4 - p.length) ++ p

theorem exec_spdmGetCertificate (hg : spdmGate 0x82 3 8 r s = .pass v) (hc : s.certsReady = true)
    (h0 : r.msg.getD 2 0 &&& 0x0F = 0) (ho : u16 r.msg 4 < (spdmChain s).length) :
    exec (.spdmGetCertificate r) s = .next (spdmAnswer r.bus (spdmCertificate v r s)
      (fun x => { x with certs := x.certs ++ r.msg ++ spdmCertificate v r s }) s) := by
  show execSpdmGetCertificate r s = _
  rw [execSpdmGetCertificate, hg]
  dsimp only
  rw [hc, h0, if_neg (by decide), if_neg (by simp [Nat.not_le.mpr ho])]
  rfl

/-- CHALLENGE_AUTH without a measurement summary, as far as its signature (R295). -/
def spdmChallengeAuth (v : Byte) (r : SpdmReq) (s : State) : Bytes :=
  [v, 0x03, 0, 1] ++ sha384 (spdmChain s) ++ (drawBytes 32 s).1 ++ [] ++ [0, 0] ++ requesterContext v r.msg 36

/-- The signature of CHALLENGE_AUTH (R295). -/
def spdmChallengeSigned (v : Byte) (r : SpdmReq) (s : State) : Bytes × State :=
  let x := (s.buses[r.bus]).spdm
  spdmSign v "responder-challenge_auth signing" (x.vca ++ x.certs ++ r.msg ++ spdmChallengeAuth v r s) (drawBytes 32 s).2

theorem exec_spdmChallenge (hg : spdmGate 0x83 3 36 r s = .pass v) (hc : s.certsReady = true) (h2 : r.msg.getD 2 0 = 0)
    (h3 : r.msg.getD 3 0 = 0) :
    exec (.spdmChallenge r) s = .next (spdmAnswer r.bus (spdmChallengeAuth v r s ++ (spdmChallengeSigned v r s).1)
      (fun x => { x with certs := [] }) (spdmChallengeSigned v r s).2) := by
  show execSpdmChallenge r s = _
  rw [execSpdmChallenge, hg]
  dsimp only
  rw [hc, h2, h3, if_neg (by decide), if_neg (by decide)]
  rfl

/-- MEASUREMENTS with some blocks, without a signature (R296, R297). -/
def spdmMeasurements (v : Byte) (bs : List MeasBlock) (r : SpdmReq) (s : State) : Bytes :=
  [v, 0x60, BitVec.ofNat 8 (if (r.msg.getD 3 0).toNat = 0 then s.snap.blocks.length else 0), 0, BitVec.ofNat 8 bs.length]
    ++ leBytes 3 (bs.flatMap measBytes).length ++ bs.flatMap measBytes ++ (drawBytes 32 s).1 ++ [0, 0]
    ++ requesterContext v r.msg 4

theorem exec_spdmGetMeasurements {bs : List MeasBlock} (hn : bit (r.msg.getD 2 0).toNat 0 = false)
    (hg : spdmGate 0xE0 3 4 r s = .pass v) (hb : measWanted s.snap.blocks (r.msg.getD 3 0).toNat = some bs)
    (hc : s.certsReady = true) :
    exec (.spdmGetMeasurements r) s = .next (spdmAnswer r.bus (spdmMeasurements v bs r s)
      (fun x => { x with meas := (s.buses[r.bus]).spdm.meas ++ r.msg ++ spdmMeasurements v bs r s }) (drawBytes 32 s).2) := by
  show execSpdmGetMeasurements r s = _
  simp only [execSpdmGetMeasurements, hn, Bool.false_eq_true, if_false, false_and, hg, hb, hc, Bool.not_true]
  rfl

end

/-- Settles O43: each answer is an update of the request's bus, after the signature where there is one. -/
theorem spdmResponds : Obligations.spdmResponds := by
  intro r v bs s out stage only
  refine ⟨fun hs hc hv => completes_next (exec_spdmGetVersion hs hc hv)
      ⟨spdmOut_spdmAnswer .., congrArg Spdm.stage (spdm_spdmAnswer ..), onlyBus_spdmAnswer ..⟩,
    fun hg => completes_next (exec_spdmGetCapabilities hg) ⟨spdmOut_spdmAnswer .., congrArg Spdm.stage (spdm_spdmAnswer ..),
      congrArg Spdm.version (spdm_spdmAnswer ..), onlyBus_spdmAnswer ..⟩,
    fun hg ha hh hm => completes_next (exec_spdmNegotiateAlgorithms hg ha hh hm)
      ⟨spdmOut_spdmAnswer .., congrArg Spdm.stage (spdm_spdmAnswer ..), onlyBus_spdmAnswer ..⟩,
    fun hg hc => completes_next (exec_spdmGetDigests_ready hg hc) ⟨spdmOut_spdmAnswer .., onlyBus_spdmAnswer ..⟩,
    fun hg hc => completes_next (exec_spdmGetDigests_busy hg hc) ⟨spdmOut_spdmAnswer .., onlyBus_spdmAnswer ..⟩,
    fun hg hc h0 ho => completes_next (exec_spdmGetCertificate hg hc h0 ho)
      ⟨_, _, spdmOut_spdmAnswer .., rfl, rfl, onlyBus_spdmAnswer ..⟩,
    fun hg hc h2 h3 => completes_next (exec_spdmChallenge hg hc h2 h3) ?_,
    fun hn hg hb hc => completes_next (exec_spdmGetMeasurements hn hg hb hc)
      ⟨⟨BitVec.ofNat 8 (if (r.msg.getD 3 0).toNat = 0 then s.snap.blocks.length else 0),
        (drawBytes 32 s).1 ++ [0, 0] ++ requesterContext v r.msg 4, (spdmOut_spdmAnswer ..).trans ?_⟩, rfl, rfl, rfl⟩⟩
  · obtain ⟨hn, -, hp⟩ := KeepsStores.trans (s := s) ⟨rfl, rfl, rfl⟩ (keepsStores_spdmSign v "responder-challenge_auth signing" _
      (drawBytes 32 s).2)
    refine ⟨⟨(drawBytes 32 s).1 ++ [0, 0] ++ requesterContext v r.msg 36 ++ (spdmChallengeSigned v r s).1,
      (spdmOut_spdmAnswer ..).trans ?_⟩, congrArg Spdm.certs (spdm_spdmAnswer ..), hn, hp⟩
    simp only [spdmChallengeAuth, List.append_assoc, List.nil_append]
  · simp only [spdmMeasurements, List.append_assoc]

end Sys2Proof.Machine
end

section
/-! SUPPORT. What each named update of a slot leaves of the slot, and what the messages and signatures that go with it leave of
all slots (R298 to R303, R311 to R316). -/
namespace Sys2Proof.Machine
open Sys2Proof

@[simp] theorem slot_modSlot_same (s : State) (i : Fin 1024) (f : Slot → Slot) : (s.modSlot i f).slot i = f (s.slot i) :=
  vmod_same _ _ _

/-- Slots are read out of NVM alone, and the configuration of a slot out of the policy alone. -/
theorem slot_congr {s t : State} (h : t.nvm.slots = s.nvm.slots) (i : Fin 1024) : t.slot i = s.slot i := by
  rw [State.slot, State.slot, h]

theorem slotCfg_congr {s t : State} (h : t.adm = s.adm) (i : Fin 1024) : t.slotCfg i = s.slotCfg i := by
  rw [State.slotCfg, State.slotCfg, h]

@[simp] theorem slotCfg_modSlot (s : State) (i j : Fin 1024) (f : Slot → Slot) : (s.modSlot i f).slotCfg j = s.slotCfg j := rfl

/-! ### Messages to a component (R298, R299) -/

@[simp] theorem slot_sendCtrl (i j : Fin 1024) (m : CtrlMsg) (s : State) : (sendCtrl i m s).slot j = s.slot j := by
  unfold sendCtrl
  split <;> rfl

@[simp] theorem slotCfg_sendCtrl (i j : Fin 1024) (m : CtrlMsg) (s : State) : (sendCtrl i m s).slotCfg j = s.slotCfg j := by
  unfold sendCtrl
  split <;> rfl

theorem sentTo_sendCtrl {i : Fin 1024} {c : SlotCfg} {s : State} (h : s.slotCfg i = some c) (m : CtrlMsg) :
    SentTo c m (sendCtrl i m s) := by
  rw [SentTo, sendCtrl, h]
  exact congrArg Bus.ctrlOut (buses_modBus_same ..)

/-- An attestation of a present slot starts with GET_VERSION (R299). -/
theorem startAttest_present {i : Fin 1024} {c : SlotCfg} {s : State} (hp : (s.slot i).present = true)
    (h : s.slotCfg i = some c) :
    startAttest i s = sendCtrl i .getVersion (s.modSlot i fun x => { x with phase := .negotiate, seenDigest := [] }) := by
  simp [startAttest, hp, h]

theorem sentTo_startAttest {i : Fin 1024} {c : SlotCfg} {s : State} (hp : (s.slot i).present = true)
    (h : s.slotCfg i = some c) : SentTo c .getVersion (startAttest i s) := by
  rw [startAttest_present hp h]
  exact sentTo_sendCtrl (by simp [h]) _

theorem slot_startAttest {i : Fin 1024} {c : SlotCfg} {s : State} (hp : (s.slot i).present = true)
    (h : s.slotCfg i = some c) : (startAttest i s).slot i = { s.slot i with phase := .negotiate, seenDigest := [] } := by
  rw [startAttest_present hp h]
  simp

@[simp] theorem slot_jobDone (k : Fin 5) (s : State) (i : Fin 1024) : (jobDone k s).slot i = s.slot i := rfl

/-! ### States, tokens and operations (R303, R314, R413) -/

@[simp] theorem slot_logNow (y o : Nat) (d : Bytes) (s : State) (i : Fin 1024) : (logNow y o d s).slot i = s.slot i :=
  slot_congr rfl i

@[simp] theorem slot_setAdm (i : Fin 1024) (st : AdmState) (r l : Byte) (s : State) :
    (setAdm i st r l s).slot i = { s.slot i with state := st, reason := r } := by
  unfold setAdm
  dsimp only
  split <;> simp

/-- A slot whose token is revoked (R303). -/
def Slot.revoked (x : Slot) : Slot :=
  if x.token = [] then x else { x with tokenFloor := max x.tokenFloor (x.tokenSerial + 1), probation := false }

@[simp] theorem slot_revoke (i : Fin 1024) (s : State) : (revoke i s).slot i = (s.slot i).revoked := slot_modSlot_same ..

/-- A revocation leaves every field but TOKEN_FLOOR and PROBATION. -/
theorem Slot.revoked_field {α : Type} {p : Slot → α} (hp : ∀ x n b, p { x with tokenFloor := n, probation := b } = p x)
    (x : Slot) : p x.revoked = p x := by
  unfold Slot.revoked
  split
  · rfl
  · exact hp ..

@[simp] theorem Slot.revoked_state (x : Slot) : x.revoked.state = x.state := Slot.revoked_field (fun _ _ _ => rfl) x
@[simp] theorem Slot.revoked_lease (x : Slot) : x.revoked.lease = x.lease := Slot.revoked_field (fun _ _ _ => rfl) x
@[simp] theorem Slot.revoked_phase (x : Slot) : x.revoked.phase = x.phase := Slot.revoked_field (fun _ _ _ => rfl) x

theorem Slot.revoked_floor {x : Slot} (h : x.token ≠ []) : x.tokenSerial < x.revoked.tokenFloor := by
  rw [Slot.revoked, if_neg h]
  exact Nat.lt_of_lt_of_le (Nat.lt_succ_self _) (Nat.le_max_right _ _)

/-- The token that a slot held is revoked where its floor is that of a revocation. -/
theorem revoked_of {i : Fin 1024} {s t : State} {x : Slot} (ht : x.token = (s.slot i).token)
    (hs : x.tokenSerial = (s.slot i).tokenSerial) (hf : (t.slot i).tokenFloor = x.revoked.tokenFloor) : Revoked i s t := by
  intro h
  rw [hf, ← hs]
  exact Slot.revoked_floor (ht ▸ h)

@[simp] theorem slot_endAttestOp (i : Fin 1024) (r : Res) (s : State) :
    (endAttestOp i r s).slot i = { s.slot i with op := none } := by
  unfold endAttestOp endOp?
  rw [slot_modSlot_same]
  split <;> rfl

/-- The signature of a token by the Alias key (R290, R314). -/
theorem keepsStores_tokenSignature (hybrid : Bool) (k : KeyPair) (body : Bytes) (s : State) : KeepsStores s
    (if hybrid then signHybrid true k body (jobDone 2 s) else signEc true k body (jobDone 2 s)).2 := by
  cases hybrid
  · exact KeepsStores.trans ⟨rfl, rfl, rfl⟩ (keepsStores_signEc true k body (jobDone 2 s))
  · exact KeepsStores.trans ⟨rfl, rfl, rfl⟩ (keepsStores_signHybrid true k body (jobDone 2 s))

/-- Two slots differ in their tokens alone. -/
def Slot.SameButToken (x y : Slot) : Prop :=
  { y with
    tokenSerial := x.tokenSerial, token := x.token, notAfter := x.notAfter, probation := x.probation, issued := x.issued } = x

theorem Slot.sameButToken_of {x y : Slot} (h : y = x) (n : Nat) (b : Bytes) (e : Nat) (p : Bool) (l : List Issued) :
    x.SameButToken { y with tokenSerial := n, token := b, notAfter := e, probation := p, issued := l } := by
  subst h
  rfl

/-- A token changes the token's own fields of a slot (R314, R316). -/
theorem slot_issueToken (i : Fin 1024) (s : State) : (s.slot i).SameButToken ((issueToken i s).slot i) := by
  unfold issueToken
  split
  · next p c k _ _ _ =>
    have hn := fun body => (keepsStores_tokenSignature p.hybrid k body s).1
    dsimp only
    rw [slot_modSlot_same]
    exact Slot.sameButToken_of (slot_congr (congrArg Nvm.slots (hn _)) i) ..
  · rfl

/-! ### Leases and claims (R303, R311) -/

theorem foldl_sendRoutedOn_nvm (k : Fin 4) (l : List (RoutedHdr × Bytes)) (s : State) :
    (l.foldl (fun s x => sendRoutedOn k x.1 x.2 s) s).nvm = s.nvm := by
  induction l generalizing s with
  | nil => rfl
  | cons x xs ih =>
    rw [List.foldl_cons, ih]
    rfl

theorem sendRouted_nvm (d : BitVec 12) (n : Nat) (m : Word) (b : Bytes) (s : State) : (sendRouted d n m b s).nvm = s.nvm := by
  unfold sendRouted
  split
  · rfl
  · split
    · rfl
    · exact foldl_sendRoutedOn_nvm _ _ _

@[simp] theorem slot_relayQuota (n : BitVec 12) (op : Nat) (i j : Fin 1024) (b : Bytes) (s : State) :
    (relayQuota n op i b s).slot j = s.slot j :=
  slot_congr (congrArg Nvm.slots (sendRouted_nvm ..)) j

@[simp] theorem slot_giveBack (i j : Fin 1024) (id : Word) (s : State) : (giveBack i id s).slot j = s.slot j := by
  unfold giveBack
  repeat' split
  · rfl
  · rfl
  · rfl
  · simp

@[simp] theorem slot_dropLease (i : Fin 1024) (s : State) : (dropLease i s).slot i = { s.slot i with lease := none } := by
  unfold dropLease
  split
  · next h => rw [← h]
  · simp

/-- A slot whose outstanding claim is withdrawn (R303). -/
def Slot.unclaimed (x : Slot) : Slot := if x.claimOut then { x with claimOut := false, claimTries := 0 } else x

/-- A withdrawal leaves every field but those of the claim. -/
theorem Slot.unclaimed_field {α : Type} {p : Slot → α} (hp : ∀ x b n, p { x with claimOut := b, claimTries := n } = p x)
    (x : Slot) : p x.unclaimed = p x := by
  unfold Slot.unclaimed
  split
  · exact hp ..
  · rfl

@[simp] theorem Slot.unclaimed_phase (x : Slot) : x.unclaimed.phase = x.phase := Slot.unclaimed_field (fun _ _ _ => rfl) x
@[simp] theorem Slot.unclaimed_token (x : Slot) : x.unclaimed.token = x.token := Slot.unclaimed_field (fun _ _ _ => rfl) x
@[simp] theorem Slot.unclaimed_tokenSerial (x : Slot) : x.unclaimed.tokenSerial = x.tokenSerial :=
  Slot.unclaimed_field (fun _ _ _ => rfl) x

@[simp] theorem slot_withdrawClaim (i : Fin 1024) (s : State) : (withdrawClaim i s).slot i = (s.slot i).unclaimed := by
  unfold withdrawClaim Slot.unclaimed
  cases h : (s.slot i).claimOut
  · simp
  · simp only [Bool.not_true, Bool.false_eq_true, if_false, if_true]
    repeat' split
    all_goals simp

end Sys2Proof.Machine
end

section
/-! SUPPORT. The presence of slots, the exchanges of an attestation, its verdict and its repetition (R298 to R303, R305,
R317). -/
namespace Sys2Proof.Machine
open Sys2Proof

section
variable {i : Fin 1024} {c : SlotCfg} {s : State}

/-! ### Presence (R298, R303) -/

/-- A report of PRESENCE_IN changes the debounced inputs alone. -/
theorem notePresence_inputs (c : SlotCfg) (pin : Bool) (s : State) :
    ∃ g, notePresence c pin s = s.modChuck fun k => { k with inGood := g } := by
  unfold notePresence
  split
  · exact ⟨_, rfl⟩
  · exact ⟨_, rfl⟩

@[simp] theorem slot_notePresence (pin : Bool) (j : Fin 1024) : (notePresence c pin s).slot j = s.slot j := by
  obtain ⟨g, h⟩ := notePresence_inputs c pin s
  rw [h]
  rfl

@[simp] theorem slotCfg_notePresence (pin : Bool) (j : Fin 1024) : (notePresence c pin s).slotCfg j = s.slotCfg j := by
  obtain ⟨g, h⟩ := notePresence_inputs c pin s
  rw [h]
  rfl

@[simp] theorem controls_notePresence (pin : Bool) (d : SlotCfg) : (notePresence c pin s).controls d = s.controls d := by
  obtain ⟨g, h⟩ := notePresence_inputs c pin s
  rw [h]
  rfl

@[simp] theorem buses_notePresence (pin : Bool) : (notePresence c pin s).buses = s.buses := by
  obtain ⟨g, h⟩ := notePresence_inputs c pin s
  rw [h]
  rfl

theorem presenceIn_sendCtrl (m : CtrlMsg) (d : SlotCfg) : (sendCtrl i m s).presenceIn d = s.presenceIn d := by
  unfold sendCtrl
  split <;> rfl

theorem slotEid_state (i : Fin 1024) (s : State) : ∃ n, (slotEid i s).2 = { s with free := n } := by
  unfold slotEid
  split <;> exact ⟨_, rfl⟩

/-- A slot that becomes present gets its EID and is discovered (R298, R317). -/
theorem becomePresent_spec (h : s.slotCfg i = some c) :
    ((becomePresent i s).slot i).present = true ∧ ((becomePresent i s).slot i).phase = .discovery ∧
      SentTo c (.setEndpointId ((becomePresent i s).slot i).eid) (becomePresent i s) := by
  obtain ⟨n, he⟩ := slotEid_state i s
  have hb : ((becomePresent i s).slot i).eid = (slotEid i s).1 := by simp [becomePresent]
  refine ⟨by simp [becomePresent], by simp [becomePresent], ?_⟩
  rw [hb]
  exact sentTo_sendCtrl (by rw [slotCfg_modSlot, he]; exact h) _

theorem exec_slotPresent {pin : Bool} (hc : s.slotCfg i = some c) (hk : s.controls c = true)
    (hp : (notePresence c pin s).presenceIn c = true) (ha : (s.slot i).present = false) :
    exec (.slotPresent i pin) s = .next (becomePresent i (notePresence c pin s)) := by
  show execSlotPresent i pin s = _
  simp [execSlotPresent, hc, hk, hp, ha]

theorem exec_slotPoll {answers pin : Bool} (hc : s.slotCfg i = some c) (hk : s.controls c = true)
    (hb : (s.buses[(Fin.ofNat 16 c.bus : Fin 16)]).i3c = false) (ha : (s.slot i).present = false) :
    exec (.slotPoll i answers pin) s = .next
      (if answers && (notePresence c pin s).presenceIn c then becomePresent i (sendCtrl i .poll (notePresence c pin s))
       else sendCtrl i .poll (notePresence c pin s)) := by
  show execSlotPoll i answers pin s = _
  simp only [execSlotPoll, hc, controls_notePresence, buses_notePresence, slot_notePresence, hk, hb, ha, Bool.not_true,
    Bool.or_self, Bool.false_eq_true, if_false]

/-- A poll is a message on the slot's bus, after the report of PRESENCE_IN. -/
theorem sendCtrl_notePresence_frame (m : CtrlMsg) (pin : Bool) :
    { sendCtrl i m (notePresence c pin s) with buses := s.buses, chuck := s.chuck } = s := by
  obtain ⟨g, h⟩ := notePresence_inputs c pin s
  rw [h]
  unfold sendCtrl
  split <;> rfl

theorem slot_slotUnknown : (slotUnknown i s).slot i =
    { (s.slot i).unclaimed with lease := none, state := .unknown, reason := rNone }.revoked := by
  simp [slotUnknown]

/-- A slot that is no longer present is UNKNOWN, holds no component and no lease, and its token is revoked (R303). -/
theorem becomeAbsent_spec : ((becomeAbsent i s).slot i).present = false ∧ ((becomeAbsent i s).slot i).state = .unknown ∧
    ((becomeAbsent i s).slot i).componentId = [] ∧ ((becomeAbsent i s).slot i).lease = none ∧
    Revoked i s (becomeAbsent i s) := by
  refine ⟨by simp [becomeAbsent], ?_, ?_, ?_, revoked_of (x := { ({ s.slot i with op := none } : Slot).unclaimed with
    lease := none, state := .unknown, reason := rNone }) ?_ ?_ ?_⟩
  all_goals simp [becomeAbsent, forgetComponent, slot_slotUnknown]

theorem exec_slotAbsent (h : (s.slot i).present = true) : exec (.slotAbsent i) s = .next (becomeAbsent i s) := by
  show execSlotAbsent i s = _
  rw [execSlotAbsent, if_pos h]

/-! ### The exchanges (R298, R299) -/

theorem exec_attestationResponse (a : SpdmAnswer) (hc : s.slotCfg i = some c) (hk : s.controls c = true)
    (hp : (s.slot i).present = true) : exec (.attestationResponse i a) s = .next (attestAnswer i a s) := by
  show execAttestationResponse i a s = _
  simp [execAttestationResponse, hc, hk, hp]

theorem attestAnswer_discovery (h : (s.slot i).phase = .discovery) : attestAnswer i (.discovery true) s = startAttest i s := by
  simp [attestAnswer, h]

theorem attestAnswer_settled {v : Byte} (h : (s.slot i).phase = .negotiate) (hv : v = 0x12 ∨ v = 0x13) :
    attestAnswer i (.settled v true 0b10 true true) s =
      sendCtrl i .getDigests (s.modSlot i fun x => { x with phase := .digests }) := by
  rcases hv with rfl | rfl <;> simp [attestAnswer, h]

theorem attestAnswer_measurements (b sig : Bytes) (h : (s.slot i).phase = .measurements) :
    attestAnswer i (.measurements b sig) s = s.modSlot i fun x => { x with phase := .judging, blocks := b } := by
  simp [attestAnswer, h]

/-! ### Attempts without an answer (R299, R303) -/

/-- A slot whose attempt has ended without an answer for the n-th time in a row, at a time (R303). -/
def Slot.unanswered (n now : Nat) (x : Slot) : Slot :=
  { x with phase := .idle, failures := n, retryAt := now + (if n = 1 then 10 else 60) * nsPerSec }

theorem exec_attestationTimeout_early (hi : (s.slot i).phase ≠ .idle) (hj : (s.slot i).phase ≠ .judging)
    (hm : s.mode = .firmware) (hn : (s.slot i).failures = 0) : exec (.attestationTimeout i) s =
      .next (endAttestOp i .aborted (s.modSlot i (Slot.unanswered 1 s.time))) := by
  show execAttestationTimeout i s = _
  simp only [execAttestationTimeout, hi, hj, hm, hn, ne_eq, not_true_eq_false, or_self, if_false]
  exact if_neg (fun h => absurd h.1 (by decide))

theorem exec_attestationTimeout_third (hi : (s.slot i).phase ≠ .idle) (hj : (s.slot i).phase ≠ .judging)
    (hm : s.mode = .firmware) (hn : (s.slot i).failures = 2) (ha : (s.slot i).state = .admitted) :
    exec (.attestationTimeout i) s =
      .next ((setAdm i .quarantined rNoResponse rNoResponse (revoke i (withdrawClaim i
        (endAttestOp i .aborted (s.modSlot i (Slot.unanswered 3 s.time)))))).modSlot i fun x => { x with failures := 0 }) := by
  show execAttestationTimeout i s = _
  simp only [execAttestationTimeout, hi, hj, hm, hn, ne_eq, not_true_eq_false, or_self, if_false]
  exact if_pos ⟨by decide, .inl ha⟩

/-! ### The verdict (R300 to R303) -/

/-- A slot that is not REFUSED and not the owner's enters REFUSED (R303). -/
theorem refuseSlot_admitted (r : Byte) (h : (s.slot i).state = .admitted) :
    refuseSlot i r s = setAdm i .refused r r (revoke i (withdrawClaim i (s.modSlot i fun x => { x with chainDigest := [] }))) := by
  simp [refuseSlot, h]

/-- A component of a slot in UNKNOWN that matches an entry without a quota is ADMITTED (R301, R303). -/
theorem judge_unknown_free {p : AdmPolicy} {k : Nat} {a : AllowCfg} (hu : (s.slot i).state = .unknown)
    (he : matchedEntry p c (s.slot i).measured = some (k, a)) (hr : rootAdmitted p (some (k, a)) (s.slot i).rootDigest = true)
    (hq : a.quota = 0) : ({ s.slot i with
      state := .admitted, reason := rNone, lease := none, matched := some k, profile := a.profile } : Slot).SameButToken
        ((judge i p c s).slot i) := by
  have hj : judge i p c s = issueToken i (setAdm i .admitted rNone rNone
      (dropLease i (s.modSlot i fun x => { x with matched := some k, profile := a.profile }))) := by
    simp [judge, hu, he, hr, judgeMatched, judgeFresh, hq]
  rw [hj]
  simpa using slot_issueToken i (setAdm i .admitted rNone rNone
    (dropLease i (s.modSlot i fun x => { x with matched := some k, profile := a.profile })))

/-- What a slot knows of a component that has passed (R301). -/
def Slot.passed (chain : List ChainCert) (x : Slot) : Slot :=
  { x with
    componentId := hH (0x03 :: (((chain.getLast?).map (·.spki)).getD []))
    measured := readMeas 256 x.blocks
    rootDigest := sha384 (((chain.head?).map (·.der)).getD [])
    chainDigest := x.seenDigest
    failures := 0 }

theorem attestPassed_fresh {p : AdmPolicy} (chain : List ChainCert) (h : (s.slot i).componentId = []) :
    attestPassed i p c chain s = judge i p c (s.modSlot i (Slot.passed chain)) := by
  simp only [attestPassed, h, ne_eq, not_true_eq_false, false_and, if_false]
  rfl

/-- The state in which a verdict is reached: the job of the check is counted, and no exchange is open (R300). -/
def verdictState (i : Fin 1024) (s : State) : State := jobDone 2 (s.modSlot i fun x => { x with phase := .idle })

variable {p : AdmPolicy} {chain : List ChainCert}

/-- The root of a chain (R300). -/
def chainRoot (chain : List ChainCert) : Bytes := sha384 (((chain.head?).map (·.der)).getD [])

theorem exec_attestationVerdict (ha : s.adm = some p) (hc : s.slotCfg i = some c) (hj : (s.slot i).phase = .judging)
    (hm : s.mode = .firmware)
    (ho : ((s.slot i).chainBytes.drop ((s.slot i).chainBytes.length - (chain.flatMap (·.der)).length) == chain.flatMap (·.der))
      = true) : exec (.attestationVerdict i chain true) s =
      .next (endAttestOp i .done (if !chainFormOk chain || !p.roots.contains (chainRoot chain) then
        refuseSlot i rBadChain (verdictState i s) else attestPassed i p c chain (verdictState i s))) := by
  show execAttestationVerdict i chain true s = _
  simp only [execAttestationVerdict, ha, hc, hj, hm, ho, ne_eq, not_true_eq_false, false_or, Bool.not_true, Bool.false_eq_true,
    if_false]
  rfl

/-! ### Repetition (R303, R317) -/

theorem exec_attestRetry (hm : s.mode = .firmware) (ha : (s.slot i).state = .admitted) (hi : (s.slot i).phase = .idle)
    (hf : 0 < (s.slot i).failures) (ht : (s.slot i).retryAt ≤ s.time) : exec (.attestRetry i) s = .next (startAttest i s) := by
  show execAttestRetry i s = _
  exact if_pos ⟨hm, ha, hi, hf, ht⟩

theorem exec_reattest (ha : s.adm = some p) (hm : s.mode = .firmware) (hi : (s.slot i).phase = .idle)
    (ht : (s.slot i).nextAttest ≤ s.time) : exec (.reattest i) s =
      .next (startAttest i (s.modSlot i fun x => { x with nextAttest := x.nextAttest + p.reattest * nsPerSec })) := by
  show execReattest i s = _
  simp [execReattest, ha, hm, hi, Nat.not_lt.mpr ht]

theorem exec_discoveryNotify (hm : s.mode = .firmware) (hd : (s.slot i).phase ≠ .discovery) :
    exec (.discoveryNotify i) s = .next (startAttest i s) := by
  show execDiscoveryNotify i s = _
  exact if_pos ⟨hm, hd⟩

end

/-- Settles O41: each step whose conditions hold is an update of its slot, with the message that it sends. -/
theorem slotsAttest : Obligations.slotsAttest := by
  intro i c p v b sig pin chain k a s x judged
  refine ⟨fun hc hk hp ha => completes_next (exec_slotPresent hc hk hp ha) (becomePresent_spec (by simpa using hc)),
    fun hc hk hb ha => ⟨completes_next (exec_slotPoll hc hk hb ha) ?_, fun hp =>
      completes_next (exec_slotPoll hc hk hb ha) ?_⟩,
    fun hp => completes_next (exec_slotAbsent hp) becomeAbsent_spec,
    fun hc hk hp hd => completes_next (exec_attestationResponse _ hc hk hp) ?_,
    fun hc hk hp hd hv => completes_next (exec_attestationResponse _ hc hk hp) ?_,
    fun hc hk hp hd => completes_next (exec_attestationResponse _ hc hk hp) ?_,
    fun hi hj hm hn => completes_next (exec_attestationTimeout_early hi hj hm hn) ?_,
    fun hi hj hm hn ha => completes_next (exec_attestationTimeout_third hi hj hm hn ha) ?_,
    fun ha hc hj hm hs ho hf => completes_next (exec_attestationVerdict ha hc hj hm ho) ?_,
    fun ha hc hj hm hs ho hf hi hl hr he hq hra => completes_next (exec_attestationVerdict ha hc hj hm ho) ?_,
    fun hc hp hm ha hi hf ht => completes_next (exec_attestRetry hm ha hi hf ht) ?_,
    fun ha hc hp hm hi ht => completes_next (exec_reattest ha hm hi ht) ?_,
    fun hc hp hm hd => completes_next (exec_discoveryNotify hm hd) ?_⟩
  · exact ⟨sentTo_sendCtrl (by simpa using hc) _, sendCtrl_notePresence_frame _ _⟩
  · rw [hp]
    exact becomePresent_spec (by simpa using hc)
  · rw [attestAnswer_discovery hd]
    exact ⟨by rw [slot_startAttest hp hc], sentTo_startAttest hp hc⟩
  · rw [attestAnswer_settled hd hv]
    exact ⟨by simp, sentTo_sendCtrl (by simpa using hc) _⟩
  · rw [attestAnswer_measurements b sig hd]
    exact ⟨by simp, by simp⟩
  · simp [Slot.unanswered, x]
  · refine ⟨by simp, by simp, by simp, revoked_of
      (x := ({ (s.slot i).unanswered 3 s.time with op := none } : Slot).unclaimed) ?_ ?_ ?_⟩
    all_goals simp [Slot.unanswered]
  · have hx : ((verdictState i s).slot i).state = .admitted := by simpa [verdictState] using hs
    rw [hf, refuseSlot_admitted _ hx]
    refine ⟨by simp, by simp, by simp [verdictState], revoked_of
      (x := ({ s.slot i with phase := .idle, chainDigest := [] } : Slot).unclaimed) ?_ ?_ ?_⟩
    all_goals simp [verdictState]
  · have hx : (verdictState i s).slot i = { s.slot i with phase := .idle } := by simp [verdictState]
    have hy : ((verdictState i s).modSlot i (Slot.passed chain)).slot i =
        ({ s.slot i with phase := .idle } : Slot).passed chain := by rw [slot_modSlot_same, hx]
    have ht := judge_unknown_free (s := (verdictState i s).modSlot i (Slot.passed chain)) (by rw [hy]; exact hs)
      (by rw [hy]; exact he) (by rw [hy]; exact hra) hq
    rw [hy] at ht
    rw [hf, show p.roots.contains (chainRoot chain) = true from hr, attestPassed_fresh _ (by rw [hx]; exact hi)]
    simp only [Bool.not_true, Bool.or_self, Bool.false_eq_true, if_false, slot_endAttestOp]
    exact ⟨congrArg Slot.state ht, congrArg Slot.matched ht, congrArg Slot.profile ht, congrArg Slot.componentId ht,
      congrArg Slot.phase ht⟩
  · exact ⟨by rw [slot_startAttest hp hc], sentTo_startAttest hp hc⟩
  · rw [slot_startAttest (c := c) (by simpa using hp) (by simpa using hc)]
    exact ⟨rfl, by simp [x]⟩
  · exact ⟨by rw [slot_startAttest hp hc], sentTo_startAttest hp hc⟩

end Sys2Proof.Machine
end

section
/-! SUPPORT. A chain of delegation that verifies: a public key chosen after its signature, for any message. The hash-based
signature is a fixed string, and the key's root is the one that its verification computes (R166, R357, R358). -/
namespace Sys2Proof.Machine
open Sys2Proof

/-! ### Lengths of digests (R339) -/

theorem strict_eq {α : Type} (n : Nat) (f : Nat → α) : strict n f = f n := by cases n <;> rfl

theorem spelled_eq {α : Type} (m : Bytes) (v n : Nat) (f : Nat → Nat → α) : ∃ a b, spelled m v n f = f a b := by
  induction m generalizing v n with
  | nil => exact ⟨v, n, rfl⟩
  | cons b r ih => simpa only [spelled, strict_eq] using ih _ _

@[simp] theorem wordBytes_length (n v : Nat) (r : Bytes) : (wordBytes n v r).length = n + r.length := by
  induction n generalizing v r with
  | zero => simp [wordBytes]
  | succ n ih => rw [wordBytes, ih, List.length_cons]; omega

theorem sha2Full_length (p : Sha2Params) (iv : List Nat) (m : Bytes) : (sha2Full p iv m).length = 8 * p.bytes := by
  unfold sha2Full
  obtain ⟨a, b, h⟩ := spelled_eq m 0 0 fun v n =>
    strict (Nat.div (Nat.add n (Nat.add p.lenBytes p.block)) p.block) fun k =>
    strict (Nat.add (Nat.mul (Nat.add (Nat.mul v 256) 0x80) (Nat.pow 256 (Nat.sub (Nat.mul k p.block) (Nat.succ n))))
      (Nat.mul 8 n)) fun w =>
    strict (sha2Blocks p w k (sha2Sum p.m iv (List.replicate 8 0) 0)) fun cv => wordBytes (8 * p.bytes) cv []
  rw [h]
  simp only [strict_eq, wordBytes_length, List.length_nil, Nat.add_zero]

theorem hH_length (m : Bytes) : (hH m).length = 32 := by
  show ((sha2Full sha2P64 sha512t256Init m).take 32).length = 32
  rw [List.length_take, sha2Full_length]
  rfl

theorem lmsHash_length (m : Bytes) : (lmsHash false m).length = 32 := sha2Full_length sha2P32 sha256Init m

theorem lmsPath_length {t : Bytes} (h : t.length = 32) (ident : Bytes) (k node : Nat) (path : Bytes) :
    (lmsPath false ident k node t path).length = 32 := by
  induction k generalizing node t path with
  | zero => exact h
  | succ k ih => exact ih (lmsHash_length _) _ _

/-! ### A key for a signature (R165, R166) -/

/-- The public key of a root (R357): one level of height 10, Winternitz parameter 8, SHA-256, an identifier of zeros. -/
def hssKey (root : Bytes) : Bytes := [0, 0, 0, 1] ++ ([0, 0, 0, 6, 0, 0, 0, 4] ++ (zeros 16 ++ root))

/-- A signature of leaf 0 whose chain values, randomizer and path are zero (R166). -/
def zeroSig : Bytes := zeros 8 ++ ([0, 0, 0, 4] ++ (zeros 1120 ++ ([0, 0, 0, 6] ++ zeros 320)))

/-- The digest of a message under `zeroSig`, with its checksum (R357). -/
def zeroSigDigest (msg : Bytes) : Bytes :=
  let qd := lmsHash false (zeros 20 ++ [0x81, 0x81] ++ zeros 32 ++ msg)
  qd ++ beBytes 2 ((List.range 32).foldl (fun a i => a + (2 ^ 8 - 1 - lmsCoef qd i 8)) 0 * 2 ^ 0)

/-- The candidate K_c that the verification of `zeroSig` computes (R357). -/
def zeroSigCandidate (msg : Bytes) : Bytes :=
  lmsHash false (zeros 20 ++ [0x80, 0x80] ++ lmsEnds false (zeros 20) (zeroSigDigest msg) 8 34 0 (zeros 1088))

/-- The root that the verification of `zeroSig` computes for a message (R358). -/
def zeroSigRoot (msg : Bytes) : Bytes :=
  lmsPath false (zeros 16) 10 1024 (lmsHash false (zeros 16 ++ beBytes 4 1024 ++ [0x82, 0x82] ++ zeroSigCandidate msg))
    (zeros 320)

theorem zeroSigRoot_length (msg : Bytes) : (zeroSigRoot msg).length = 32 := lmsPath_length (lmsHash_length _) _ _ _ _

/-- The fields of `zeroSig` (R166). -/
theorem zeroSig_fields : beVal (slice zeroSig 0 4) = 0 ∧ slice (zeroSig.drop 4) 0 4 = zeros 4 ∧
    slice (zeroSig.drop 4) 4 4 = [0, 0, 0, 4] ∧ slice (zeroSig.drop 4) 8 32 = zeros 32 ∧
    slice (zeroSig.drop 4) 40 1088 = zeros 1088 ∧ slice (zeroSig.drop 4) 1128 4 = [0, 0, 0, 6] ∧
    (zeroSig.drop 4).drop 1132 = zeros 320 ∧ (zeroSig.drop 4).length = 1452 := by
  decide +kernel

theorem otsJob_ok {shake : Bool} {iq full y : Bytes} {w p : Nat} (h : y.length = 32 * p) :
    otsJob shake iq full w p y = .ok (lmsHash shake (iq ++ [0x80, 0x80] ++ lmsEnds shake iq full w p 0 y)) := by
  simp only [otsJob, h, Nat.lt_irrefl, if_false]

/-- A signature of zeros verifies under a key of height 10 and Winternitz parameter 8 with the root that it computes. -/
theorem lmsVerify_zeros {pub sig : Bytes} (msg : Bytes) (hl : slice pub 0 4 = [0, 0, 0, 6]) (ho : slice pub 4 4 = [0, 0, 0, 4])
    (hi : slice pub 8 16 = zeros 16) (hr : slice pub 24 32 = zeroSigRoot msg) (hq : slice sig 0 4 = zeros 4)
    (ht : slice sig 4 4 = [0, 0, 0, 4]) (hc : slice sig 8 32 = zeros 32) (hy : slice sig 40 1088 = zeros 1088)
    (hs : slice sig 1128 4 = [0, 0, 0, 6]) (hp : sig.drop 1132 = zeros 320) (hn : sig.length = 1452) :
    lmsVerify pub msg sig = true := by
  have h1 : lmsType (beVal (slice pub 0 4)) = some (10, false) := by rw [hl]; rfl
  have h2 : lmotsType (beVal (slice pub 4 4)) = some (8, 34, 0, false) := by rw [ho]; rfl
  have hb : beVal (zeros 4) = 0 := rfl
  unfold lmsVerify
  simp only [h1, h2, hi, hq, hc, hn]
  rw [show 1452 - 44 - 32 * 10 = 1088 from rfl, hy, otsJob_ok (List.length_replicate (n := 1088) (a := (0 : Byte)))]
  simp only [hl, ho, ht, hr, hb, hs, hp, Nat.reduceMul, Nat.reduceAdd, Nat.reducePow, Nat.reduceLT, decide_true,
    show zeros 16 ++ zeros 4 = zeros 20 from rfl, beq_self_eq_true, Bool.true_and]
  exact beq_iff_eq.mpr rfl

theorem hssVerify_one {key sig : Bytes} (msg : Bytes) (hk : beVal (slice key 0 4) = 1) (hs : beVal (slice sig 0 4) = 0) :
    hssVerify key msg sig = lmsVerify (key.drop 4) msg (sig.drop 4) := if_pos ⟨hk, hs⟩

/-- The fields of a key (R165). -/
theorem hssKey_fields {root : Bytes} (h : root.length = 32) : beVal (slice (hssKey root) 0 4) = 1 ∧
    slice ((hssKey root).drop 4) 0 4 = [0, 0, 0, 6] ∧ slice ((hssKey root).drop 4) 4 4 = [0, 0, 0, 4] ∧
    slice ((hssKey root).drop 4) 8 16 = zeros 16 ∧ slice ((hssKey root).drop 4) 24 32 = root :=
  ⟨rfl, rfl, rfl, rfl, List.take_of_length_le (Nat.le_of_eq h)⟩

/-- Every message has a key under which `zeroSig` is its signature. -/
theorem hssVerify_zeroSig (msg : Bytes) : hssVerify (hssKey (zeroSigRoot msg)) msg zeroSig = true := by
  obtain ⟨hv, hq, ht, hc, hy, hs, hp, hn⟩ := zeroSig_fields
  obtain ⟨hk, hl, ho, hi, hr⟩ := hssKey_fields (zeroSigRoot_length msg)
  rw [hssVerify_one msg hk hv]
  exact lmsVerify_zeros msg hl ho hi hr hq ht hc hy hs hp hn

/-! ### A chain of one certificate (R164, R165, R170) -/

/-- The key block of a root (R165). -/
def hssBlock (root : Bytes) : Bytes := [2, 0, 0, 0, 68, 0, 0, 0] ++ hssKey root

theorem hssBlock_length {root : Bytes} (h : root.length = 32) : (hssBlock root).length = 68 := by
  simp [hssBlock, hssKey, zeros, h]

theorem hssKeyOk_hssKey {root : Bytes} (h : root.length = 32) : hssKeyOk (hssKey root) = true := by
  have hn : (hssKey root).length = 60 := by simp [hssKey, zeros, h]
  have hs : lmsSetsOk ((hssKey root).drop 4) = true := rfl
  simp [hssKeyOk, hn, hs, (hssKey_fields h).1]

theorem readKey_hssBlock {root : Bytes} (h : root.length = 32) (r : Bytes) :
    readKey (hssBlock root ++ r) = some ⟨2, hssBlock root⟩ := by
  have h0 : u16 (hssBlock root ++ r) 0 = 2 := rfl
  have h2 : u16 (hssBlock root ++ r) 2 = 0 := rfl
  have h4 : u32 (hssBlock root ++ r) 4 = 68 := rfl
  have ht : (hssBlock root ++ r).take 68 = hssBlock root := List.take_left' (hssBlock_length h)
  have hd : (hssBlock root).drop 8 = hssKey root := rfl
  simp [readKey, h0, h2, h4, ht, hd, hssBlock_length h, hssKeyOk_hssKey h]

theorem zeroSig_formOk (root : Bytes) : sigFormOk ⟨2, hssBlock root⟩ zeroSig = true := by
  have hk : beVal (slice (hssBlock root) 8 4) = 1 := rfl
  simp only [sigFormOk, hk]
  decide +kernel

/-- The signed bytes of a certificate for the key of a root: purpose COMMAND, no lanes, no components, counter 16 (R170). -/
def certBody (root : Bytes) : Bytes :=
  [0x47, 0x44, 0x43, 0x31, 1, 0, 0, 0, 0x24, 6, 0, 0, 116, 0, 0, 0, 0x20, 0, 0, 0, 0, 0, 16, 16]
    ++ [0, 0, 0, 0, 0, 0, 0, 0, 0, 0, 0, 0, 0, 0, 0, 0, 0, 0, 0, 0, 0, 0, 0, 0] ++ hssBlock root

/-- The certificate, signed with zeros. -/
def zeroCert (root : Bytes) : Cert := ⟨certBody root, ⟨0x20, 0, 0, 16, 16, 0⟩, 0, 0, ⟨2, hssBlock root⟩, zeroSig⟩

theorem certBody_length {root : Bytes} (h : root.length = 32) : (certBody root).length = 116 := by
  simp [certBody, hssBlock_length h]

theorem zeroSig_length : zeroSig.length = 1456 := by decide +kernel

theorem readCert_zeroCert {root : Bytes} (h : root.length = 32) (r : Bytes) :
    readCert (certBody root ++ (zeroSig ++ r)) = some (zeroCert root) := by
  generalize hb : certBody root ++ (zeroSig ++ r) = b
  have hn : 1572 ≤ b.length := by
    rw [← hb, List.length_append, List.length_append, certBody_length h, zeroSig_length]
    omega
  have ht : b.take 116 = certBody root := by rw [← hb]; exact List.take_left' (certBody_length h)
  have hs : slice b 116 1456 = zeroSig := by
    rw [← hb, slice, List.drop_left' (certBody_length h)]
    exact List.take_left' zeroSig_length
  have hk : readKey (b.drop 0x30) = some ⟨2, hssBlock root⟩ := by rw [← hb]; exact readKey_hssBlock h (zeroSig ++ r)
  have hf : b.take 4 = [0x47, 0x44, 0x43, 0x31] ∧ u16 b 4 = 1 ∧ u16 b 6 = 0 ∧ u32 b 8 = 1572 ∧ u32 b 12 = 116 ∧
      u32 b 0x10 = 0x20 ∧ u8 b 0x14 = 0 ∧ u8 b 0x15 = 0 ∧ u8 b 0x16 = 16 ∧ u8 b 0x17 = 16 ∧ u32 b 0x18 = 0 ∧
      u32 b 0x1C = 0 ∧ slice b 0x20 8 = [0, 0, 0, 0, 0, 0, 0, 0] ∧ slice b 0x28 8 = [0, 0, 0, 0, 0, 0, 0, 0] := by
    rw [← hb]
    exact ⟨rfl, rfl, rfl, rfl, rfl, rfl, rfl, rfl, rfl, rfl, rfl, rfl, rfl, rfl⟩
  obtain ⟨h0, h4, h6, h8, h12, hp, hl, hc, hi, hj, hv, he, hy, hz⟩ := hf
  have hr : u64 b 0x20 = 0 := by rw [u64, field, hy]; decide
  simp [readCert, hk, h0, h4, h6, h8, h12, hp, hl, hc, hi, hj, hv, he, hr, hz, hssBlock_length h, hn, ht, hs, zeroCert,
    allZero]

/-- The signature block of the owner key of a root, with a certificate for another and a signature of zeros (R164). -/
def zeroBlock (root leaf : Bytes) : Bytes :=
  [2, 0, 0, 1, 0x28, 0x0C, 0, 0, 68, 0, 0, 0, 0, 0, 0, 0] ++ (hssBlock root ++ (certBody leaf ++ (zeroSig ++ zeroSig)))

theorem zeroBlock_length {root leaf : Bytes} (h : root.length = 32) (k : leaf.length = 32) :
    (zeroBlock root leaf).length = 3112 := by
  simp [zeroBlock, hssBlock_length h, certBody_length k, zeroSig_length]

theorem readSigBlk_zeroBlock {root leaf : Bytes} (h : root.length = 32) (k : leaf.length = 32) :
    readSigBlk (zeroBlock root leaf) = some (⟨2, 0, ⟨2, hssBlock root⟩, [zeroCert leaf], zeroSig⟩, []) := by
  have hn := zeroBlock_length h k
  have hk : slice (zeroBlock root leaf) 0x10 68 = hssBlock root := List.take_left' (hssBlock_length h)
  have hr : readKey (hssBlock root) = some ⟨2, hssBlock root⟩ := by simpa using readKey_hssBlock h []
  have hc : readChain 1 (((zeroBlock root leaf).take 3112).drop (0x10 + 68)) = some ([zeroCert leaf], zeroSig) := by
    have hd : (zeroBlock root leaf).drop (0x10 + 68) = certBody leaf ++ (zeroSig ++ zeroSig) := by
      rw [← List.drop_drop]
      exact List.drop_left' (hssBlock_length h)
    have hl : (certBody leaf ++ (zeroSig ++ zeroSig)).drop 1572 = zeroSig := by
      rw [← List.append_assoc]
      exact List.drop_left' (by rw [List.length_append, certBody_length k, zeroSig_length])
    have hu : u32 (certBody leaf ++ (zeroSig ++ zeroSig)) 8 = 1572 := rfl
    rw [List.take_of_length_le (Nat.le_of_eq hn), hd]
    simp [readChain, readCert_zeroCert k, hu, hl]
  have hf : u16 (zeroBlock root leaf) 0 = 2 ∧ u8 (zeroBlock root leaf) 2 = 0 ∧ u8 (zeroBlock root leaf) 3 = 1 ∧
      u32 (zeroBlock root leaf) 4 = 3112 ∧ u32 (zeroBlock root leaf) 8 = 68 ∧ u32 (zeroBlock root leaf) 0x0C = 0 :=
    ⟨rfl, rfl, rfl, rfl, rfl, rfl⟩
  obtain ⟨h0, h2, h3, h4, h8, h12⟩ := hf
  have hs : sigFormOk (zeroCert leaf).key zeroSig = true := zeroSig_formOk leaf
  have hi : chainSigsOk ⟨2, hssBlock root⟩ [zeroCert leaf] = true := by
    simp only [chainSigsOk, Bool.and_true]
    exact zeroSig_formOk root
  have ha : (zeroCert leaf).key.alg = 2 := rfl
  simp [readSigBlk, h0, h2, h3, h4, h8, h12, hn, hk, hr, hc, hs, hi, ha, signingKey, hssBlock_length h]

end Sys2Proof.Machine
end

section
/-! SUPPORT. A request that comes with a record under a delegation certificate: it is admitted, and the certificate's serial is
written to the ring-log queue before the command executes (R170, R390, R402, R403). -/
namespace Sys2Proof.Machine
open Sys2Proof

/-! ### Reading behind a prefix -/

theorem slice_append {a : Bytes} {k : Nat} (h : a.length = k) (b : Bytes) (o n : Nat) :
    slice (a ++ b) (k + o) n = slice b o n := by
  rw [slice, slice, ← List.drop_drop, List.drop_left' h]

theorem field_append {a : Bytes} {k : Nat} (h : a.length = k) (b : Bytes) (o n : Nat) :
    field (a ++ b) (k + o) n = field b o n := by
  rw [field, field, slice_append h]

theorem reservedAt_append {a : Bytes} {k : Nat} (h : a.length = k) (b : Bytes) {o n : Nat} (hz : allZero (slice b o n) = true) :
    reservedAt (a ++ b) (k + o) n = none := by
  rw [reservedAt, slice_append h, hz]
  rfl

/-! ### The record (R402, R403) -/

/-- The signed bytes of a record for an opcode and command payload: one block, no lanes, serial 0, the challenge of zeros. -/
def recordBody (op : Nat) (cmd : Bytes) : Bytes :=
  [0x47, 0x43, 0x41, 0x31, 1, 0, 1, 0, 0x88, 0x0C, 0, 0, 0x60, 0, 0, 0, BitVec.ofNat 8 op, BitVec.ofNat 8 (op / 256),
      0, 0, 0, 0, 0, 0]
    ++ [0, 0, 0, 0, 0, 0, 0, 0] ++ (zeros 32 ++ hH (0x05 :: leBytes 2 op ++ cmd))

theorem recordBody_length (op : Nat) (cmd : Bytes) : (recordBody op cmd).length = 96 := by
  simp [recordBody, zeros, hH_length]

/-- The root of the key that the certificate names, under which `zeroSig` signs the record. -/
def leafRoot (op : Nat) (cmd : Bytes) : Bytes := zeroSigRoot (recordBody op cmd)

/-- The root of the owner's key, under which `zeroSig` signs the certificate. -/
def ownerRoot (op : Nat) (cmd : Bytes) : Bytes := zeroSigRoot (certBody (leafRoot op cmd))

theorem leafRoot_length (op : Nat) (cmd : Bytes) : (leafRoot op cmd).length = 32 := zeroSigRoot_length _
theorem ownerRoot_length (op : Nat) (cmd : Bytes) : (ownerRoot op cmd).length = 32 := zeroSigRoot_length _

/-- The signature block of the record. -/
def delegatedBlk (op : Nat) (cmd : Bytes) : SigBlk :=
  ⟨2, 0, ⟨2, hssBlock (ownerRoot op cmd)⟩, [zeroCert (leafRoot op cmd)], zeroSig⟩

/-- The bytes of the record. -/
def delegatedRecord (op : Nat) (cmd : Bytes) : Bytes := recordBody op cmd ++ zeroBlock (ownerRoot op cmd) (leafRoot op cmd)

/-- The request: the record and the command payload behind it. -/
def delegatedReq (port : Port) (op : Nat) (cmd : Bytes) : Req := ⟨port, 1, 1, delegatedRecord op cmd ++ cmd⟩

theorem delegatedRecord_length (op : Nat) (cmd : Bytes) : (delegatedRecord op cmd).length = 3208 := by
  rw [delegatedRecord, List.length_append, recordBody_length, zeroBlock_length (ownerRoot_length op cmd) (leafRoot_length op cmd)]

/-- The scope of an owner key that may sign commands and delegate (R172). -/
def delegateScope : KeyScope := { vendorScope with purpose := 0x60 }

theorem verifySig_hssBlock (root msg sig : Bytes) : verifySig ⟨2, hssBlock root⟩ msg sig = hssVerify (hssKey root) msg sig := rfl

theorem verifySig_certBody (op : Nat) (cmd : Bytes) :
    verifySig ⟨2, hssBlock (ownerRoot op cmd)⟩ (certBody (leafRoot op cmd)) zeroSig = true := by
  rw [verifySig_hssBlock, ownerRoot]
  exact hssVerify_zeroSig (certBody (leafRoot op cmd))

theorem verifySig_recordBody (op : Nat) (cmd : Bytes) :
    verifySig ⟨2, hssBlock (leafRoot op cmd)⟩ (recordBody op cmd) zeroSig = true := by
  rw [verifySig_hssBlock, leafRoot]
  exact hssVerify_zeroSig (recordBody op cmd)

theorem chainVerifies_one (k : KeyBlk) (c : Cert) : chainVerifies k [c] = verifySig k c.signed c.sig := by
  simp only [chainVerifies, Bool.and_true]

/-- The block passes steps 3 to 8 of R177 from an owner root that may delegate commands (R403). -/
theorem delegatedBlk_passes {s : State} (op : Nat) (cmd : Bytes) (hc : s.counter 16 = 0) :
    checkBlkUnder s (some delegateScope) (recordBody op cmd) { purpose := purposeCommand, lanes := 0 } (delegatedBlk op cmd) =
      none := by
  have h1 : chainInScope delegateScope (delegatedBlk op cmd).chain = true := by
    have h : scopeWithin ⟨0x20, 0, 0, 16, 16, 0⟩ delegateScope = true := by decide
    simp only [delegatedBlk, zeroCert, chainInScope, h]
    rfl
  have h2 : chainVerifies (delegatedBlk op cmd).root (delegatedBlk op cmd).chain = true := by
    rw [delegatedBlk]
    exact (chainVerifies_one _ _).trans (verifySig_certBody op cmd)
  have h3 : verifySig (signingKey (delegatedBlk op cmd)) (recordBody op cmd) (delegatedBlk op cmd).sig = true :=
    verifySig_recordBody op cmd
  have h4 : scopeCovers ((((delegatedBlk op cmd).chain.map (·.scope)).getLast?).getD delegateScope)
      { purpose := purposeCommand, lanes := 0 } = true := by
    simp only [delegatedBlk, zeroCert, List.map_cons, List.map_nil, List.getLast?_singleton, Option.getD_some]
    decide
  have h5 : ((delegatedBlk op cmd).chain.any fun c => decide (c.epoch < s.counter 16)) = false := by
    simp [delegatedBlk, zeroCert, hc]
  simp only [checkBlkUnder, h1, h2, h3, h4, h5, Bool.not_true, Bool.false_eq_true, if_false]

theorem readAuth_delegated {op : Nat} (h : op < 65536) (cmd : Bytes) : readAuth (delegatedRecord op cmd ++ cmd) =
    some (⟨1, op, 0, 0, zeros 32, hH (0x05 :: leBytes 2 op ++ cmd), recordBody op cmd, [delegatedBlk op cmd]⟩, cmd) := by
  have hn := delegatedRecord_length op cmd
  have hl : (recordBody op cmd).length = 96 := recordBody_length op cmd
  generalize hb : delegatedRecord op cmd ++ cmd = b
  have ha : b = recordBody op cmd ++ (zeroBlock (ownerRoot op cmd) (leafRoot op cmd) ++ cmd) := by
    rw [← hb, delegatedRecord, List.append_assoc]
  have hf : b.take 4 = [0x47, 0x43, 0x41, 0x31] ∧ u16 b 4 = 1 ∧ u8 b 6 = 1 ∧ u8 b 7 = 0 ∧ u32 b 8 = 3208 ∧ u32 b 12 = 96 ∧
      slice b 0x10 2 = [BitVec.ofNat 8 op, BitVec.ofNat 8 (op / 256)] ∧ u8 b 0x12 = 0 ∧ slice b 0x13 5 = [0, 0, 0, 0, 0] ∧
      slice b 0x18 8 = [0, 0, 0, 0, 0, 0, 0, 0] := by
    rw [ha]
    exact ⟨rfl, rfl, rfl, rfl, rfl, rfl, rfl, rfl, rfl, rfl⟩
  obtain ⟨h0, h4, h6, h7, h8, h12, ho, hz, hr, hs⟩ := hf
  have hop : u16 b 0x10 = op := by
    rw [u16, field, ho]
    simp only [leVal, BitVec.toNat_ofNat]
    omega
  have hser : u64 b 0x18 = 0 := by rw [u64, field, hs]; decide
  have hlen : 3208 ≤ b.length := by rw [← hb, List.length_append, hn]; omega
  have hblk : (b.take 3208).drop 0x60 = zeroBlock (ownerRoot op cmd) (leafRoot op cmd) := by
    rw [← hb, List.take_left' hn]
    exact List.drop_left' hl
  have hblks : readBlks 1 (zeroBlock (ownerRoot op cmd) (leafRoot op cmd)) = some [delegatedBlk op cmd] := by
    simp [readBlks, readSigBlk_zeroBlock (ownerRoot_length op cmd) (leafRoot_length op cmd), delegatedBlk]
  have hch : slice b 0x20 32 = zeros 32 := by rw [ha]; exact List.take_left' List.length_replicate
  have hdig : slice b 0x40 32 = hH (0x05 :: leBytes 2 op ++ cmd) := by
    have hp : ([0x47, 0x43, 0x41, 0x31, 1, 0, 1, 0, 0x88, 0x0C, 0, 0, 0x60, 0, 0, 0, BitVec.ofNat 8 op, BitVec.ofNat 8 (op / 256),
        0, 0, 0, 0, 0, 0] ++ [0, 0, 0, 0, 0, 0, 0, 0] ++ zeros 32 : Bytes).length = 64 := by simp [zeros]
    rw [ha, recordBody, ← List.append_assoc, List.append_assoc]
    exact (slice_append hp _ 0 32).trans (List.take_left' (hH_length _))
  have hsig : b.take 0x60 = recordBody op cmd := by rw [ha]; exact List.take_left' hl
  have hrest : b.drop 3208 = cmd := by rw [← hb]; exact List.drop_left' hn
  simp [readAuth, h0, h4, h6, h7, h8, h12, hz, hr, hop, hser, hlen, hblk, hblks, hch, hdig, hsig, hrest, allZero]

/-- No reserved field of the certificate is set, wherever it stands (R170). -/
theorem chainReserved_certBody {a : Bytes} {k : Nat} (h : a.length = k) (root r : Bytes) :
    chainReserved (a ++ (certBody root ++ r)) 1 k = none := by
  have h1 : reservedAt (a ++ (certBody root ++ r)) (k + 6) 2 = none := reservedAt_append h _ rfl
  have h2 : u32 (a ++ (certBody root ++ r)) (k + 0x10) = 0x20 := field_append h _ _ _
  have h3 : u8 (a ++ (certBody root ++ r)) (k + 0x15) = 0 := field_append h _ _ _
  have h4 : reservedAt (a ++ (certBody root ++ r)) (k + 0x28) 8 = none := reservedAt_append h _ rfl
  have h5 : reservedAt (a ++ (certBody root ++ r)) (k + 0x32) 2 = none := reservedAt_append h _ rfl
  simp [chainReserved, keyReserved, h1, h2, h3, h4, h5]

/-- No reserved field of the signature block is set, wherever it stands (R164). -/
theorem blksReserved_zeroBlock {a : Bytes} {k : Nat} (h : a.length = k) {root : Bytes} (hr : root.length = 32) (leaf : Bytes) :
    blksReserved (a ++ zeroBlock root leaf) 1 k = none := by
  have h1 : reservedAt (a ++ zeroBlock root leaf) (k + 0x0C) 4 = none := reservedAt_append h _ rfl
  have h2 : reservedAt (a ++ zeroBlock root leaf) (k + 0x12) 2 = none := reservedAt_append h _ rfl
  have h3 : u8 (a ++ zeroBlock root leaf) (k + 3) = 1 := field_append h _ _ _
  have h4 : u32 (a ++ zeroBlock root leaf) (k + 8) = 68 := field_append h _ _ _
  have h5 : chainReserved (a ++ zeroBlock root leaf) 1 (k + 84) = none := by
    rw [zeroBlock, ← List.append_assoc, ← List.append_assoc]
    exact chainReserved_certBody (by simp [h, hssBlock_length hr]) _ _
  simp [blksReserved, keyReserved, h1, h2, h3, h4, h5]

/-- No reserved field of the record is set (R4, R402). -/
theorem recordReserved_delegated (op : Nat) (cmd : Bytes) : recordReserved (delegatedRecord op cmd ++ cmd) = none := by
  have hb : (delegatedRecord op cmd ++ cmd).take (u32 (delegatedRecord op cmd ++ cmd) 8) = delegatedRecord op cmd := by
    rw [show u32 (delegatedRecord op cmd ++ cmd) 8 = 3208 from rfl]
    exact List.take_left' (delegatedRecord_length op cmd)
  have h1 : reservedAt (delegatedRecord op cmd) 0x07 1 = none := rfl
  have h2 : reservedAt (delegatedRecord op cmd) 0x13 5 = none := rfl
  have h3 : u8 (delegatedRecord op cmd) 6 = 1 := rfl
  have h4 : blksReserved (delegatedRecord op cmd) 1 0x60 = none :=
    blksReserved_zeroBlock (recordBody_length op cmd) (ownerRoot_length op cmd) _
  simp [recordReserved, hb, h1, h2, h3, h4]

/-- The record is accepted for a command of a level that one owner signature meets, where the owner's anchor is that of the
record's root and its challenge is open (R403). -/
theorem checkRecord_delegated {s : State} {op : Nat} {level : Level} (cmd : Bytes) (h : op < 65536)
    (hs : level.signers = [0]) (hl : level ≠ .ownership) (hf : s.fuses.serial = 0) (hc : s.counter 16 = 0)
    (ho : s.challengeOpen (zeros 32) = true) (hr : rootScope s (delegatedBlk op cmd) = some delegateScope) :
    checkRecord s op level 0 (delegatedRecord op cmd ++ cmd) = .ok (zeros 32) := by
  have hk : recordScope s level cmd (delegatedBlk op cmd) = some delegateScope := by
    cases level with
    | ownership => exact absurd rfl hl
    | _ => exact hr
  have hg : signersOk [0] [delegatedBlk op cmd] = true := rfl
  simp [checkRecord, readAuth_delegated h, hs, hg, hf, ho, checkRecordBlks, hk, delegatedBlk_passes op cmd hc]

/-! ### The request (R390, R402) -/

theorem authFlag_delegatedReq (port : Port) (op : Nat) (cmd : Bytes) : (delegatedReq port op cmd).flags.getLsbD 0 = true := by
  show (1#16).getLsbD 0 = true
  decide

theorem cmdOffset_delegatedReq (port : Port) (op : Nat) (cmd : Bytes) : cmdOffset (delegatedReq port op cmd) = 3208 := by
  rw [cmdOffset, if_pos (authFlag_delegatedReq port op cmd)]
  exact show u32 (delegatedRecord op cmd ++ cmd) 8 = 3208 from rfl

theorem callOf_delegatedReq (port : Port) (op : Nat) (cmd : Bytes) : callOf (delegatedReq port op cmd) = ⟨port, 1, cmd⟩ := by
  have ho := cmdOffset_delegatedReq port op cmd
  have hd : (delegatedRecord op cmd ++ cmd).drop 3208 = cmd := List.drop_left' (delegatedRecord_length op cmd)
  show (⟨port, 1, (delegatedRecord op cmd ++ cmd).drop (cmdOffset (delegatedReq port op cmd))⟩ : Call) = _
  rw [ho, hd]

/-- A state serves a call of a command at once, but for the authorisation (R390, R393, R397). -/
structure ServesCall (c : Cmd) (port : Port) (cmd : Bytes) (s : State) : Prop where
  service : serviceState c port cmd s = .serve
  waiting : s.stolik.waiting = []
  inFlight : s.stolik.inFlight = []
  short : cmd.length ≤ 1024
  need : c.need s ⟨port, 1, cmd⟩ = cmd.length
  field : c.badField s cmd = none
  life : c.life s cmd = true
  locks : c.locks s ⟨port, 1, cmd⟩ = none

/-- The level of a call is met by a record of the owner for no lanes (R399, R402, R403). -/
structure OwnerSigns (c : Cmd) (port : Port) (cmd : Bytes) (s : State) : Prop where
  opcode : c.op < 65536
  signers : (c.level s cmd).signers = [0]
  owner : c.level s cmd ≠ .ownership
  record : c.level s cmd ≠ .structure_
  port : levelPort port (c.level s cmd) = true
  lanes : c.lanes s cmd = 0

/-- The record of a call is one that the state accepts (R168, R401, R403). -/
structure OwnerTrusted (op : Nat) (cmd : Bytes) (s : State) : Prop where
  serial : s.fuses.serial = 0
  counter : s.counter 16 = 0
  challenge : s.challengeOpen (zeros 32) = true
  root : rootScope s (delegatedBlk op cmd) = some delegateScope

variable {c : Cmd} {port : Port} {cmd : Bytes} {s : State}

/-- The record authorises the call (step 10 of R390). -/
theorem authorise_delegated (hs : OwnerSigns c port cmd s) (ht : OwnerTrusted c.op cmd s) :
    authorise c true (delegatedRecord c.op cmd ++ cmd) ⟨port, 1, cmd⟩ s = .ok (some (zeros 32)) := by
  have hr := checkRecord_delegated (level := c.level s cmd) cmd hs.opcode hs.signers hs.owner ht.serial ht.counter ht.challenge
    ht.root
  -- the acceptance of a structure is judged at level S alone
  have hne := hs.record
  unfold authorise
  simp only [hs.port, hs.lanes, hr, Bool.not_true, Bool.false_eq_true, if_false, if_true, Except.map]

/-- A request with the record is admitted, and closes the challenge of zeros. -/
theorem admitted_delegated (hc : ServesCall c port cmd s) (hs : OwnerSigns c port cmd s) (ht : OwnerTrusted c.op cmd s) :
    Admitted c (delegatedReq port c.op cmd) s (some (zeros 32)) := by
  have hlen : (delegatedReq port c.op cmd).payload.length = 3208 + cmd.length := by
    rw [delegatedReq, List.length_append, delegatedRecord_length]
  have hshort := hc.short
  have htag : s.tagBusy port 1 (reqFrame c (delegatedReq port c.op cmd)) = false := by
    simp [State.tagBusy, hc.waiting, hc.inFlight]
  have hload : s.deviceLoad < 1024 := by simp [State.deviceLoad, hc.waiting, hc.inFlight]
  have hhead : headerOk (delegatedReq port c.op cmd) = true := by
    have hf : (delegatedReq port c.op cmd).flags.toNat = 1 := rfl
    simp only [headerOk, hlen, hf, Bool.and_eq_true, decide_eq_true_eq]
    omega
  have hauth := authorise_delegated hs ht
  have hres := recordReserved_delegated c.op cmd
  refine ⟨by rw [callOf_delegatedReq]; exact hc.service, .inr hload, hhead, ?_⟩
  rw [callOf_delegatedReq]
  have ho := cmdOffset_delegatedReq port c.op cmd
  have hfl := authFlag_delegatedReq port c.op cmd
  have hpay : (delegatedReq port c.op cmd).payload = delegatedRecord c.op cmd ++ cmd := rfl
  have hport : (delegatedReq port c.op cmd).port = port := rfl
  have htg : (delegatedReq port c.op cmd).tag = 1 := rfl
  have hauthLen : (true && decide ((delegatedReq port c.op cmd).payload.length < max 12 3208)) = false := by
    rw [hlen, Bool.true_and, decide_eq_false_iff_not]
    omega
  unfold checkCall
  dsimp only
  rw [hfl, ho, hauthLen, hport, htg, htag, hc.inFlight, hc.need, hc.field, hc.life, hc.locks, hpay, hres, hauth]
  simp

/-! ### What the request leaves in the ring-log queue (R170) -/

/-- An entry for the ring log is queued or counted as dropped (R476). -/
theorem logAt_nvm_ne (t y o : Nat) (d : Bytes) (s : State) : (logAt t y o d s).nvm ≠ s.nvm := by
  intro h
  have hl : (logAt t y o d s).nvm.log = s.nvm.log := congrArg Nvm.log h
  simp only [logAt, State.modLog_nvm] at hl
  split at hl
  · have := congrArg RingLog.dropped hl
    simp at this
  · split at hl
    all_goals
      have := congrArg (fun l => l.queue.length) hl
      simp at this

/-- The serial of the record's certificate is recorded as the request begins. -/
theorem begun_delegated_nvm (hop : c.op < 65536) (hg : ∀ s k, c.signed s k = []) (ch : Option Bytes) :
    (begun c (delegatedReq port c.op cmd) ch s).nvm ≠ s.nvm := by
  have hb : recordBlks (delegatedReq port c.op cmd) = [delegatedBlk c.op cmd] := by
    rw [recordBlks, if_pos (authFlag_delegatedReq port c.op cmd)]
    show ((readAuth (delegatedRecord c.op cmd ++ cmd)).map fun x => x.1.blks).getD [] = _
    rw [readAuth_delegated hop]
    rfl
  have hn (x : State) :
      (closeChallenge ch (takeWaiting port (reqFrame c (delegatedReq port c.op cmd)) (wakeIdle x))).nvm = x.nvm := by
    cases ch <;> simp only [closeChallenge, takeWaiting, wakeIdle] <;> split <;> rfl
  rw [begun, beginCall, hb, hg, List.flatMap_nil, List.append_nil, ← hn s]
  exact logAt_nvm_ne _ _ _ _ _

end Sys2Proof.Machine
end

section
/-! SUPPORT. Two requests that come with a record under a delegation certificate and are admitted, though R170 makes the block
write the certificate's serial to its ring-log queue: QUOTA_CLAIM for a failure group that no policy assigns, and
GET_CERTIFICATES. -/
namespace Sys2Proof.Machine
open Sys2Proof

/-! ### What a response leaves unchanged -/

@[simp] theorem sendResp_nvm (r : Resp) (s : State) : (sendResp r s).nvm = s.nvm := by
  rw [sendResp]
  cases r.port <;> rfl

@[simp] theorem relayOut_nvm (r : Resp) (s : State) : (relayOut r s).nvm = s.nvm := by
  rw [relayOut]
  split
  · split
    · rfl
    · exact sendRouted_nvm ..
  · rfl

@[simp] theorem Call.reply_nvm (c : Call) (op : Nat) (r : Res) (b : Bytes) (s : State) : (c.reply op r b s).nvm = s.nvm :=
  (relayOut_nvm ..).trans (sendResp_nvm ..)

/-! ### A state that trusts the owner of the record -/

/-- The owner's anchors are one root of the owner of the record, which may delegate commands, and the challenge of zeros is open
(R172, R401). -/
def trusting (op : Nat) (cmd : Bytes) (s : State) : State :=
  { s with
    nvm := { s.nvm with anchors := Vector.replicate 4 ⟨hH (hssBlock (ownerRoot op cmd)), 0x60, .active⟩ }
    stolik := { s.stolik with challenges := [⟨zeros 32, 0⟩] } }

theorem rootScope_trusting (op : Nat) (cmd : Bytes) (s : State) :
    rootScope (trusting op cmd s) (delegatedBlk op cmd) = some delegateScope := by
  have hd : hH (delegatedBlk op cmd).root.bytes = hH (hssBlock (ownerRoot op cmd)) := rfl
  have hs : (delegatedBlk op cmd).signer ≠ 1 := by simp [delegatedBlk]
  have ha : (trusting op cmd s).nvm.anchors.toList =
      List.replicate 4 ⟨hH (hssBlock (ownerRoot op cmd)), 0x60, .active⟩ := Vector.toList_replicate
  rw [rootScope, if_neg hs, hd, ha]
  simp [delegateScope]

theorem ownerTrusted_trusting (op : Nat) (cmd : Bytes) {s : State} (hf : s.fuses.serial = 0) (hc : s.counter 16 = 0) :
    OwnerTrusted op cmd (trusting op cmd s) where
  serial := hf
  counter := hc
  challenge := by simp [State.challengeOpen, trusting]
  root := rootScope_trusting op cmd s

/-! ### QUOTA_CLAIM for a failure group that this node does not coordinate -/

/-- The firmware serves link 0 and the buses, and the Alias certificates are ready; there is no admission policy. -/
def servingAll : State :=
  { State.reset with
    mode := .firmware
    chuck := { State.reset.chuck with power := .run }
    keys := { State.reset.keys with aliasReady := true }
    fabric := { State.reset.fabric with
      links := vmod State.reset.fabric.links 0 fun l => { l with st := .up, member := some .fabric } } }

/-- The claim of slot 0 of node 0 in failure group 0 (R311, R413). -/
def claimCmd : Bytes := zeros 0x48

theorem servesCall_quotaClaim : ServesCall cmdQuotaClaim (.pl 0 0) claimCmd (trusting 0x0408 claimCmd servingAll) where
  service := rfl
  waiting := rfl
  inFlight := rfl
  short := by decide
  need := rfl
  field := by decide
  life := rfl
  locks := rfl

theorem ownerSigns_quotaClaim : OwnerSigns cmdQuotaClaim (.pl 0 0) claimCmd (trusting 0x0408 claimCmd servingAll) where
  opcode := by decide
  signers := rfl
  owner := by decide
  record := by decide
  port := by decide
  lanes := rfl

/-! ### GET_CERTIFICATES of the device certificate -/

/-- FORM 1, from offset 0 (R413). -/
def deviceCertCmd : Bytes := 1 :: zeros 7

theorem servesCall_getCertificates :
    ServesCall cmdGetCertificates (.mb 0) deviceCertCmd (trusting 0x0401 deviceCertCmd servingAll) where
  service := rfl
  waiting := rfl
  inFlight := rfl
  short := by decide
  need := rfl
  field := by decide
  life := rfl
  locks := rfl

theorem ownerSigns_getCertificates :
    OwnerSigns cmdGetCertificates (.mb 0) deviceCertCmd (trusting 0x0401 deviceCertCmd servingAll) where
  opcode := by decide
  signers := rfl
  owner := by decide
  record := by decide
  port := rfl
  lanes := rfl

/-! ### What the two requests write -/

theorem logSerials_adm (l : List SigBlk) (s : State) : (logSerials l s).adm = s.adm := by
  rw [logSerials]
  induction l.flatMap (·.chain) generalizing s with
  | nil => rfl
  | cons c cs ih => exact (ih _).trans (logNow_adm ..)

theorem begun_adm (c : Cmd) (r : Req) (ch : Option Bytes) (s : State) : (begun c r ch s).adm = s.adm := by
  have hw : (wakeIdle s).adm = s.adm := by
    rw [wakeIdle]
    split <;> rfl
  refine (logSerials_adm _ _).trans (Eq.trans ?_ hw)
  cases ch <;> rfl

/-- An admitted request with the record, whose command writes nothing under the policy in force, leaves another NVM than it
found. -/
theorem serve_delegated_nvm_ne {c : Cmd} {port : Port} {cmd : Bytes} {s : State} (hc : ServesCall c port cmd s)
    (hs : OwnerSigns c port cmd s) (ht : OwnerTrusted c.op cmd s) (hg : ∀ s k, c.signed s k = [])
    (hr : ∀ t, t.adm = s.adm → (c.run ⟨port, 1, cmd⟩ t).nvm = t.nvm) : (serve c (delegatedReq port c.op cmd) s).nvm ≠ s.nvm := by
  rw [serve_admitted (admitted_delegated hc hs ht), callOf_delegatedReq, hr _ (begun_adm ..)]
  exact begun_delegated_nvm hs.opcode hg _

theorem coordinates_of_no_policy {s : State} (h : s.adm = none) (g : Nat) : s.coordinates g = false := by
  rw [State.coordinates, h]
  rfl

theorem cmdQuotaClaim_run_nvm {s : State} (h : s.adm = none) (k : Call) : (cmdQuotaClaim.run k s).nvm = s.nvm := by
  simp [cmdQuotaClaim, coordinates_of_no_policy h]

theorem cmdGetCertificates_run_nvm (k : Call) (s : State) : (cmdGetCertificates.run k s).nvm = s.nvm := by
  simp only [cmdGetCertificates]
  split <;> exact Call.reply_nvm ..

/-- Refutes O42: a QUOTA_CLAIM for a failure group that this node does not coordinate, admitted with a record under a delegation
certificate, leaves the certificate's serial in the ring-log queue (R170), so the NVM is not what it was. -/
theorem not_leasesAndSlotCommands : ¬ Obligations.leasesAndSlotCommands := by
  intro h
  have ht : OwnerTrusted 0x0408 claimCmd (trusting 0x0408 claimCmd servingAll) := ownerTrusted_trusting _ _ rfl rfl
  obtain ⟨-, -, -, -, -, -, -, -, hclaim, -⟩ := h 0 0 0 ⟨0, 0, 0, 0⟩ default 0 default default
    (delegatedReq (.pl 0 0) 0x0408 claimCmd) (some (zeros 32)) (trusting 0x0408 claimCmd servingAll)
  obtain ⟨t, hx, -, hn⟩ := hclaim (admitted_delegated servesCall_quotaClaim ownerSigns_quotaClaim ht)
    (coordinates_of_no_policy rfl _)
  rw [← Host.Outcome.next.inj hx] at hn
  exact serve_delegated_nvm_ne servesCall_quotaClaim ownerSigns_quotaClaim ht (fun _ _ => rfl)
    (fun t h => cmdQuotaClaim_run_nvm h _) hn

/-- Refutes O46: a GET_CERTIFICATES for the device certificate, admitted with a record under a delegation certificate, leaves the
certificate's serial in the ring-log queue (R170), so the NVM is not what it was. -/
theorem not_objectsAndFrames : ¬ Obligations.objectsAndFrames := by
  intro h
  have ht : OwnerTrusted 0x0401 deviceCertCmd (trusting 0x0401 deviceCertCmd servingAll) := ownerTrusted_trusting _ _ rfl rfl
  obtain ⟨-, -, -, -, hget, -⟩ := h (delegatedReq (.mb 0) 0x0401 deviceCertCmd) (trusting 0x0401 deviceCertCmd servingAll)
    (some (zeros 32)) 0 (.mb 0) default [] false .done 0 0 default 0 0 ⟨[], [], []⟩
  obtain ⟨t, hx, -, hn⟩ := hget (admitted_delegated servesCall_getCertificates ownerSigns_getCertificates ht)
    (by rw [callOf_delegatedReq]; rfl)
  rw [← Host.Outcome.next.inj hx] at hn
  exact serve_delegated_nvm_ne servesCall_getCertificates ownerSigns_getCertificates ht (fun _ _ => rfl)
    (fun t _ => cmdGetCertificates_run_nvm _ t) hn

end Sys2Proof.Machine
end
